-- ==== Sys2Proof/Word.lean ====
section
/-! DEFINITION. The word types of the manual (00_scope, "Numbers, units and time"). -/
namespace Sys2Proof

/-- A byte, 8 bits. -/
abbrev Byte := BitVec 8
/-- A half-word, 16 bits. -/
abbrev Half := BitVec 16
/-- A word, 32 bits. -/
abbrev Word := BitVec 32
/-- A double-word, 64 bits. -/
abbrev DWord := BitVec 64
/-- A global thread number (R15). -/
abbrev Tid := BitVec 9

end Sys2Proof
end

