-- ==== Sys2Proof/Config.lean ====
section
/-! DEFINITION. What the manual leaves to each chip (R1, R296): constants with no value the proofs could use. -/
namespace Sys2Proof

/-- The chips of R1; CPX_ID.CHIP tells which one it is. -/
inductive Chip where
  | hx810 | hx820 | hx840
deriving DecidableEq, Repr, Inhabited

/-- The silicon steppings of R1; CPX_ID.STEP tells which one it is. -/
inductive Stepping where
  | a2 | b0
deriving DecidableEq, Repr, Inhabited

/-- The chip the block is built into: per chip (R1, CPX_ID). -/
opaque Config.chip : Chip
/-- The stepping: per stepping (R1, CPX_ID). -/
opaque Config.stepping : Stepping
/-- Bank `b` is supplied at 1.8 V (R296, HDG_IO.VB): the integrator's choice. -/
opaque Config.bank18 : Nat → Bool

/-- CPX_ID.CHIP as the register shows it. -/
def Chip.code : Chip → BitVec 12
  | .hx810 => 0x810
  | .hx820 => 0x820
  | .hx840 => 0x840

/-- CPX_ID.STEP as the register shows it. -/
def Stepping.code : Stepping → BitVec 8
  | .a2 => 0xA2
  | .b0 => 0xB0

end Sys2Proof
end

