-- ==== Sys2Proof/Syntax.lean ====
section
/-! DEFINITION. The commands of the block: one constructor per row of opcode_table.json, with the row's operands. -/
namespace Sys2Proof

/-- The access path of a register or aperture access (R13, R245, R255, R371). -/
inductive Path where
  | host | camin | mailbox
deriving DecidableEq, Repr

/-- A bus access: its path, and whether the chip marks it as secure (R29, R299). -/
structure Acc where
  path : Path
  secure : Bool
deriving DecidableEq, Repr

/-- The width of an access. -/
inductive Size where
  | b8 | b16 | b32 | b64
deriving DecidableEq, Repr

/-- A member of a swath domain (R37): a thread or a block mover. -/
inductive Member where
  | thread (g : Tid)
  | mover (m : BitVec 5)
deriving DecidableEq, Repr

/-- A lock unit (R199): that of a cluster, or the global one. -/
inductive LockUnit where
  | cluster (c : BitVec 3)
  | complex
deriving DecidableEq, Repr

/-- A set that the deadlock rules examine (R214). -/
inductive DlSet where
  | cluster (c : BitVec 3)
  | group (g : BitVec 4)
deriving DecidableEq, Repr

/-- Who reaches a sequencer's trigger bits or capture FIFO: a thread through a port (R294), or a bus access. -/
inductive PortSrc where
  | thread (g : Tid)
  | bus (acc : Acc)
deriving DecidableEq, Repr

/-- A test read that does not return the pattern written (R196): the failing byte of the window and bit, or a check bit. -/
structure BadBit where
  byte : Byte
  bit : BitVec 3
  chk : Bool
deriving DecidableEq, Repr

/-- A frame as it crosses the medium boundary into an MBU: its octets from the first after the SFD through the FCS,
the raw stamp of R320, whether a coding error was seen, and after how many octets the receive FIFO overflowed. -/
structure Frame where
  octets : List Byte
  raw : DWord
  codeErr : Bool
  ovf : Option Nat
deriving DecidableEq, Repr

/-- The commands: one for each row of opcode_table.json, those that the block itself brings about first. -/
inductive Instr where
  /-- REGISTER_WRITE (R9). A host, Camin-port or mailbox write to a register that has no row of its own is judged field by field and takes effect by update class. -/
  | registerWrite (acc : Acc) (size : Size) (off : BitVec 20) (val : DWord)
  /-- POWER_ON_RESET (R366). A power-on reset puts Jomel in OFF and zeroes the memories with valid check bits. -/
  | powerOnReset
  /-- WARM_RESET (R366). A warm reset puts Jomel in OFF, keeps memory contents and wipes secure RAM without a report. -/
  | warmReset
  /-- POWER_REMOVAL (R17). Power removal puts the complex in OFF at once. -/
  | powerRemoval
  /-- INIT_COMPLETE (R368). Initialisation ends, Jomel signals ready and enters CONFIGURE with every unit in its initial state. -/
  | initComplete
  /-- HOLD_SETTLED (R22). Every thread has stopped and every sequencer is HELD, so HOLD_SETTLED becomes 1. -/
  | holdSettled
  /-- RETURN_FROM_HOLD (R23). At a D0 boundary the complex returns from HOLD, and threads and sequencers resume. -/
  | returnFromHold
  /-- ENTER_CONFIGURE (R21). Entry to CONFIGURE aborts uncommitted sheaves, halts threads with cause 6, stops sequencers and empties the FIFOs and queues. -/
  | enterConfigure
  /-- LEAVE_CONFIGURE (R62). Entry to REHEARSE or RUN from CONFIGURE resets slot pointers, starts AUTO threads and sequencers and places members in DOZING. -/
  | leaveConfigure
  /-- REHEARSE_RUN_SWITCH (R20). At a D0 boundary the complex changes between REHEARSE and RUN. -/
  | rehearseRunSwitch
  /-- ENTER_RETAIN (R347). Once accesses in flight have completed, the complex stops clocks and puts its rails into retention. -/
  | enterRetain
  /-- RETAIN_EXIT (R24). 4 µs after the request the complex returns to CONFIGURE, Commons time resumes and SYNC_LOST is reported. -/
  | retainExit
  /-- APERTURE_READ (R28). A host or Camin-port read of the memory aperture returns the version the rules name, or is refused. -/
  | apertureRead (acc : Acc) (size : Size) (off : BitVec 24)
  /-- APERTURE_WRITE (R29). A host or Camin-port write through the memory aperture is checked against the window and mode and is applied or refused. -/
  | apertureWrite (acc : Acc) (size : Size) (off : BitVec 24) (val : DWord)
  /-- SWATH_BOUNDARY (R53). A domain reaches its boundary time: the swath number advances, the ledger checks members and sheaves commit or abort. -/
  | swathBoundary (d : BitVec 2)
  /-- BUDGET_EXPIRY (R45). The cycle numbered BUDGET arrives while a member has not finished. -/
  | budgetExpiry (who : Member)
  /-- THREAD_STOP_AT_BOUNDARY (R384). A pending stop or halt takes effect when the thread's last issued instruction completes. -/
  | threadStopAtBoundary (g : Tid)
  /-- EVENT_ENTRY (R77). A thread with a pending event input takes a vectored entry into its handler in place of its next issue. -/
  | eventEntry (g : Tid)
  /-- DOZE_WAKE (R137). A thread's DOZE wake time is reached and the thread becomes READY. -/
  | dozeWake (g : Tid)
  /-- ICACHE_FILL (R69). An instruction-cache line fill completes, and the relaxed thread that missed becomes due. -/
  | icacheFill (g : Tid)
  /-- MOV (R110). Copies the source operand to the destination. -/
  | mov (g : Tid)
  /-- LDI (R85). Loads the sign-extended short immediate into the destination. -/
  | ldi (g : Tid)
  /-- SWAP (R119). Exchanges two operands. -/
  | swap (g : Tid)
  /-- CLR (R88). Writes 0 to the destination. -/
  | clr (g : Tid)
  /-- NOP (R112). Has no effect. -/
  | nop (g : Tid)
  /-- FLG_SET (R118). Sets the FLG bits named in the mask. -/
  | flgSet (g : Tid)
  /-- FLG_CLR (R118). Clears the FLG bits named in the mask. -/
  | flgClr (g : Tid)
  /-- SEXT (R118). Sign-extends a narrower source into the destination. -/
  | sext (g : Tid)
  /-- ZEXT (R118). Zero-extends a narrower source into the destination. -/
  | zext (g : Tid)
  /-- BSWAP (R112). Reverses the byte order of the source. -/
  | bswap (g : Tid)
  /-- LEA (R120). Writes the address that operand 2 forms, without accessing it. -/
  | lea (g : Tid)
  /-- SATN_S (R118). Clamps the source to a signed width. -/
  | satnS (g : Tid)
  /-- SATN_U (R118). Clamps the source to an unsigned width. -/
  | satnU (g : Tid)
  /-- ADD (R88). Adds two sources. -/
  | add (g : Tid)
  /-- ADDC (R121). Adds two sources and the carry. -/
  | addc (g : Tid)
  /-- SUB (R88). Subtracts the second source from the first. -/
  | sub (g : Tid)
  /-- SUBC (R121). Subtracts with borrow. -/
  | subc (g : Tid)
  /-- ADD_SS (R121). Signed saturating add. -/
  | addSs (g : Tid)
  /-- ADD_SU (R121). Unsigned saturating add. -/
  | addSu (g : Tid)
  /-- SUB_SS (R121). Signed saturating subtract. -/
  | subSs (g : Tid)
  /-- SUB_SU (R121). Unsigned subtract that saturates at 0. -/
  | subSu (g : Tid)
  /-- NEG (R121). Negates the source. -/
  | neg (g : Tid)
  /-- ABS (R121). Writes the absolute value of the source. -/
  | abs (g : Tid)
  /-- ADDI (R85). Adds the short immediate to the source. -/
  | addi (g : Tid)
  /-- CMP (R121). Sets the flags from a − b. -/
  | cmp (g : Tid)
  /-- CMN (R121). Sets the flags from a + b. -/
  | cmn (g : Tid)
  /-- CMPI (R121). Sets the flags from a minus the immediate. -/
  | cmpi (g : Tid)
  /-- MIN_S (R112). Writes the signed minimum. -/
  | minS (g : Tid)
  /-- MIN_U (R112). Writes the unsigned minimum. -/
  | minU (g : Tid)
  /-- MAX_S (R112). Writes the signed maximum. -/
  | maxS (g : Tid)
  /-- MAX_U (R112). Writes the unsigned maximum. -/
  | maxU (g : Tid)
  /-- AND (R88). Bitwise AND. -/
  | and (g : Tid)
  /-- OR (R88). Bitwise OR. -/
  | or (g : Tid)
  /-- XOR (R88). Bitwise exclusive OR. -/
  | xor (g : Tid)
  /-- ANDN (R88). a AND NOT b. -/
  | andn (g : Tid)
  /-- ORN (R88). a OR NOT b. -/
  | orn (g : Tid)
  /-- XNOR (R88). Bitwise exclusive NOR. -/
  | xnor (g : Tid)
  /-- NOT (R88). Bitwise complement. -/
  | not (g : Tid)
  /-- TST (R88). Sets the flags from a AND b. -/
  | tst (g : Tid)
  /-- ANDI (R85). AND with the immediate. -/
  | andi (g : Tid)
  /-- ORI (R85). OR with the immediate. -/
  | ori (g : Tid)
  /-- XORI (R85). Exclusive OR with the immediate. -/
  | xori (g : Tid)
  /-- TSTI (R85). Sets the flags from a AND the immediate. -/
  | tsti (g : Tid)
  /-- SHL (R122). Shifts left by a count. -/
  | shl (g : Tid)
  /-- SHR (R122). Logical shift right by a count. -/
  | shr (g : Tid)
  /-- SAR (R122). Arithmetic shift right by a count. -/
  | sar (g : Tid)
  /-- ROL (R122). Rotates left by a count. -/
  | rol (g : Tid)
  /-- ROR (R122). Rotates right by a count. -/
  | ror (g : Tid)
  /-- SHLI (R122). Shifts left by an immediate count. -/
  | shli (g : Tid)
  /-- SHRI (R122). Logical shift right by an immediate count. -/
  | shri (g : Tid)
  /-- SARI (R122). Arithmetic shift right by an immediate count. -/
  | sari (g : Tid)
  /-- ROLI (R122). Rotates left by an immediate count. -/
  | roli (g : Tid)
  /-- RORI (R122). Rotates right by an immediate count. -/
  | rori (g : Tid)
  /-- CLZ (R122). Counts leading zero bits. -/
  | clz (g : Tid)
  /-- CTZ (R122). Counts trailing zero bits. -/
  | ctz (g : Tid)
  /-- POPC (R112). Counts 1 bits. -/
  | popc (g : Tid)
  /-- BREV (R112). Reverses the bit order. -/
  | brev (g : Tid)
  /-- BSET (R85). Sets a bit at an immediate position. -/
  | bset (g : Tid)
  /-- BCLR (R85). Clears a bit at an immediate position. -/
  | bclr (g : Tid)
  /-- BTGL (R85). Inverts a bit at an immediate position. -/
  | btgl (g : Tid)
  /-- BTST (R85). Tests a bit at an immediate position into B. -/
  | btst (g : Tid)
  /-- BSETR (R112). Sets a bit at a register-given position. -/
  | bsetr (g : Tid)
  /-- BCLRR (R112). Clears a bit at a register-given position. -/
  | bclrr (g : Tid)
  /-- BTGLR (R112). Inverts a bit at a register-given position. -/
  | btglr (g : Tid)
  /-- BTSTR (R112). Tests a bit at a register-given position. -/
  | btstr (g : Tid)
  /-- BMOV (R123). Single-bit move. -/
  | bmov (g : Tid)
  /-- BNOT (R123). Single-bit complement. -/
  | bnot (g : Tid)
  /-- BAND (R123). Single-bit AND. -/
  | band (g : Tid)
  /-- BOR (R123). Single-bit OR. -/
  | bor (g : Tid)
  /-- BXOR (R123). Single-bit exclusive OR. -/
  | bxor (g : Tid)
  /-- BANDN (R123). Single-bit AND NOT. -/
  | bandn (g : Tid)
  /-- BLD (R123). Loads a single bit into B. -/
  | bld (g : Tid)
  /-- BSTF (R123). Stores B into a single bit. -/
  | bstf (g : Tid)
  /-- BFX_U (R124). Extracts a bit field, zero-extended. -/
  | bfxU (g : Tid)
  /-- BFX_S (R124). Extracts a bit field, sign-extended. -/
  | bfxS (g : Tid)
  /-- BFI (R124). Inserts low bits into a field of the destination. -/
  | bfi (g : Tid)
  /-- BFC (R124). Clears a field of the destination. -/
  | bfc (g : Tid)
  /-- B (R100). Branches to a PC-relative target. -/
  | b (g : Tid)
  /-- JMP (R125). Jumps to a target. -/
  | jmp (g : Tid)
  /-- CALL (R125). Stores the return address and jumps to the target. -/
  | call (g : Tid)
  /-- RET (R125). Returns to a target address. -/
  | ret (g : Tid)
  /-- RETE (R78). Returns from an event by loading PC and FLG from the save words. -/
  | rete (g : Tid)
  /-- CBR (R126). Compares two sources and branches if the test holds. -/
  | cbr (g : Tid)
  /-- DJNZ (R126). Decrements the destination and branches if it is not zero. -/
  | djnz (g : Tid)
  /-- BBS (R117). Branches if a bit is set. -/
  | bbs (g : Tid)
  /-- BBC (R117). Branches if a bit is clear. -/
  | bbc (g : Tid)
  /-- LOOP (R127). Sets up a hardware loop with a count read from an operand. -/
  | loop (g : Tid)
  /-- LOOPI (R127). Sets up a hardware loop with an immediate count. -/
  | loopi (g : Tid)
  /-- LBRK (R128). Leaves a hardware loop level at once. -/
  | lbrk (g : Tid)
  /-- MUL_U (R130). Unsigned multiply into P. -/
  | mulU (g : Tid)
  /-- MUL_S (R130). Signed multiply into P. -/
  | mulS (g : Tid)
  /-- MUL_L (R130). Writes the low 64 bits of a 64-bit product into P. -/
  | mulL (g : Tid)
  /-- MULH_U (R130). Writes the high 64 bits of an unsigned product into P. -/
  | mulhU (g : Tid)
  /-- MULH_S (R130). Writes the high 64 bits of a signed product into P. -/
  | mulhS (g : Tid)
  /-- MULD (R130). Multiplies into a destination and into P. -/
  | muld (g : Tid)
  /-- MAC_U (R153). Unsigned multiply-accumulate into ACC. -/
  | macU (g : Tid)
  /-- MAC_S (R153). Signed multiply-accumulate into ACC. -/
  | macS (g : Tid)
  /-- MSU_U (R153). Unsigned multiply-subtract from ACC. -/
  | msuU (g : Tid)
  /-- MSU_S (R153). Signed multiply-subtract from ACC. -/
  | msuS (g : Tid)
  /-- ACC_CLR (R153). Clears ACC. -/
  | accClr (g : Tid)
  /-- ACC_X (R131). Writes ACC shifted, rounded and saturated into the destination. -/
  | accX (g : Tid)
  /-- DIV_U (R132). Unsigned divide into Q and REM. -/
  | divU (g : Tid)
  /-- DIV_S (R132). Signed divide into Q and REM. -/
  | divS (g : Tid)
  /-- FADD (R158). Floating-point add. -/
  | fadd (g : Tid)
  /-- FSUB (R158). Floating-point subtract. -/
  | fsub (g : Tid)
  /-- FMUL (R158). Floating-point multiply. -/
  | fmul (g : Tid)
  /-- FDIV (R134). Floating-point divide. -/
  | fdiv (g : Tid)
  /-- FSQRT (R134). Floating-point square root. -/
  | fsqrt (g : Tid)
  /-- FMA (R158). Fused multiply-add with one rounding. -/
  | fma (g : Tid)
  /-- FMSUB (R158). Fused multiply-subtract with one rounding. -/
  | fmsub (g : Tid)
  /-- FMIN (R133). Writes minimumNumber of two sources. -/
  | fmin (g : Tid)
  /-- FMAX (R133). Writes maximumNumber of two sources. -/
  | fmax (g : Tid)
  /-- FNEG (R133). Inverts the sign bit. -/
  | fneg (g : Tid)
  /-- FABS (R133). Clears the sign bit. -/
  | fabs (g : Tid)
  /-- FCPYS (R133). Copies the sign of b onto a. -/
  | fcpys (g : Tid)
  /-- FCMP (R135). Quiet floating-point compare into FLG. -/
  | fcmp (g : Tid)
  /-- FCMP_S (R135). Signalling floating-point compare into FLG. -/
  | fcmpS (g : Tid)
  /-- FCLASS (R136). Writes the class bitmap of a source. -/
  | fclass (g : Tid)
  /-- FCVTF (R162). Converts between binary32 and binary64. -/
  | fcvtf (g : Tid)
  /-- FCVTI_S (R163). Converts floating point to a signed integer. -/
  | fcvtiS (g : Tid)
  /-- FCVTI_U (R163). Converts floating point to an unsigned integer. -/
  | fcvtiU (g : Tid)
  /-- ICVTF (R163). Converts an integer to floating point. -/
  | icvtf (g : Tid)
  /-- FRINT (R136). Rounds to an integral value. -/
  | frint (g : Tid)
  /-- DOZE (R137). Dozes the thread until an absolute Commons time. -/
  | doze (g : Tid)
  /-- SWATH_WAIT (R39). Ends the thread's swath work and puts it in DOZING until its domain's next boundary, or applies the overrun policy. -/
  | swathWait (g : Tid)
  /-- THR_START (R138). Starts another IDLE thread of the same core. -/
  | thrStart (g : Tid)
  /-- THR_END (R138). The thread enters IDLE. -/
  | thrEnd (g : Tid)
  /-- TCMP (R139). Modular time compare into the flags. -/
  | tcmp (g : Tid)
  /-- LOCK_TRY (R202). Tries to acquire a lock. -/
  | lockTry (g : Tid)
  /-- LOCK_REL (R202). Releases a lock that the thread holds. -/
  | lockRel (g : Tid)
  /-- WAIT (R204). Evaluates a declared wait target and completes or leaves the thread WAITING. -/
  | wait (g : Tid)
  /-- EVF_SET (R141). Sets a cluster event flag. -/
  | evfSet (g : Tid)
  /-- EVF_CLR (R141). Clears a cluster event flag. -/
  | evfClr (g : Tid)
  /-- EVF_TST (R205). Copies a cluster event flag into B. -/
  | evfTst (g : Tid)
  /-- CHW (R208). Writes a word to the thread's open message of a channel, opening one if needed. -/
  | chw (g : Tid)
  /-- CHE (R208). Closes the thread's open message. -/
  | che (g : Tid)
  /-- CHR (R208). Reads the next word of the head closed message. -/
  | chr (g : Tid)
  /-- CHD (R208). Discards the head closed message. -/
  | chd (g : Tid)
  /-- CHS (R208). Returns the channel status word. -/
  | chs (g : Tid)
  /-- FENCE_L (R181). Orders the thread's loads. -/
  | fenceL (g : Tid)
  /-- FENCE_S (R181). Orders the thread's stores. -/
  | fenceS (g : Tid)
  /-- FENCE_A (R181). Orders the thread's loads and stores. -/
  | fenceA (g : Tid)
  /-- FENCE_X (R181). Full fence that also awaits the complex-level acknowledgement. -/
  | fenceX (g : Tid)
  /-- SYNC (R72). Makes the settings that need SYNC take effect for the thread's next issue. -/
  | sync (g : Tid)
  /-- CACHE_INV (R142). Invalidates the core's instruction cache and BTB. -/
  | cacheInv (g : Tid)
  /-- SLOT_W (R143). Writes a slot-table entry. -/
  | slotW (g : Tid)
  /-- SHEAF_OPEN (R219). Opens a sheaf generation, or joins the open one. -/
  | sheafOpen (g : Tid)
  /-- SHEAF_JOIN (R219). Joins an open sheaf generation. -/
  | sheafJoin (g : Tid)
  /-- SHEAF_CLOSE (R219). Closes the thread's membership of a sheaf, and the generation becomes COMPLETE when all members have closed. -/
  | sheafClose (g : Tid)
  /-- SHEAF_STAT (R219). Returns a context's status word. -/
  | sheafStat (g : Tid)
  /-- PSQ_ACT (R282). Offers an action word to a sequencer, directly or held for a sheaf. -/
  | psqAct (g : Tid)
  /-- PIN_SET (R146). Sets a private output port bit. -/
  | pinSet (g : Tid)
  /-- PIN_CLR (R146). Clears a private output port bit. -/
  | pinClr (g : Tid)
  /-- PIN_TGL (R146). Inverts a private output port bit. -/
  | pinTgl (g : Tid)
  /-- POSTED_WRITE_PERFORM (R174). A posted shared or process-image write is performed in its bank's owned cycle. -/
  | postedWritePerform (n : BitVec 5)
  /-- STORE_BUFFER_DRAIN (R178). The oldest entry of a relaxed thread's store buffer drains. -/
  | storeBufferDrain (g : Tid)
  /-- SCRUB_WRITE (R190). A corrected granule is written back to its bank. -/
  | scrubWrite
  /-- MOVER_FLAG_START (R185). A mover triggered by its start flag starts its chain in the cycle after the flag is set. -/
  | moverFlagStart (m : BitVec 5)
  /-- MOVER_DESCRIPTOR_DONE (R186). A mover finishes copying one descriptor and takes the next. -/
  | moverDescriptorDone (m : BitVec 5)
  /-- MOVER_CHAIN_COMPLETE (R187). A mover completes its chain, increments MDONE, clears BUSY and sets DFLAG. -/
  | moverChainComplete (m : BitVec 5)
  /-- GLEANER_COPY (R193). The Gleaner copies a window into its shadow. -/
  | gleanerCopy
  /-- GLEANER_TEST (R193). The Gleaner writes and reads back test patterns in a window. -/
  | gleanerTest (bad : Option BadBit)
  /-- GLEANER_RESTORE (R193). The Gleaner writes the shadow back to the window. -/
  | gleanerRestore
  /-- GLEANER_RETRY (R195). 1,024 cycles after a yield, the Gleaner retries the window. -/
  | gleanerRetry
  /-- TAMPER_INPUT (R198). Assertion of the chip's tamper input starts the secure wipe. -/
  | tamperInput
  /-- WIPE_COMPLETE (R198). The secure wipe completes. -/
  | wipeComplete
  /-- DEADLOCK (R215). The global lock unit examines a set whose deadlock rule holds and reports it. -/
  | deadlock (set : DlSet)
  /-- COMMIT_COMPLETE (R233). The sheaf unit completes a commit by cycle 150, setting version bits and delivering held actions. -/
  | commitComplete
  /-- SLEW_UNIT (R248). SLEWPER cycles pass and one slew unit is applied. -/
  | slewUnit
  /-- WATCHDOG_EXPIRY (R253). WDPER passes without a touch while LOCKED. -/
  | watchdogExpiry
  /-- SERVO_MAILBOX_COMMAND (R255). Setting SFLAG starts a mailbox command that performs a register access and sets DFLAG. -/
  | servoMailboxCommand
  /-- TIMER_FIRE (R258). A channel reaches NEXT and fires, updating LAST, LEVEL, its flag and its count. -/
  | timerFire (ch : BitVec 5)
  /-- PSQ_SET (R277). Sets lane output values at a phase. -/
  | psqSet (q : BitVec 6)
  /-- PSQ_TGL (R277). Inverts lane output values at a phase. -/
  | psqTgl (q : BitVec 6)
  /-- PSQ_OE (R277). Sets lane output enables at a phase. -/
  | psqOe (q : BitVec 6)
  /-- PSQ_OUTB (R285). Shifts the next bit out to a lane, or stalls. -/
  | psqOutb (q : BitVec 6)
  /-- PSQ_INB (R285). Samples a lane into a shift register, or stalls. -/
  | psqInb (q : BitVec 6)
  /-- SHIFT_STALL_RELEASE (R286). A stalled OUTB or INB completes once a port access readies its register. -/
  | shiftStallRelease (q : BitVec 6)
  /-- PSQ_DLY (R277). Delays the next instruction by CNT cycles. -/
  | psqDly (q : BitVec 6)
  /-- PSQ_DLY_EXPIRY (R277). A DLY count expires and the next instruction executes. -/
  | psqDlyExpiry (q : BitVec 6)
  /-- PSQ_WLVL (R277). Waits for a filtered lane level. -/
  | psqWlvl (q : BitVec 6)
  /-- PSQ_WEDG (R277). Waits for a recognised lane edge. -/
  | psqWedg (q : BitVec 6)
  /-- PSQ_WCNT (R277). Waits for a counter wrap. -/
  | psqWcnt (q : BitVec 6)
  /-- PSQ_WTRG (R277). Waits for a trigger bit and clears it. -/
  | psqWtrg (q : BitVec 6)
  /-- PSQ_SIG (R277). Sets a cluster event flag. -/
  | psqSig (q : BitVec 6)
  /-- PSQ_LDV (R277). Loads a value register. -/
  | psqLdv (q : BitVec 6)
  /-- PSQ_DJNZ (R277). Decrements a value register and branches if it is not zero. -/
  | psqDjnz (q : BitVec 6)
  /-- PSQ_JMP (R277). Sequencer jump. -/
  | psqJmp (q : BitVec 6)
  /-- PSQ_BLV (R277). Branches on a filtered lane level. -/
  | psqBlv (q : BitVec 6)
  /-- PSQ_CNTC (R277). Stops, runs or resets a period counter. -/
  | psqCntc (q : BitVec 6)
  /-- PSQ_RARM (R277). Arms or disarms a reflex pair. -/
  | psqRarm (q : BitVec 6)
  /-- PSQ_END (R277). Stops the sequencer and optionally sets a flag. -/
  | psqEnd (q : BitVec 6)
  /-- ACTION_LEVEL (R283). A LEVEL action reaches its time and sets lane output values. -/
  | actionLevel (q : BitVec 6)
  /-- ACTION_DRIVE (R283). A DRIVE action reaches its time and sets lane output enables. -/
  | actionDrive (q : BitVec 6)
  /-- ACTION_TRIG (R283). A TRIG action reaches its time and sets a trigger bit. -/
  | actionTrig (q : BitVec 6)
  /-- ACTION_LOAD (R283). A LOAD action reaches its time and writes a value register. -/
  | actionLoad (q : BitVec 6)
  /-- TRIGGER_BITS_SET (R295). A port 3 or PSQ_TRIG write sets trigger bits. -/
  | triggerBitsSet (src : PortSrc) (q : BitVec 6) (mask : Byte)
  /-- CAPTURE_FIFO_READ (R292). A port or PSQ_CAP_LO read returns and pops a lane's head capture. -/
  | captureFifoRead (src : PortSrc) (q : BitVec 6) (l : BitVec 3)
  /-- LANE_EDGE (R268). A lane's input level changes between phase-7 samples. -/
  | laneEdge (p : Byte) (lvl : Bool) (ph : BitVec 3)
  /-- EDGE_RECOGNISED (R269). An edge that has held through its filter cycles is recognised. -/
  | edgeRecognised (q : BitVec 6) (l : BitVec 3)
  /-- REFLEX_FIRE (R293). Three cycles after a matching raw edge, a reflex pair changes its output lane. -/
  | reflexFire (q : BitVec 6) (r : BitVec 2)
  /-- COUNTER_TICK (R287). A TIMER-mode counter ticks every 2^PRE cycles. -/
  | counterTick (q : BitVec 6) (k : BitVec 1)
  /-- PARK_END (R304). Two cycles after an active-user change, the new user takes the pin. -/
  | parkEnd (p : Byte)
  /-- TDR_COMPLETE (R310). A pin measurement completes and writes CPX_TDRRES. -/
  | tdrComplete (fail : Bool) (pol : Bool) (rt : BitVec 11)
  /-- LINK_UP (R317). An MBU link comes up. -/
  | linkUp (m : BitVec 4) (ifu : BitVec 3) (spu : BitVec 2) (sdtx : Half) (sdrx : Half)
  /-- FRAME_RECEIVE (R323). A received frame is written to the receive ring with its header, or dropped. -/
  | frameReceive (m : BitVec 4) (fr : Frame)
  /-- FORWARD_LAUNCH (R332). A received frame is sent cut-through by the partner MBU FLAT after ingress. -/
  | forwardLaunch (m : BitVec 4) (raw : DWord)
  /-- DOORBELL (R327). The doorbell flag is taken and the queue's head descriptor is read. -/
  | doorbell (m : BitVec 4)
  /-- DESCRIPTOR_LOAD (R327). A head descriptor is checked, loaded and its frame fetched into the transmit FIFO. -/
  | descriptorLoad (m : BitVec 4) (j : BitVec 6)
  /-- FRAME_LAUNCH (R329). A loaded head is sent at its launch granule, or discarded. -/
  | frameLaunch (m : BitVec 4) (j : BitVec 6) (raw : DWord)
  /-- TRANSMIT_COMPLETE (R331). A descriptor is finished: results are written, HEAD advances and CFLAG is set. -/
  | transmitComplete (m : BitVec 4) (j : BitVec 6)
  /-- MBU_TDR_COMPLETE (R339). A SerDes measurement completes and writes MBU_TDRRES. -/
  | mbuTdrComplete (m : BitVec 4) (fail : Bool) (pol : Bool) (rt : BitVec 11)
  /-- DOZE_ENTER (R344). The planner puts a core in the deepest allowed doze state. -/
  | dozeEnter (n : BitVec 5)
  /-- WAKE_START (R344). At E − W − 100 ns the core begins its wake. -/
  | wakeStart (n : BitVec 5)
  /-- WAKE_COMPLETE (R340). A core's wake delay ends and the core is in RUN. -/
  | wakeComplete (n : BitVec 5)
  /-- SUPPLY_SAMPLE (R348). A supply monitor takes its 1 µs sample. -/
  | supplySample (r : BitVec 4) (mv : Half)
  /-- FAULT_REPORT (R351). The fault unit records a report in its log. -/
  | faultReport
  /-- STANDING_ORDER_EXECUTE (R362). The earliest pending order executes its steps in order. -/
  | standingOrderExecute
  /-- BREAKPOINT_HIT (R377). A thread about to issue at a breakpoint address is halted with cause 2. -/
  | breakpointHit (g : Tid)
  /-- RESET_RELEASE (R366). Release of the chip reset ends OFF held in reset and starts initialisation, which for a power-on reset zeroes the memories. -/
  | resetRelease (good : Bool)
  /-- MODE_REQ_CONFIGURE (R17). A CPX_CTL request for CONFIGURE is checked against Table 11 and made pending or refused. -/
  | modeReqConfigure (acc : Acc)
  /-- MODE_REQ_REHEARSE (R17). A CPX_CTL request for REHEARSE is made pending until the next D0 boundary, or refused. -/
  | modeReqRehearse (acc : Acc)
  /-- MODE_REQ_RUN (R17). A CPX_CTL request for RUN is made pending until the next D0 boundary, or refused. -/
  | modeReqRun (acc : Acc)
  /-- MODE_REQ_RETAIN (R17). A CPX_CTL request for RETAIN from CONFIGURE is made pending until accesses in flight complete. -/
  | modeReqRetain (acc : Acc)
  /-- MODE_REQ_HOLD (R19). A request for HOLD from REHEARSE or RUN cancels any pending request and puts the complex in HOLD at once. -/
  | modeReqHold (acc : Acc)
  /-- DOMAIN_ENABLE (R32). Writing SWD_CTL.EN from 0 to 1 fixes the domain's first boundary time and swath number. -/
  | domainEnable (acc : Acc) (d : BitVec 2) (grace : Bool)
  /-- DOMAIN_DISABLE (R36). Writing SWD_CTL.EN from 1 to 0 in CONFIGURE stops the domain's boundaries. -/
  | domainDisable (acc : Acc) (d : BitVec 2) (grace : Bool)
  /-- CORE_TCMD_START (R61). The START command makes an IDLE thread READY at CORE_PC(t). -/
  | coreTcmdStart (acc : Acc) (g : Tid)
  /-- CORE_TCMD_STOP (R61). The STOP command sends a thread that is not IDLE to IDLE. -/
  | coreTcmdStop (acc : Acc) (g : Tid)
  /-- CORE_TCMD_CLEAR (R61). The CLEAR command returns a FAULTED thread to IDLE. -/
  | coreTcmdClear (acc : Acc) (g : Tid)
  /-- LIFECYCLE_CHANGE (R198). A change of the chip's lifecycle state starts the secure wipe. -/
  | lifecycleChange
  /-- LOCK_RELEASE_HOST (R203). A write of CLK_LKREL or GLK_LKREL frees a lock. -/
  | lockReleaseHost (acc : Acc) (u : LockUnit) (lock : BitVec 9)
  /-- EVENT_FLAG_SET_HOST (R205). A write of CLK_EVSET sets event flags. -/
  | eventFlagSetHost (acc : Acc) (c : BitVec 3) (w : BitVec 3) (mask : Word)
  /-- EVENT_FLAG_CLEAR_HOST (R205). A write of CLK_EVCLR clears event flags. -/
  | eventFlagClearHost (acc : Acc) (c : BitVec 3) (w : BitVec 3) (mask : Word)
  /-- FORCE_CLOSE (R212). The FORCE_CLOSE command closes a halted or abandoned open message as TRUNCATED. -/
  | forceClose (acc : Acc) (u : LockUnit) (ch : BitVec 7)
  /-- DISCARD (R212). The DISCARD command removes a halted or abandoned open message. -/
  | discard (acc : Acc) (u : LockUnit) (ch : BitVec 7)
  /-- CHANNEL_RESET (R212). The RESET command removes every message and reservation of a channel in CONFIGURE. -/
  | channelReset (acc : Acc) (u : LockUnit) (ch : BitVec 7)
  /-- COMMONS_TIME_WRITE (R252). A committed write of CMN_TIME sets Commons time and acts as a step. -/
  | commonsTimeWrite (acc : Acc) (val : DWord)
  /-- WIDE_READ_LOW (R245). A low-word read of a 64-bit value loads the path's latch with the high word. -/
  | wideReadLow (acc : Acc) (size : Size) (off : BitVec 20)
  /-- RATE_ADJUST_WRITE (R247). A write of CMN_RADJ changes the Commons rate. -/
  | rateAdjustWrite (acc : Acc) (val : Word)
  /-- SLEW_WRITE (R248). A write of CMN_SLEW sets the slew remainder. -/
  | slewWrite (acc : Acc) (val : Word)
  /-- STEP_REQUEST (R249). A write of CMN_STEP requests a step, which is accepted or refused against LIM. -/
  | stepRequest (acc : Acc) (val : Word)
  /-- TIMER_ENABLE (R257). Writing TMR_CTL.EN from 0 to 1 arms the channel. -/
  | timerEnable (acc : Acc) (ch : BitVec 5) (ctl : Word)
  /-- TIMER_COMPARE_WRITE (R259). A committed CMP write sets NEXT. -/
  | timerCompareWrite (acc : Acc) (ch : BitVec 5) (val : DWord)
  /-- TIMER_INTERVAL_WRITE (R259). A committed IVL write sets the interval and reschedules NEXT. -/
  | timerIntervalWrite (acc : Acc) (ch : BitVec 5) (val : DWord)
  /-- TIMER_TRIGGER_GO (R262). A write of TMR_TRIG.GO triggers a capture. -/
  | timerTriggerGo (acc : Acc) (ch : BitVec 5)
  /-- TIMER_CAPTURE_READ (R263). A read of TMR_CAP_LO returns and pops the head capture. -/
  | timerCaptureRead (acc : Acc) (size : Size) (ch : BitVec 5)
  /-- PSQ_START (R271). The START command starts a STOPPED sequencer at ENTRY. -/
  | psqStart (acc : Acc) (q : BitVec 6)
  /-- PSQ_STOP (R272). The STOP command stops a sequencer. -/
  | psqStop (acc : Acc) (q : BitVec 6)
  /-- PROGRAM_RAM_WRITE (R273). A write of PSQ_PDATA stores a program word and increments PSQ_PADDR, or is refused. -/
  | programRamWrite (acc : Acc) (q : BitVec 6) (val : Word)
  /-- PROGRAM_RAM_READ (R273). A read of PSQ_PDATA returns the program word and increments PSQ_PADDR. -/
  | programRamRead (acc : Acc) (q : BitVec 6)
  /-- ACTION_OFFER_HOST (R282). A host or Camin-port write of PSQ_ACT_HI offers an action to the FIFO. -/
  | actionOfferHost (acc : Acc) (q : BitVec 6) (act : DWord)
  /-- SHIFT_REGISTER_WRITE (R285). A port write loads an out-direction shift register. -/
  | shiftRegisterWrite (g : Tid) (q : BitVec 6) (k : BitVec 1) (val : DWord)
  /-- SHIFT_REGISTER_READ (R285). A port read returns shift register data and clears a full in-direction register. -/
  | shiftRegisterRead (g : Tid) (q : BitVec 6) (k : BitVec 1)
  /-- VALUE_SET_PORT (R290). A port 7 write sets a value register. -/
  | valueSetPort (g : Tid) (q : BitVec 6) (val : Word)
  /-- PIN_CONFIG_WRITE (R301). A write of HDG_CFG sets owner and electrical options, subject to owner checks. -/
  | pinConfigWrite (acc : Acc) (p : Byte) (val : Word)
  /-- PIN_SLOT_WRITE (R303). A write of HDG_SLOTA or HDG_SLOTB sets slot users and enables, live or at the next boundary. -/
  | pinSlotWrite (acc : Acc) (p : Byte) (hi : Bool) (val : Word)
  /-- LOAD_SENSE_FINDING (R309). After 64 cycles or 8 changes the load-sensing finding changes. -/
  | loadSenseFinding (p : Byte) (f : BitVec 2)
  /-- TDR_START (R310). A write of CPX_TDRCTL.GO starts a pin reflectometry measurement. -/
  | tdrStart (acc : Acc) (p : Byte)
  /-- LINK_DOWN (R317). An MBU link goes down. -/
  | linkDown (m : BitVec 4)
  /-- PROBE_TIMEOUT (R318). A PROBE coding attempt reaches 2 ms without synchronisation and the next coding is tried. -/
  | probeTimeout (m : BitVec 4)
  /-- AN_RESTART (R319). A write of RESTART = 1 restarts auto-negotiation. -/
  | anRestart (acc : Acc) (m : BitVec 4) (anen : Bool) (adv : Half)
  /-- AN_COMPLETE (R319). Auto-negotiation completes and the partner page is recorded. -/
  | anComplete (m : BitVec 4) (page : Half)
  /-- QUEUE_ENABLE (R327). Writing a flow queue's EN from 0 to 1 resets HEAD and reads the head descriptor. -/
  | queueEnable (acc : Acc) (m : BitVec 4) (j : BitVec 6) (cfg : Word)
  /-- QUEUE_STOP (R328). Clearing a flow queue's EN discards its loaded and owned descriptors. -/
  | queueStop (acc : Acc) (m : BitVec 4) (j : BitVec 6)
  /-- MBU_TDR_START (R339). A write of MBU_TDRCTL.GO starts a SerDes pair measurement. -/
  | mbuTdrStart (acc : Acc) (m : BitVec 4)
  /-- ORDER_ARM (R359). Writing SOR_CTL.ARM to 1 arms an order, or is refused. -/
  | orderArm (acc : Acc) (o : BitVec 5) (ctl : Word)
  /-- ORDER_DISARM (R359). Clearing ARM disarms an order and cancels a pending execution. -/
  | orderDisarm (acc : Acc) (o : BitVec 5)
  /-- FAULT_LOG_POP (R356). A write of FLT_POP with the head's SEQ removes the head record. -/
  | faultLogPop (acc : Acc) (seq : Half)
  /-- DEBUG_HALT (R373). The HALT command halts a thread with cause 1. -/
  | debugHalt (acc : Acc) (g : Tid)
  /-- DEBUG_RESUME (R373). The RESUME command returns a halted thread to its PRIOR state. -/
  | debugResume (acc : Acc) (g : Tid)
  /-- DEBUG_STEP (R374). The STEP command lets a halted thread make exactly one issue. -/
  | debugStep (acc : Acc) (g : Tid)
  /-- DEBUG_REGISTER_WRITE (R379). A committed CORE_DSRD write sets a stopped thread's special register. -/
  | debugRegisterWrite (acc : Acc) (n : BitVec 5) (val : DWord)
  /-- GLOBAL_CHANNEL_PEEK (R380). A Camin-port read of CPX_GCHDATA returns a global channel word. -/
  | globalChannelPeek (acc : Acc)
  /-- MBU_ENABLE (R339). Writing MBU_CTL.EN from 0 to 1 sets RXHEAD to 0 and abandons a SerDes measurement in progress with FAIL = 1 and RT = 0. -/
  | mbuEnable (acc : Acc) (m : BitVec 4) (ctl : Word)
deriving DecidableEq, Repr

end Sys2Proof
end

