-- ==== Sys2Proof/Decode.lean ====
section
/-! DEFINITION. The commands that a word spells: opcode_table.json gives no row of this block any bits. -/
namespace Sys2Proof

/-- No row of the table has bits, so no word spells a command (log 2). -/
def decodeTableWord (_nbits _w : Nat) : Option Instr := none

end Sys2Proof
end

