-- ==== Sys2Proof/Machine/Bits.lean ====
section
/-! DEFINITION. Bit fields, byte order (R3), comparisons modulo the width (R6) and saturating counts. -/
namespace Sys2Proof.Machine

/-- Bits [hi:lo] of a number. -/
def natFld (n hi lo : Nat) : Nat := (n >>> lo) % 2 ^ (hi + 1 - lo)

/-- Field [hi:lo] of a word. -/
def fld (w : Word) (hi lo : Nat) : Nat := natFld w.toNat hi lo

/-- Bit `i` of a word. -/
def bit (w : Word) (i : Nat) : Bool := w.getLsbD i

/-- The mask of field [hi:lo]. -/
def fldMask (hi lo : Nat) : Word := BitVec.ofNat 32 ((2 ^ (hi + 1 - lo) - 1) <<< lo)

/-- The word with field [hi:lo] set to `v`. -/
def setFld (w : Word) (hi lo : Nat) (v : Nat) : Word :=
  (w &&& ~~~ (fldMask hi lo)) ||| (BitVec.ofNat 32 (v <<< lo) &&& fldMask hi lo)

/-- The word with bit `i` set to `b`. -/
def setBit (w : Word) (i : Nat) (b : Bool) : Word := setFld w i i b.toNat

/-- A Boolean as 0 or 1. -/
def b2n (b : Bool) : Nat := if b then 1 else 0

/-- The low word of a double-word. -/
def lo32 (d : DWord) : Word := d.setWidth 32
/-- The high word of a double-word. -/
def hi32 (d : DWord) : Word := (d >>> 32).setWidth 32
/-- A double-word from its high and low words. -/
def mk64 (hi lo : Word) : DWord := (hi.setWidth 64 <<< 32) ||| lo.setWidth 64

/-- `a` is at or after `b` in comparison modulo the width (R6). -/
def atOrAfter {n : Nat} (a b : BitVec n) : Bool := !(a - b).msb

/-- `a` is after `b` (R6). -/
def after {n : Nat} (a b : BitVec n) : Bool := atOrAfter a b && a != b

/-- Counts that stop at their highest value. -/
def satAdd (w : Word) (k : Nat) : Word :=
  if w.toNat + k ≥ 0xFFFFFFFF then 0xFFFFFFFF else BitVec.ofNat 32 (w.toNat + k)

/-- A saturating count held in field [hi:lo]. -/
def satFld (w : Word) (hi lo k : Nat) : Word :=
  setFld w hi lo (min (fld w hi lo + k) (2 ^ (hi + 1 - lo) - 1))

/-- The `n` low bytes of a number, the lowest first (R3). -/
def toBytes : Nat → Nat → List Byte
  | 0, _ => []
  | n + 1, v => BitVec.ofNat 8 v :: toBytes n (v >>> 8)

/-- The number that bytes spell, the lowest first (R3). -/
def ofBytes : List Byte → Nat
  | [] => 0
  | b :: r => b.toNat + 256 * ofBytes r

/-- The two's-complement value of the low `n` bits of a number. -/
def signed (n v : Nat) : Int :=
  let u := v % 2 ^ n
  if u < 2 ^ (n - 1) then (u : Int) else (u : Int) - (2 ^ n : Nat)

/-- An integer modulo 2^n. -/
def wrap (n : Nat) (i : Int) : Nat := (i % ((2 ^ n : Nat) : Int)).toNat

/-- Number of 1 bits among the low `n` bits. -/
def popCount : Nat → Nat → Nat
  | 0, _ => 0
  | n + 1, v => v % 2 + popCount n (v >>> 1)

/-- `[0, 1, …, n - 1]` in rising order; structural, for the kernel. -/
def upto (n : Nat) : List Nat := List.range n

/-- Indexes below `n` at which `p` holds, rising. -/
def idxs (n : Nat) (p : Nat → Bool) : List Nat := (List.range n).filter p

end Sys2Proof.Machine
end

