-- ==== Sys2Proof/Machine/Tab.lean ====
section
/-! DEFINITION. Sparse tables: the one form in which the state holds its large indexed families.
A table lists (key, value) pairs with strictly rising keys and lists no pair whose value is what an unlisted key reads
as, so that equal contents are equal data. -/
namespace Sys2Proof.Machine

/-- A sparse table: what key `k` holds is its listed value, or a default that the reader names. -/
abbrev Tab (α : Type) := List (Nat × α)

/-- The value of key `k`, where an unlisted key reads as `d k`. -/
def Tab.get {α : Type} (d : Nat → α) : Tab α → Nat → α
  | [], k => d k
  | (j, v) :: r, k => if k = j then v else Tab.get d r k

/-- The pairs but that of key `k`. -/
def Tab.erase {α : Type} : Tab α → Nat → Tab α
  | [], _ => []
  | (j, v) :: r, k => if k = j then Tab.erase r k else (j, v) :: Tab.erase r k

/-- A pair put where its key belongs. -/
def Tab.insert {α : Type} : Tab α → Nat → α → Tab α
  | [], k, v => [(k, v)]
  | (j, w) :: r, k, v => if k < j then (k, v) :: (j, w) :: r else (j, w) :: Tab.insert r k v

/-- Key `k` takes the value `v`; a value equal to the default is not listed. -/
def Tab.put {α : Type} [DecidableEq α] (d : Nat → α) (t : Tab α) (k : Nat) (v : α) : Tab α :=
  if v = d k then t.erase k else (t.erase k).insert k v

/-- Keys strictly above `lo`, strictly rising, and no value that is the default. -/
def Tab.wfFrom {α : Type} [DecidableEq α] (d : Nat → α) : Option Nat → Tab α → Bool
  | _, [] => true
  | lo, (j, v) :: r =>
    (match lo with | none => true | some l => decide (l < j)) && decide (v ≠ d j) && Tab.wfFrom d (some j) r

/-- The canonical form. -/
def Tab.wf {α : Type} [DecidableEq α] (d : Nat → α) (t : Tab α) : Bool := Tab.wfFrom d none t

end Sys2Proof.Machine
end

