-- ==== Sys2Proof/Machine/Regs.lean ====
section
/-! DEFINITION. The host register window (R27, Tables 13, 14): every register of the unit chapters with its offset and its fields. -/
namespace Sys2Proof.Machine

/-- Access codes (R7, Table 3). -/
inductive Access where
  | rw | ro | wo | w1c | w1s
deriving DecidableEq, Repr

/-- Update classes (R9, Table 4). -/
inductive Cls where
  | live | tick | stopped
deriving DecidableEq, Repr

/-- One field of a register table; bits that no field covers are reserved. -/
structure Fld where
  hi : Nat
  lo : Nat
  acc : Access
  cls : Cls
  rst : Nat
deriving DecidableEq, Repr

/-- A register of the window; `h` is 0 for a `_LO` word and 1 for a `_HI` word (0 for SLOTA, 1 for SLOTB). -/
inductive Reg where
  | fastLast (d : Nat)
  | cpxCtl
  | cpxStat
  | cpxId
  | cpxAwin (w : Nat)
  | cpxEccnt (r : Nat)
  | cpxUerec
  | cpxGctl
  | cpxGstat
  | cpxGyield
  | cpxGfail
  | cpxEinj
  | cpxSwipe
  | cpxTdrctl
  | cpxTdrres
  | cpxGchsel
  | cpxGchdata
  | swdCtl (d : Nat)
  | swdPeriod (d : Nat)
  | swdStart (d h : Nat)
  | swdNumbase (d : Nat)
  | swdNum (d : Nat)
  | swdBtime (d h : Nat)
  | swdStat (d : Nat)
  | ldgMbud (m : Nat)
  | ldgLstat (d : Nat)
  | ldgLswn (d : Nat)
  | ldgLatecnt (d : Nat)
  | ldgGracecnt (d : Nat)
  | ldgSkipcnt (d : Nat)
  | ldgWorst (d : Nat)
  | ldgWorstt (d : Nat)
  | ldgTabid (d : Nat)
  | ldgLmap (d w : Nat)
  | ldgTbud (g : Nat)
  | cmnTime (h : Nat)
  | cmnEra
  | cmnLera
  | cmnIncf
  | cmnInci
  | cmnRadj
  | cmnSlew
  | cmnSlewper
  | cmnStep
  | cmnSteplim
  | cmnStat
  | cmnSync
  | cmnSrv
  | cmnStepcnt
  | tmrCtl (ch : Nat)
  | tmrStat (ch : Nat)
  | tmrCmp (ch h : Nat)
  | tmrIvl (ch h : Nat)
  | tmrLast (ch h : Nat)
  | tmrCap (ch h : Nat)
  | tmrTrig (ch : Nat)
  | tmrFires (ch : Nat)
  | fltStat
  | fltRec0
  | fltRda
  | fltRdb
  | fltRtime (h : Nat)
  | fltRseq
  | fltPop
  | fltCfgrej
  | fltCfgadr
  | fltCnt (k : Nat)
  | sorPend
  | sorCtl (o : Nat)
  | sorSrc (o : Nat)
  | sorAct (o : Nat)
  | sorPmov (o : Nat)
  | sorPins (o w : Nat)
  | sorStat (o : Nat)
  | sorXtime (o h : Nat)
  | pwrDzcfg (n : Nat)
  | pwrDzstat (n : Nat)
  | pwrDzcnt (n k : Nat)
  | pwrSmcfg (r : Nat)
  | pwrSmthr (r : Nat)
  | pwrSmval (r : Nat)
  | pwrSmext (r : Nat)
  | hdgCfg (p : Nat)
  | hdgSlot (p h : Nat)
  | hdgIo (p : Nat)
  | shfCtx (x : Nat)
  | shfCst (x : Nat)
  | shfCres (x : Nat)
  | shfStat
  | shfCnt (k : Nat)
  | shfWsweep
  | glkDlstat
  | glkDlcnt
  | glkLkrel
  | glkChcmd
  | glkDlmap (w : Nat)
  | glkChstat (ch : Nat)
  | glkWgmap (g w : Nat)
  | glkLock (l : Nat)
  | mbuCtl (m : Nat)
  | mbuLink (m : Nat)
  | mbuRxcfg (m : Nat)
  | mbuRxbase (m : Nat)
  | mbuRxhead (m : Nat)
  | mbuIlat (m : Nat)
  | mbuElat (m : Nat)
  | mbuAsym (m : Nat)
  | mbuSdlat (m : Nat)
  | mbuFwd (m : Nat)
  | mbuAn (m : Nat)
  | mbuLp (m : Nat)
  | mbuTdrctl (m : Nat)
  | mbuTdrres (m : Nat)
  | mbuCnt (m k : Nat)
  | mbuSplCtl (m e : Nat)
  | mbuSplAddr (m e : Nat)
  | mbuSplMval (m e : Nat)
  | mbuSplMmask (m e : Nat)
  | mbuFqcfg (m j : Nat)
  | mbuFqst (m j : Nat)
  | coreStat (n : Nat)
  | coreIcbase (n : Nat)
  | coreEmpty (n : Nat)
  | coreSpillcnt (n : Nat)
  | coreTcmd (n : Nat)
  | coreSlot (n e : Nat)
  | coreTctl (n t : Nat)
  | coreTstat (n t : Nat)
  | corePc (n t : Nat)
  | coreWin (n t : Nat)
  | coreEvv (n t : Nat)
  | coreEvsel (n t : Nat)
  | coreEvcfg (n t : Nat)
  | coreTfault (n t : Nat)
  | coreTfpc (n t : Nat)
  | coreTissue (n t : Nat)
  | coreTsbstall (n t : Nat)
  | coreDbgcmd (n : Nat)
  | coreDsr (n : Nat)
  | coreDsrd (n h : Nat)
  | coreBpc (n b : Nat)
  | coreBpa (n b : Nat)
  | coreHcause (n t : Nat)
  | psqCtl (q : Nat)
  | psqCmd (q : Nat)
  | psqStat (q : Nat)
  | psqPc (q : Nat)
  | psqFlt (q : Nat)
  | psqTrig (q : Nat)
  | psqPaddr (q : Nat)
  | psqPdata (q : Nat)
  | psqActLo (q : Nat)
  | psqActHi (q : Nat)
  | psqAst (q : Nat)
  | psqAcnt (q : Nat)
  | psqAexec (q : Nat)
  | psqEcc (q : Nat)
  | psqRfx (q r : Nat)
  | psqCnt (q k : Nat)
  | psqCntv (q : Nat)
  | psqV (q v : Nat)
  | psqShcfg (q k : Nat)
  | psqSh (q k h : Nat)
  | psqLcfg (q l : Nat)
  | psqCap (q l h : Nat)
  | psqCapst (q l : Nat)
  | clkEvf (c w : Nat)
  | clkEvset (c w : Nat)
  | clkEvclr (c w : Nat)
  | clkEvthr (c w : Nat)
  | clkLkrel (c : Nat)
  | clkChcmd (c : Nat)
  | clkChstat (c ch : Nat)
  | clkLock (c l : Nat)
  | clkChdata (c ch w : Nat)
deriving DecidableEq, Repr

/-- The offset of core `n` (Table 14). -/
def coreBase (n : Nat) : Nat := 0x20000 + 0x10000 * (n / 4) + 0x1000 * (n % 4)
/-- The offset of sequencer `q` (Table 14). -/
def psqBase (q : Nat) : Nat := 0x28000 + 0x10000 * (q / 8) + 0x400 * (q % 8)
/-- The offset of the lock unit of cluster `c` (Table 14). -/
def clkBase (c : Nat) : Nat := 0x2C000 + 0x10000 * c
/-- The offset of MBU `m` (Table 13). -/
def mbuBase (m : Nat) : Nat := 0x10000 + 0x1000 * m

/-- The window offset of a register. -/
def Reg.off : Reg → Nat
  | .fastLast d => 0x20 + 0x4 * d
  | .cpxCtl => 0x100
  | .cpxStat => 0x104
  | .cpxId => 0x108
  | .cpxAwin w => 0x110 + 0x4 * w
  | .cpxEccnt r => 0x200 + 0x4 * r
  | .cpxUerec => 0x220
  | .cpxGctl => 0x230
  | .cpxGstat => 0x234
  | .cpxGyield => 0x238
  | .cpxGfail => 0x23C
  | .cpxEinj => 0x244
  | .cpxSwipe => 0x248
  | .cpxTdrctl => 0x300
  | .cpxTdrres => 0x304
  | .cpxGchsel => 0x410
  | .cpxGchdata => 0x414
  | .swdCtl d => 0x1000 + 0x40 * d
  | .swdPeriod d => 0x1004 + 0x40 * d
  | .swdStart d h => 0x1008 + 0x40 * d + 0x4 * h
  | .swdNumbase d => 0x1010 + 0x40 * d
  | .swdNum d => 0x1014 + 0x40 * d
  | .swdBtime d h => 0x1018 + 0x40 * d + 0x4 * h
  | .swdStat d => 0x1020 + 0x40 * d
  | .ldgMbud m => 0x1100 + 0x4 * m
  | .ldgLstat d => 0x1200 + 0x20 * d
  | .ldgLswn d => 0x1204 + 0x20 * d
  | .ldgLatecnt d => 0x1208 + 0x20 * d
  | .ldgGracecnt d => 0x120C + 0x20 * d
  | .ldgSkipcnt d => 0x1210 + 0x20 * d
  | .ldgWorst d => 0x1214 + 0x20 * d
  | .ldgWorstt d => 0x1218 + 0x20 * d
  | .ldgTabid d => 0x1300 + 0x4 * d
  | .ldgLmap d w => 0x1400 + 0x40 * d + 0x4 * w
  | .ldgTbud g => 0x1800 + 0x4 * g
  | .cmnTime h => 0x2000 + 0x4 * h
  | .cmnEra => 0x2008
  | .cmnLera => 0x200C
  | .cmnIncf => 0x2010
  | .cmnInci => 0x2014
  | .cmnRadj => 0x2018
  | .cmnSlew => 0x201C
  | .cmnSlewper => 0x2020
  | .cmnStep => 0x2024
  | .cmnSteplim => 0x2028
  | .cmnStat => 0x202C
  | .cmnSync => 0x2030
  | .cmnSrv => 0x2034
  | .cmnStepcnt => 0x2038
  | .tmrCtl ch => 0x2100 + 0x40 * ch
  | .tmrStat ch => 0x2104 + 0x40 * ch
  | .tmrCmp ch h => 0x2108 + 0x40 * ch + 0x4 * h
  | .tmrIvl ch h => 0x2110 + 0x40 * ch + 0x4 * h
  | .tmrLast ch h => 0x2118 + 0x40 * ch + 0x4 * h
  | .tmrCap ch h => 0x2120 + 0x40 * ch + 0x4 * h
  | .tmrTrig ch => 0x2128 + 0x40 * ch
  | .tmrFires ch => 0x212C + 0x40 * ch
  | .fltStat => 0x3000
  | .fltRec0 => 0x3004
  | .fltRda => 0x3008
  | .fltRdb => 0x300C
  | .fltRtime h => 0x3010 + 0x4 * h
  | .fltRseq => 0x3018
  | .fltPop => 0x301C
  | .fltCfgrej => 0x3020
  | .fltCfgadr => 0x3024
  | .fltCnt k => 0x3100 + 0x4 * k
  | .sorPend => 0x3300
  | .sorCtl o => 0x3400 + 0x40 * o
  | .sorSrc o => 0x3404 + 0x40 * o
  | .sorAct o => 0x3408 + 0x40 * o
  | .sorPmov o => 0x340C + 0x40 * o
  | .sorPins o w => 0x3410 + 0x40 * o + 0x4 * w
  | .sorStat o => 0x3430 + 0x40 * o
  | .sorXtime o h => 0x3434 + 0x40 * o + 0x4 * h
  | .pwrDzcfg n => 0x4000 + 0x20 * n
  | .pwrDzstat n => 0x4004 + 0x20 * n
  | .pwrDzcnt n k => 0x4008 + 0x20 * n + 0x4 * k
  | .pwrSmcfg r => 0x4400 + 0x10 * r
  | .pwrSmthr r => 0x4404 + 0x10 * r
  | .pwrSmval r => 0x4408 + 0x10 * r
  | .pwrSmext r => 0x440C + 0x10 * r
  | .hdgCfg p => 0x5000 + 0x10 * p
  | .hdgSlot p h => 0x5004 + 0x10 * p + 0x4 * h
  | .hdgIo p => 0x500C + 0x10 * p
  | .shfCtx x => 0x6000 + 0x4 * x
  | .shfCst x => 0x6400 + 0x4 * x
  | .shfCres x => 0x6800 + 0x4 * x
  | .shfStat => 0x6C00
  | .shfCnt k => 0x6C04 + 0x4 * k
  | .shfWsweep => 0x6C20
  | .glkDlstat => 0x7000
  | .glkDlcnt => 0x7004
  | .glkLkrel => 0x7008
  | .glkChcmd => 0x700C
  | .glkDlmap w => 0x7040 + 0x4 * w
  | .glkChstat ch => 0x7200 + 0x4 * ch
  | .glkWgmap g w => 0x7400 + 0x40 * g + 0x4 * w
  | .glkLock l => 0x7800 + 0x4 * l
  | .mbuCtl m => mbuBase m + 0x0
  | .mbuLink m => mbuBase m + 0x4
  | .mbuRxcfg m => mbuBase m + 0x8
  | .mbuRxbase m => mbuBase m + 0xC
  | .mbuRxhead m => mbuBase m + 0x10
  | .mbuIlat m => mbuBase m + 0x18
  | .mbuElat m => mbuBase m + 0x1C
  | .mbuAsym m => mbuBase m + 0x20
  | .mbuSdlat m => mbuBase m + 0x24
  | .mbuFwd m => mbuBase m + 0x2C
  | .mbuAn m => mbuBase m + 0x30
  | .mbuLp m => mbuBase m + 0x34
  | .mbuTdrctl m => mbuBase m + 0x38
  | .mbuTdrres m => mbuBase m + 0x3C
  | .mbuCnt m k => mbuBase m + 0x40 + 0x4 * k
  | .mbuSplCtl m e => mbuBase m + 0x400 + 0x10 * e
  | .mbuSplAddr m e => mbuBase m + 0x404 + 0x10 * e
  | .mbuSplMval m e => mbuBase m + 0x408 + 0x10 * e
  | .mbuSplMmask m e => mbuBase m + 0x40C + 0x10 * e
  | .mbuFqcfg m j => mbuBase m + 0x800 + 0x8 * j
  | .mbuFqst m j => mbuBase m + 0x804 + 0x8 * j
  | .coreStat n => coreBase n + 0x0
  | .coreIcbase n => coreBase n + 0x4
  | .coreEmpty n => coreBase n + 0x8
  | .coreSpillcnt n => coreBase n + 0xC
  | .coreTcmd n => coreBase n + 0x10
  | .coreSlot n e => coreBase n + 0x80 + 0x4 * e
  | .coreTctl n t => coreBase n + 0x100 + 0x40 * t
  | .coreTstat n t => coreBase n + 0x104 + 0x40 * t
  | .corePc n t => coreBase n + 0x108 + 0x40 * t
  | .coreWin n t => coreBase n + 0x10C + 0x40 * t
  | .coreEvv n t => coreBase n + 0x110 + 0x40 * t
  | .coreEvsel n t => coreBase n + 0x114 + 0x40 * t
  | .coreEvcfg n t => coreBase n + 0x118 + 0x40 * t
  | .coreTfault n t => coreBase n + 0x11C + 0x40 * t
  | .coreTfpc n t => coreBase n + 0x120 + 0x40 * t
  | .coreTissue n t => coreBase n + 0x124 + 0x40 * t
  | .coreTsbstall n t => coreBase n + 0x128 + 0x40 * t
  | .coreDbgcmd n => coreBase n + 0x500
  | .coreDsr n => coreBase n + 0x504
  | .coreDsrd n h => coreBase n + 0x508 + 0x4 * h
  | .coreBpc n b => coreBase n + 0x510 + 0x8 * b
  | .coreBpa n b => coreBase n + 0x514 + 0x8 * b
  | .coreHcause n t => coreBase n + 0x540 + 0x4 * t
  | .psqCtl q => psqBase q + 0x0
  | .psqCmd q => psqBase q + 0x4
  | .psqStat q => psqBase q + 0x8
  | .psqPc q => psqBase q + 0xC
  | .psqFlt q => psqBase q + 0x10
  | .psqTrig q => psqBase q + 0x14
  | .psqPaddr q => psqBase q + 0x18
  | .psqPdata q => psqBase q + 0x1C
  | .psqActLo q => psqBase q + 0x20
  | .psqActHi q => psqBase q + 0x24
  | .psqAst q => psqBase q + 0x28
  | .psqAcnt q => psqBase q + 0x2C
  | .psqAexec q => psqBase q + 0x30
  | .psqEcc q => psqBase q + 0x34
  | .psqRfx q r => psqBase q + 0x40 + 0x4 * r
  | .psqCnt q k => psqBase q + 0x60 + 0x4 * k
  | .psqCntv q => psqBase q + 0x68
  | .psqV q v => psqBase q + 0x80 + 0x4 * v
  | .psqShcfg q k => psqBase q + 0xA0 + 0x4 * k
  | .psqSh q k h => psqBase q + 0xB0 + 0x8 * k + 0x4 * h
  | .psqLcfg q l => psqBase q + 0x100 + 0x4 * l
  | .psqCap q l h => psqBase q + 0x140 + 0x10 * l + 0x4 * h
  | .psqCapst q l => psqBase q + 0x148 + 0x10 * l
  | .clkEvf c w => clkBase c + 0x0 + 0x4 * w
  | .clkEvset c w => clkBase c + 0x20 + 0x4 * w
  | .clkEvclr c w => clkBase c + 0x40 + 0x4 * w
  | .clkEvthr c w => clkBase c + 0x60 + 0x4 * w
  | .clkLkrel c => clkBase c + 0x80
  | .clkChcmd c => clkBase c + 0x84
  | .clkChstat c ch => clkBase c + 0x100 + 0x4 * ch
  | .clkLock c l => clkBase c + 0x400 + 0x4 * l
  | .clkChdata c ch w => clkBase c + 0x800 + 0x40 * ch + 0x4 * w

/-- The codes that FLT_CNT counts: those of Table 112, and ECC_CE (FLT_CNT's table). -/
def fltCounted : List Nat :=
  [0x01, 0x02, 0x03, 0x04, 0x05, 0x10, 0x11, 0x12, 0x13, 0x20, 0x21, 0x30, 0x31, 0x32, 0x40, 0x41, 0x42, 0x50, 0x51, 0x60,
   0x61, 0x70, 0x71, 0x72]

/-- The index ranges of a register. -/
def Reg.inRange : Reg → Bool
  | .fastLast d => decide (d < 4)
  | .cpxCtl => true
  | .cpxStat => true
  | .cpxId => true
  | .cpxAwin w => decide (w < 4)
  | .cpxEccnt r => decide (r < 8)
  | .cpxUerec => true
  | .cpxGctl => true
  | .cpxGstat => true
  | .cpxGyield => true
  | .cpxGfail => true
  | .cpxEinj => true
  | .cpxSwipe => true
  | .cpxTdrctl => true
  | .cpxTdrres => true
  | .cpxGchsel => true
  | .cpxGchdata => true
  | .swdCtl d => decide (d < 4)
  | .swdPeriod d => decide (d < 4)
  | .swdStart d h => decide (d < 4) && decide (h < 2)
  | .swdNumbase d => decide (d < 4)
  | .swdNum d => decide (d < 4)
  | .swdBtime d h => decide (d < 4) && decide (h < 2)
  | .swdStat d => decide (d < 4)
  | .ldgMbud m => decide (m < 32)
  | .ldgLstat d => decide (d < 4)
  | .ldgLswn d => decide (d < 4)
  | .ldgLatecnt d => decide (d < 4)
  | .ldgGracecnt d => decide (d < 4)
  | .ldgSkipcnt d => decide (d < 4)
  | .ldgWorst d => decide (d < 4)
  | .ldgWorstt d => decide (d < 4)
  | .ldgTabid d => decide (d < 4)
  | .ldgLmap d w => decide (d < 4) && decide (w < 16)
  | .ldgTbud g => decide (g < 512)
  | .cmnTime h => decide (h < 2)
  | .cmnEra => true
  | .cmnLera => true
  | .cmnIncf => true
  | .cmnInci => true
  | .cmnRadj => true
  | .cmnSlew => true
  | .cmnSlewper => true
  | .cmnStep => true
  | .cmnSteplim => true
  | .cmnStat => true
  | .cmnSync => true
  | .cmnSrv => true
  | .cmnStepcnt => true
  | .tmrCtl ch => decide (ch < 32)
  | .tmrStat ch => decide (ch < 32)
  | .tmrCmp ch h => decide (ch < 32) && decide (h < 2)
  | .tmrIvl ch h => decide (ch < 32) && decide (h < 2)
  | .tmrLast ch h => decide (ch < 32) && decide (h < 2)
  | .tmrCap ch h => decide (ch < 32) && decide (h < 2)
  | .tmrTrig ch => decide (ch < 32)
  | .tmrFires ch => decide (ch < 32)
  | .fltStat => true
  | .fltRec0 => true
  | .fltRda => true
  | .fltRdb => true
  | .fltRtime h => decide (h < 2)
  | .fltRseq => true
  | .fltPop => true
  | .fltCfgrej => true
  | .fltCfgadr => true
  | .fltCnt k => fltCounted.contains k
  | .sorPend => true
  | .sorCtl o => decide (o < 32)
  | .sorSrc o => decide (o < 32)
  | .sorAct o => decide (o < 32)
  | .sorPmov o => decide (o < 32)
  | .sorPins o w => decide (o < 32) && decide (w < 8)
  | .sorStat o => decide (o < 32)
  | .sorXtime o h => decide (o < 32) && decide (h < 2)
  | .pwrDzcfg n => decide (n < 32)
  | .pwrDzstat n => decide (n < 32)
  | .pwrDzcnt n k => decide (n < 32) && decide (k < 3)
  | .pwrSmcfg r => decide (r < 10)
  | .pwrSmthr r => decide (r < 10)
  | .pwrSmval r => decide (r < 10)
  | .pwrSmext r => decide (r < 10)
  | .hdgCfg p => decide (p < 256)
  | .hdgSlot p h => decide (p < 256) && decide (h < 2)
  | .hdgIo p => decide (p < 256)
  | .shfCtx x => decide (x < 256)
  | .shfCst x => decide (x < 256)
  | .shfCres x => decide (x < 256)
  | .shfStat => true
  | .shfCnt k => decide (k < 6)
  | .shfWsweep => true
  | .glkDlstat => true
  | .glkDlcnt => true
  | .glkLkrel => true
  | .glkChcmd => true
  | .glkDlmap w => decide (w < 16)
  | .glkChstat ch => decide (ch < 128)
  | .glkWgmap g w => decide (g < 16) && decide (w < 16)
  | .glkLock l => decide (l < 512)
  | .mbuCtl m => decide (m < 16)
  | .mbuLink m => decide (m < 16)
  | .mbuRxcfg m => decide (m < 16)
  | .mbuRxbase m => decide (m < 16)
  | .mbuRxhead m => decide (m < 16)
  | .mbuIlat m => decide (m < 16)
  | .mbuElat m => decide (m < 16)
  | .mbuAsym m => decide (m < 16)
  | .mbuSdlat m => decide (m < 16)
  | .mbuFwd m => decide (m < 16)
  | .mbuAn m => decide (m < 16)
  | .mbuLp m => decide (m < 16)
  | .mbuTdrctl m => decide (m < 16) && decide (12 ≤ m)
  | .mbuTdrres m => decide (m < 16) && decide (12 ≤ m)
  | .mbuCnt m k => decide (m < 16) && decide (k < 16)
  | .mbuSplCtl m e => decide (m < 16) && decide (e < 8)
  | .mbuSplAddr m e => decide (m < 16) && decide (e < 8)
  | .mbuSplMval m e => decide (m < 16) && decide (e < 8)
  | .mbuSplMmask m e => decide (m < 16) && decide (e < 8)
  | .mbuFqcfg m j => decide (m < 16) && decide (j < 64)
  | .mbuFqst m j => decide (m < 16) && decide (j < 64)
  | .coreStat n => decide (n < 32)
  | .coreIcbase n => decide (n < 32)
  | .coreEmpty n => decide (n < 32)
  | .coreSpillcnt n => decide (n < 32)
  | .coreTcmd n => decide (n < 32)
  | .coreSlot n e => decide (n < 32) && decide (e < 32)
  | .coreTctl n t => decide (n < 32) && decide (t < 16)
  | .coreTstat n t => decide (n < 32) && decide (t < 16)
  | .corePc n t => decide (n < 32) && decide (t < 16)
  | .coreWin n t => decide (n < 32) && decide (t < 16)
  | .coreEvv n t => decide (n < 32) && decide (t < 16)
  | .coreEvsel n t => decide (n < 32) && decide (t < 16)
  | .coreEvcfg n t => decide (n < 32) && decide (t < 16)
  | .coreTfault n t => decide (n < 32) && decide (t < 16)
  | .coreTfpc n t => decide (n < 32) && decide (t < 16)
  | .coreTissue n t => decide (n < 32) && decide (t < 16)
  | .coreTsbstall n t => decide (n < 32) && decide (t < 16)
  | .coreDbgcmd n => decide (n < 32)
  | .coreDsr n => decide (n < 32)
  | .coreDsrd n h => decide (n < 32) && decide (h < 2)
  | .coreBpc n b => decide (n < 32) && decide (b < 4)
  | .coreBpa n b => decide (n < 32) && decide (b < 4)
  | .coreHcause n t => decide (n < 32) && decide (t < 16)
  | .psqCtl q => decide (q < 64)
  | .psqCmd q => decide (q < 64)
  | .psqStat q => decide (q < 64)
  | .psqPc q => decide (q < 64)
  | .psqFlt q => decide (q < 64)
  | .psqTrig q => decide (q < 64)
  | .psqPaddr q => decide (q < 64)
  | .psqPdata q => decide (q < 64)
  | .psqActLo q => decide (q < 64)
  | .psqActHi q => decide (q < 64)
  | .psqAst q => decide (q < 64)
  | .psqAcnt q => decide (q < 64)
  | .psqAexec q => decide (q < 64)
  | .psqEcc q => decide (q < 64)
  | .psqRfx q r => decide (q < 64) && decide (r < 4)
  | .psqCnt q k => decide (q < 64) && decide (k < 2)
  | .psqCntv q => decide (q < 64)
  | .psqV q v => decide (q < 64) && decide (v < 8)
  | .psqShcfg q k => decide (q < 64) && decide (k < 2)
  | .psqSh q k h => decide (q < 64) && decide (k < 2) && decide (h < 2)
  | .psqLcfg q l => decide (q < 64) && decide (l < 8)
  | .psqCap q l h => decide (q < 64) && decide (l < 8) && decide (h < 2)
  | .psqCapst q l => decide (q < 64) && decide (l < 8)
  | .clkEvf c w => decide (c < 8) && decide (w < 8)
  | .clkEvset c w => decide (c < 8) && decide (w < 8)
  | .clkEvclr c w => decide (c < 8) && decide (w < 8)
  | .clkEvthr c w => decide (c < 8) && decide (w < 8)
  | .clkLkrel c => decide (c < 8)
  | .clkChcmd c => decide (c < 8)
  | .clkChstat c ch => decide (c < 8) && decide (ch < 32)
  | .clkLock c l => decide (c < 8) && decide (l < 256)
  | .clkChdata c ch w => decide (c < 8) && decide (ch < 32) && decide (w < 16)

/-- Registers at 0x0_0000 to 0x0_0FFF. -/
def cpxReg (r : Nat) : Option Reg :=
  if 0x20 ≤ r ∧ r < 0x30 ∧ (r - 0x20) % 0x4 = 0 then some (.fastLast ((r - 0x20) / 0x4))
  else if r = 0x100 then some (.cpxCtl)
  else if r = 0x104 then some (.cpxStat)
  else if r = 0x108 then some (.cpxId)
  else if 0x110 ≤ r ∧ r < 0x120 ∧ (r - 0x110) % 0x4 = 0 then some (.cpxAwin ((r - 0x110) / 0x4))
  else if 0x200 ≤ r ∧ r < 0x220 ∧ (r - 0x200) % 0x4 = 0 then some (.cpxEccnt ((r - 0x200) / 0x4))
  else if r = 0x220 then some (.cpxUerec)
  else if r = 0x230 then some (.cpxGctl)
  else if r = 0x234 then some (.cpxGstat)
  else if r = 0x238 then some (.cpxGyield)
  else if r = 0x23C then some (.cpxGfail)
  else if r = 0x244 then some (.cpxEinj)
  else if r = 0x248 then some (.cpxSwipe)
  else if r = 0x300 then some (.cpxTdrctl)
  else if r = 0x304 then some (.cpxTdrres)
  else if r = 0x410 then some (.cpxGchsel)
  else if r = 0x414 then some (.cpxGchdata)
  else none

/-- Registers at 0x0_1000 to 0x0_1FFF. -/
def swdReg (r : Nat) : Option Reg :=
  if 0x1000 ≤ r ∧ r < 0x1100 ∧ (r - 0x1000) % 0x40 = 0 then some (.swdCtl ((r - 0x1000) / 0x40))
  else if 0x1004 ≤ r ∧ r < 0x1104 ∧ (r - 0x1004) % 0x40 = 0 then some (.swdPeriod ((r - 0x1004) / 0x40))
  else if 0x1008 ≤ r ∧ r < 0x10D0 ∧ (r - 0x1008) % 0x40 < 0x8 ∧ (r - 0x1008) % 0x4 = 0 then some (.swdStart ((r - 0x1008) / 0x40) ((r - 0x1008) % 0x40 / 0x4))
  else if 0x1010 ≤ r ∧ r < 0x1110 ∧ (r - 0x1010) % 0x40 = 0 then some (.swdNumbase ((r - 0x1010) / 0x40))
  else if 0x1014 ≤ r ∧ r < 0x1114 ∧ (r - 0x1014) % 0x40 = 0 then some (.swdNum ((r - 0x1014) / 0x40))
  else if 0x1018 ≤ r ∧ r < 0x10E0 ∧ (r - 0x1018) % 0x40 < 0x8 ∧ (r - 0x1018) % 0x4 = 0 then some (.swdBtime ((r - 0x1018) / 0x40) ((r - 0x1018) % 0x40 / 0x4))
  else if 0x1020 ≤ r ∧ r < 0x1120 ∧ (r - 0x1020) % 0x40 = 0 then some (.swdStat ((r - 0x1020) / 0x40))
  else if 0x1100 ≤ r ∧ r < 0x1180 ∧ (r - 0x1100) % 0x4 = 0 then some (.ldgMbud ((r - 0x1100) / 0x4))
  else if 0x1200 ≤ r ∧ r < 0x1280 ∧ (r - 0x1200) % 0x20 = 0 then some (.ldgLstat ((r - 0x1200) / 0x20))
  else if 0x1204 ≤ r ∧ r < 0x1284 ∧ (r - 0x1204) % 0x20 = 0 then some (.ldgLswn ((r - 0x1204) / 0x20))
  else if 0x1208 ≤ r ∧ r < 0x1288 ∧ (r - 0x1208) % 0x20 = 0 then some (.ldgLatecnt ((r - 0x1208) / 0x20))
  else if 0x120C ≤ r ∧ r < 0x128C ∧ (r - 0x120C) % 0x20 = 0 then some (.ldgGracecnt ((r - 0x120C) / 0x20))
  else if 0x1210 ≤ r ∧ r < 0x1290 ∧ (r - 0x1210) % 0x20 = 0 then some (.ldgSkipcnt ((r - 0x1210) / 0x20))
  else if 0x1214 ≤ r ∧ r < 0x1294 ∧ (r - 0x1214) % 0x20 = 0 then some (.ldgWorst ((r - 0x1214) / 0x20))
  else if 0x1218 ≤ r ∧ r < 0x1298 ∧ (r - 0x1218) % 0x20 = 0 then some (.ldgWorstt ((r - 0x1218) / 0x20))
  else if 0x1300 ≤ r ∧ r < 0x1310 ∧ (r - 0x1300) % 0x4 = 0 then some (.ldgTabid ((r - 0x1300) / 0x4))
  else if 0x1400 ≤ r ∧ r < 0x1500 ∧ (r - 0x1400) % 0x40 < 0x40 ∧ (r - 0x1400) % 0x4 = 0 then some (.ldgLmap ((r - 0x1400) / 0x40) ((r - 0x1400) % 0x40 / 0x4))
  else if 0x1800 ≤ r ∧ r < 0x2000 ∧ (r - 0x1800) % 0x4 = 0 then some (.ldgTbud ((r - 0x1800) / 0x4))
  else none

/-- Registers at 0x0_2000 to 0x0_2FFF. -/
def cmnReg (r : Nat) : Option Reg :=
  if 0x2000 ≤ r ∧ r < 0x2008 ∧ (r - 0x2000) % 0x4 = 0 then some (.cmnTime ((r - 0x2000) / 0x4))
  else if r = 0x2008 then some (.cmnEra)
  else if r = 0x200C then some (.cmnLera)
  else if r = 0x2010 then some (.cmnIncf)
  else if r = 0x2014 then some (.cmnInci)
  else if r = 0x2018 then some (.cmnRadj)
  else if r = 0x201C then some (.cmnSlew)
  else if r = 0x2020 then some (.cmnSlewper)
  else if r = 0x2024 then some (.cmnStep)
  else if r = 0x2028 then some (.cmnSteplim)
  else if r = 0x202C then some (.cmnStat)
  else if r = 0x2030 then some (.cmnSync)
  else if r = 0x2034 then some (.cmnSrv)
  else if r = 0x2038 then some (.cmnStepcnt)
  else if 0x2100 ≤ r ∧ r < 0x2900 ∧ (r - 0x2100) % 0x40 = 0 then some (.tmrCtl ((r - 0x2100) / 0x40))
  else if 0x2104 ≤ r ∧ r < 0x2904 ∧ (r - 0x2104) % 0x40 = 0 then some (.tmrStat ((r - 0x2104) / 0x40))
  else if 0x2108 ≤ r ∧ r < 0x28D0 ∧ (r - 0x2108) % 0x40 < 0x8 ∧ (r - 0x2108) % 0x4 = 0 then some (.tmrCmp ((r - 0x2108) / 0x40) ((r - 0x2108) % 0x40 / 0x4))
  else if 0x2110 ≤ r ∧ r < 0x28D8 ∧ (r - 0x2110) % 0x40 < 0x8 ∧ (r - 0x2110) % 0x4 = 0 then some (.tmrIvl ((r - 0x2110) / 0x40) ((r - 0x2110) % 0x40 / 0x4))
  else if 0x2118 ≤ r ∧ r < 0x28E0 ∧ (r - 0x2118) % 0x40 < 0x8 ∧ (r - 0x2118) % 0x4 = 0 then some (.tmrLast ((r - 0x2118) / 0x40) ((r - 0x2118) % 0x40 / 0x4))
  else if 0x2120 ≤ r ∧ r < 0x28E8 ∧ (r - 0x2120) % 0x40 < 0x8 ∧ (r - 0x2120) % 0x4 = 0 then some (.tmrCap ((r - 0x2120) / 0x40) ((r - 0x2120) % 0x40 / 0x4))
  else if 0x2128 ≤ r ∧ r < 0x2928 ∧ (r - 0x2128) % 0x40 = 0 then some (.tmrTrig ((r - 0x2128) / 0x40))
  else if 0x212C ≤ r ∧ r < 0x292C ∧ (r - 0x212C) % 0x40 = 0 then some (.tmrFires ((r - 0x212C) / 0x40))
  else none

/-- Registers at 0x0_3000 to 0x0_3FFF. -/
def fltReg (r : Nat) : Option Reg :=
  if r = 0x3000 then some (.fltStat)
  else if r = 0x3004 then some (.fltRec0)
  else if r = 0x3008 then some (.fltRda)
  else if r = 0x300C then some (.fltRdb)
  else if 0x3010 ≤ r ∧ r < 0x3018 ∧ (r - 0x3010) % 0x4 = 0 then some (.fltRtime ((r - 0x3010) / 0x4))
  else if r = 0x3018 then some (.fltRseq)
  else if r = 0x301C then some (.fltPop)
  else if r = 0x3020 then some (.fltCfgrej)
  else if r = 0x3024 then some (.fltCfgadr)
  else if 0x3100 ≤ r ∧ r < 0x3300 ∧ (r - 0x3100) % 0x4 = 0 ∧ fltCounted.contains ((r - 0x3100) / 0x4) then
    some (.fltCnt ((r - 0x3100) / 0x4))
  else if r = 0x3300 then some (.sorPend)
  else if 0x3400 ≤ r ∧ r < 0x3C00 ∧ (r - 0x3400) % 0x40 = 0 then some (.sorCtl ((r - 0x3400) / 0x40))
  else if 0x3404 ≤ r ∧ r < 0x3C04 ∧ (r - 0x3404) % 0x40 = 0 then some (.sorSrc ((r - 0x3404) / 0x40))
  else if 0x3408 ≤ r ∧ r < 0x3C08 ∧ (r - 0x3408) % 0x40 = 0 then some (.sorAct ((r - 0x3408) / 0x40))
  else if 0x340C ≤ r ∧ r < 0x3C0C ∧ (r - 0x340C) % 0x40 = 0 then some (.sorPmov ((r - 0x340C) / 0x40))
  else if 0x3410 ≤ r ∧ r < 0x3BF0 ∧ (r - 0x3410) % 0x40 < 0x20 ∧ (r - 0x3410) % 0x4 = 0 then some (.sorPins ((r - 0x3410) / 0x40) ((r - 0x3410) % 0x40 / 0x4))
  else if 0x3430 ≤ r ∧ r < 0x3C30 ∧ (r - 0x3430) % 0x40 = 0 then some (.sorStat ((r - 0x3430) / 0x40))
  else if 0x3434 ≤ r ∧ r < 0x3BFC ∧ (r - 0x3434) % 0x40 < 0x8 ∧ (r - 0x3434) % 0x4 = 0 then some (.sorXtime ((r - 0x3434) / 0x40) ((r - 0x3434) % 0x40 / 0x4))
  else none

/-- Registers at 0x0_4000 to 0x0_4FFF. -/
def pwrReg (r : Nat) : Option Reg :=
  if 0x4000 ≤ r ∧ r < 0x4400 ∧ (r - 0x4000) % 0x20 = 0 then some (.pwrDzcfg ((r - 0x4000) / 0x20))
  else if 0x4004 ≤ r ∧ r < 0x4404 ∧ (r - 0x4004) % 0x20 = 0 then some (.pwrDzstat ((r - 0x4004) / 0x20))
  else if 0x4008 ≤ r ∧ r < 0x43F4 ∧ (r - 0x4008) % 0x20 < 0xC ∧ (r - 0x4008) % 0x4 = 0 then some (.pwrDzcnt ((r - 0x4008) / 0x20) ((r - 0x4008) % 0x20 / 0x4))
  else if 0x4400 ≤ r ∧ r < 0x44A0 ∧ (r - 0x4400) % 0x10 = 0 then some (.pwrSmcfg ((r - 0x4400) / 0x10))
  else if 0x4404 ≤ r ∧ r < 0x44A4 ∧ (r - 0x4404) % 0x10 = 0 then some (.pwrSmthr ((r - 0x4404) / 0x10))
  else if 0x4408 ≤ r ∧ r < 0x44A8 ∧ (r - 0x4408) % 0x10 = 0 then some (.pwrSmval ((r - 0x4408) / 0x10))
  else if 0x440C ≤ r ∧ r < 0x44AC ∧ (r - 0x440C) % 0x10 = 0 then some (.pwrSmext ((r - 0x440C) / 0x10))
  else none

/-- Registers at 0x0_5000 to 0x0_5FFF. -/
def hdgReg (r : Nat) : Option Reg :=
  if 0x5000 ≤ r ∧ r < 0x6000 ∧ (r - 0x5000) % 0x10 = 0 then some (.hdgCfg ((r - 0x5000) / 0x10))
  else if 0x5004 ≤ r ∧ r < 0x5FFC ∧ (r - 0x5004) % 0x10 < 0x8 ∧ (r - 0x5004) % 0x4 = 0 then some (.hdgSlot ((r - 0x5004) / 0x10) ((r - 0x5004) % 0x10 / 0x4))
  else if 0x500C ≤ r ∧ r < 0x600C ∧ (r - 0x500C) % 0x10 = 0 then some (.hdgIo ((r - 0x500C) / 0x10))
  else none

/-- Registers at 0x0_6000 to 0x0_6FFF. -/
def shfReg (r : Nat) : Option Reg :=
  if 0x6000 ≤ r ∧ r < 0x6400 ∧ (r - 0x6000) % 0x4 = 0 then some (.shfCtx ((r - 0x6000) / 0x4))
  else if 0x6400 ≤ r ∧ r < 0x6800 ∧ (r - 0x6400) % 0x4 = 0 then some (.shfCst ((r - 0x6400) / 0x4))
  else if 0x6800 ≤ r ∧ r < 0x6C00 ∧ (r - 0x6800) % 0x4 = 0 then some (.shfCres ((r - 0x6800) / 0x4))
  else if r = 0x6C00 then some (.shfStat)
  else if 0x6C04 ≤ r ∧ r < 0x6C1C ∧ (r - 0x6C04) % 0x4 = 0 then some (.shfCnt ((r - 0x6C04) / 0x4))
  else if r = 0x6C20 then some (.shfWsweep)
  else none

/-- Registers at 0x0_7000 to 0x0_7FFF. -/
def glkReg (r : Nat) : Option Reg :=
  if r = 0x7000 then some (.glkDlstat)
  else if r = 0x7004 then some (.glkDlcnt)
  else if r = 0x7008 then some (.glkLkrel)
  else if r = 0x700C then some (.glkChcmd)
  else if 0x7040 ≤ r ∧ r < 0x7080 ∧ (r - 0x7040) % 0x4 = 0 then some (.glkDlmap ((r - 0x7040) / 0x4))
  else if 0x7200 ≤ r ∧ r < 0x7400 ∧ (r - 0x7200) % 0x4 = 0 then some (.glkChstat ((r - 0x7200) / 0x4))
  else if 0x7400 ≤ r ∧ r < 0x7800 ∧ (r - 0x7400) % 0x40 < 0x40 ∧ (r - 0x7400) % 0x4 = 0 then some (.glkWgmap ((r - 0x7400) / 0x40) ((r - 0x7400) % 0x40 / 0x4))
  else if 0x7800 ≤ r ∧ r < 0x8000 ∧ (r - 0x7800) % 0x4 = 0 then some (.glkLock ((r - 0x7800) / 0x4))
  else none

/-- Registers of one MBU, by offset in its region. -/
def mbuReg (m : Nat) (r : Nat) : Option Reg :=
  if r = 0x0 then some (.mbuCtl m)
  else if r = 0x4 then some (.mbuLink m)
  else if r = 0x8 then some (.mbuRxcfg m)
  else if r = 0xC then some (.mbuRxbase m)
  else if r = 0x10 then some (.mbuRxhead m)
  else if r = 0x18 then some (.mbuIlat m)
  else if r = 0x1C then some (.mbuElat m)
  else if r = 0x20 then some (.mbuAsym m)
  else if r = 0x24 then some (.mbuSdlat m)
  else if r = 0x2C then some (.mbuFwd m)
  else if r = 0x30 then some (.mbuAn m)
  else if r = 0x34 then some (.mbuLp m)
  else if r = 0x38 ∧ 12 ≤ m then some (.mbuTdrctl m)
  else if r = 0x3C ∧ 12 ≤ m then some (.mbuTdrres m)
  else if 0x40 ≤ r ∧ r < 0x80 ∧ (r - 0x40) % 0x4 = 0 then some (.mbuCnt m ((r - 0x40) / 0x4))
  else if 0x400 ≤ r ∧ r < 0x480 ∧ (r - 0x400) % 0x10 = 0 then some (.mbuSplCtl m ((r - 0x400) / 0x10))
  else if 0x404 ≤ r ∧ r < 0x484 ∧ (r - 0x404) % 0x10 = 0 then some (.mbuSplAddr m ((r - 0x404) / 0x10))
  else if 0x408 ≤ r ∧ r < 0x488 ∧ (r - 0x408) % 0x10 = 0 then some (.mbuSplMval m ((r - 0x408) / 0x10))
  else if 0x40C ≤ r ∧ r < 0x48C ∧ (r - 0x40C) % 0x10 = 0 then some (.mbuSplMmask m ((r - 0x40C) / 0x10))
  else if 0x800 ≤ r ∧ r < 0xA00 ∧ (r - 0x800) % 0x8 = 0 then some (.mbuFqcfg m ((r - 0x800) / 0x8))
  else if 0x804 ≤ r ∧ r < 0xA04 ∧ (r - 0x804) % 0x8 = 0 then some (.mbuFqst m ((r - 0x804) / 0x8))
  else none

/-- Registers of one core, by offset in its region. -/
def coreReg (n : Nat) (r : Nat) : Option Reg :=
  if r = 0x0 then some (.coreStat n)
  else if r = 0x4 then some (.coreIcbase n)
  else if r = 0x8 then some (.coreEmpty n)
  else if r = 0xC then some (.coreSpillcnt n)
  else if r = 0x10 then some (.coreTcmd n)
  else if 0x80 ≤ r ∧ r < 0x100 ∧ (r - 0x80) % 0x4 = 0 then some (.coreSlot n ((r - 0x80) / 0x4))
  else if 0x100 ≤ r ∧ r < 0x500 ∧ (r - 0x100) % 0x40 = 0 then some (.coreTctl n ((r - 0x100) / 0x40))
  else if 0x104 ≤ r ∧ r < 0x504 ∧ (r - 0x104) % 0x40 = 0 then some (.coreTstat n ((r - 0x104) / 0x40))
  else if 0x108 ≤ r ∧ r < 0x508 ∧ (r - 0x108) % 0x40 = 0 then some (.corePc n ((r - 0x108) / 0x40))
  else if 0x10C ≤ r ∧ r < 0x50C ∧ (r - 0x10C) % 0x40 = 0 then some (.coreWin n ((r - 0x10C) / 0x40))
  else if 0x110 ≤ r ∧ r < 0x510 ∧ (r - 0x110) % 0x40 = 0 then some (.coreEvv n ((r - 0x110) / 0x40))
  else if 0x114 ≤ r ∧ r < 0x514 ∧ (r - 0x114) % 0x40 = 0 then some (.coreEvsel n ((r - 0x114) / 0x40))
  else if 0x118 ≤ r ∧ r < 0x518 ∧ (r - 0x118) % 0x40 = 0 then some (.coreEvcfg n ((r - 0x118) / 0x40))
  else if 0x11C ≤ r ∧ r < 0x51C ∧ (r - 0x11C) % 0x40 = 0 then some (.coreTfault n ((r - 0x11C) / 0x40))
  else if 0x120 ≤ r ∧ r < 0x520 ∧ (r - 0x120) % 0x40 = 0 then some (.coreTfpc n ((r - 0x120) / 0x40))
  else if 0x124 ≤ r ∧ r < 0x524 ∧ (r - 0x124) % 0x40 = 0 then some (.coreTissue n ((r - 0x124) / 0x40))
  else if 0x128 ≤ r ∧ r < 0x528 ∧ (r - 0x128) % 0x40 = 0 then some (.coreTsbstall n ((r - 0x128) / 0x40))
  else if r = 0x500 then some (.coreDbgcmd n)
  else if r = 0x504 then some (.coreDsr n)
  else if 0x508 ≤ r ∧ r < 0x510 ∧ (r - 0x508) % 0x4 = 0 then some (.coreDsrd n ((r - 0x508) / 0x4))
  else if 0x510 ≤ r ∧ r < 0x530 ∧ (r - 0x510) % 0x8 = 0 then some (.coreBpc n ((r - 0x510) / 0x8))
  else if 0x514 ≤ r ∧ r < 0x534 ∧ (r - 0x514) % 0x8 = 0 then some (.coreBpa n ((r - 0x514) / 0x8))
  else if 0x540 ≤ r ∧ r < 0x580 ∧ (r - 0x540) % 0x4 = 0 then some (.coreHcause n ((r - 0x540) / 0x4))
  else none

/-- Registers of one sequencer, by offset in its region. -/
def psqReg (q : Nat) (r : Nat) : Option Reg :=
  if r = 0x0 then some (.psqCtl q)
  else if r = 0x4 then some (.psqCmd q)
  else if r = 0x8 then some (.psqStat q)
  else if r = 0xC then some (.psqPc q)
  else if r = 0x10 then some (.psqFlt q)
  else if r = 0x14 then some (.psqTrig q)
  else if r = 0x18 then some (.psqPaddr q)
  else if r = 0x1C then some (.psqPdata q)
  else if r = 0x20 then some (.psqActLo q)
  else if r = 0x24 then some (.psqActHi q)
  else if r = 0x28 then some (.psqAst q)
  else if r = 0x2C then some (.psqAcnt q)
  else if r = 0x30 then some (.psqAexec q)
  else if r = 0x34 then some (.psqEcc q)
  else if 0x40 ≤ r ∧ r < 0x50 ∧ (r - 0x40) % 0x4 = 0 then some (.psqRfx q ((r - 0x40) / 0x4))
  else if 0x60 ≤ r ∧ r < 0x68 ∧ (r - 0x60) % 0x4 = 0 then some (.psqCnt q ((r - 0x60) / 0x4))
  else if r = 0x68 then some (.psqCntv q)
  else if 0x80 ≤ r ∧ r < 0xA0 ∧ (r - 0x80) % 0x4 = 0 then some (.psqV q ((r - 0x80) / 0x4))
  else if 0xA0 ≤ r ∧ r < 0xA8 ∧ (r - 0xA0) % 0x4 = 0 then some (.psqShcfg q ((r - 0xA0) / 0x4))
  else if 0xB0 ≤ r ∧ r < 0xC0 ∧ (r - 0xB0) % 0x8 < 0x8 ∧ (r - 0xB0) % 0x4 = 0 then some (.psqSh q ((r - 0xB0) / 0x8) ((r - 0xB0) % 0x8 / 0x4))
  else if 0x100 ≤ r ∧ r < 0x120 ∧ (r - 0x100) % 0x4 = 0 then some (.psqLcfg q ((r - 0x100) / 0x4))
  else if 0x140 ≤ r ∧ r < 0x1B8 ∧ (r - 0x140) % 0x10 < 0x8 ∧ (r - 0x140) % 0x4 = 0 then some (.psqCap q ((r - 0x140) / 0x10) ((r - 0x140) % 0x10 / 0x4))
  else if 0x148 ≤ r ∧ r < 0x1C8 ∧ (r - 0x148) % 0x10 = 0 then some (.psqCapst q ((r - 0x148) / 0x10))
  else none

/-- Registers of one cluster, by offset in its region. -/
def clkReg (c : Nat) (r : Nat) : Option Reg :=
  if 0x0 ≤ r ∧ r < 0x20 ∧ (r - 0x0) % 0x4 = 0 then some (.clkEvf c ((r - 0x0) / 0x4))
  else if 0x20 ≤ r ∧ r < 0x40 ∧ (r - 0x20) % 0x4 = 0 then some (.clkEvset c ((r - 0x20) / 0x4))
  else if 0x40 ≤ r ∧ r < 0x60 ∧ (r - 0x40) % 0x4 = 0 then some (.clkEvclr c ((r - 0x40) / 0x4))
  else if 0x60 ≤ r ∧ r < 0x80 ∧ (r - 0x60) % 0x4 = 0 then some (.clkEvthr c ((r - 0x60) / 0x4))
  else if r = 0x80 then some (.clkLkrel c)
  else if r = 0x84 then some (.clkChcmd c)
  else if 0x100 ≤ r ∧ r < 0x180 ∧ (r - 0x100) % 0x4 = 0 then some (.clkChstat c ((r - 0x100) / 0x4))
  else if 0x400 ≤ r ∧ r < 0x800 ∧ (r - 0x400) % 0x4 = 0 then some (.clkLock c ((r - 0x400) / 0x4))
  else if 0x800 ≤ r ∧ r < 0x1000 ∧ (r - 0x800) % 0x40 < 0x40 ∧ (r - 0x800) % 0x4 = 0 then some (.clkChdata c ((r - 0x800) / 0x40) ((r - 0x800) % 0x40 / 0x4))
  else none

/-- The register at a window offset (R27): none where Table 13, Table 14 or a unit's chapter assigns none. -/
def regAt (o : Nat) : Option Reg :=
  if o < 0x1000 then cpxReg o
  else if o < 0x2000 then swdReg o
  else if o < 0x3000 then cmnReg o
  else if o < 0x4000 then fltReg o
  else if o < 0x5000 then pwrReg o
  else if o < 0x6000 then hdgReg o
  else if o < 0x7000 then shfReg o
  else if o < 0x8000 then glkReg o
  else if o < 0x10000 then none
  else if o < 0x20000 then mbuReg ((o - 0x10000) / 0x1000) (o % 0x1000)
  else if o < 0xA0000 then
    let c := (o - 0x20000) / 0x10000
    let r := o % 0x10000
    if r < 0x4000 then coreReg (4 * c + r / 0x1000) (r % 0x1000)
    else if 0x8000 ≤ r ∧ r < 0xA000 then psqReg (8 * c + (r - 0x8000) / 0x400) (r % 0x400)
    else if 0xC000 ≤ r ∧ r < 0xD000 then clkReg c (r % 0x1000)
    else none
  else none

/-- The fields of each register, as its table gives them (R7, R9); a reset that the table gives by index is in `regReset`. -/
def Reg.fields : Reg → List Fld
  | .fastLast _ => [⟨31, 0, .ro, .live, 0⟩]
  | .cpxCtl => [⟨2, 0, .rw, .live, 2⟩]
  | .cpxStat => [⟨13, 13, .ro, .live, 0⟩, ⟨12, 11, .ro, .live, 0⟩, ⟨10, 8, .ro, .live, 0⟩, ⟨6, 4, .ro, .live, 0⟩, ⟨3, 3, .ro, .live, 0⟩, ⟨2, 0, .ro, .live, 2⟩]
  | .cpxId => [⟨27, 16, .ro, .live, 0⟩, ⟨15, 8, .ro, .live, 33⟩, ⟨7, 0, .ro, .live, 0⟩]
  | .cpxAwin _ => [⟨31, 31, .rw, .stopped, 0⟩, ⟨30, 30, .rw, .stopped, 0⟩, ⟨15, 12, .rw, .stopped, 0⟩, ⟨11, 0, .rw, .stopped, 0⟩]
  | .cpxEccnt _ => [⟨31, 0, .rw, .live, 0⟩]
  | .cpxUerec => [⟨31, 31, .w1c, .live, 0⟩, ⟨30, 28, .ro, .live, 0⟩, ⟨27, 24, .ro, .live, 0⟩, ⟨23, 0, .ro, .live, 0⟩]
  | .cpxGctl => [⟨6, 0, .rw, .live, 127⟩]
  | .cpxGstat => [⟨31, 20, .ro, .live, 0⟩, ⟨19, 19, .ro, .live, 0⟩, ⟨18, 16, .ro, .live, 0⟩, ⟨13, 0, .ro, .live, 0⟩]
  | .cpxGyield => [⟨31, 0, .rw, .live, 0⟩]
  | .cpxGfail => [⟨31, 31, .w1c, .live, 0⟩, ⟨30, 28, .ro, .live, 0⟩, ⟨27, 27, .ro, .live, 0⟩, ⟨26, 24, .ro, .live, 0⟩, ⟨23, 0, .ro, .live, 0⟩]
  | .cpxEinj => [⟨31, 31, .rw, .live, 0⟩, ⟨30, 29, .rw, .live, 1⟩, ⟨23, 0, .rw, .live, 0⟩]
  | .cpxSwipe => [⟨31, 31, .w1c, .live, 0⟩, ⟨30, 30, .ro, .live, 0⟩, ⟨1, 0, .ro, .live, 0⟩]
  | .cpxTdrctl => [⟨31, 31, .wo, .live, 0⟩, ⟨30, 30, .ro, .live, 0⟩, ⟨7, 0, .rw, .live, 0⟩]
  | .cpxTdrres => [⟨31, 31, .w1c, .live, 0⟩, ⟨30, 30, .ro, .live, 0⟩, ⟨29, 29, .ro, .live, 0⟩, ⟨23, 16, .ro, .live, 0⟩, ⟨10, 0, .ro, .live, 0⟩]
  | .cpxGchsel => [⟨10, 4, .rw, .live, 0⟩, ⟨3, 0, .rw, .live, 0⟩]
  | .cpxGchdata => [⟨31, 0, .ro, .live, 0⟩]
  | .swdCtl _ => [⟨1, 1, .rw, .live, 0⟩, ⟨0, 0, .rw, .live, 0⟩]
  | .swdPeriod _ => [⟨24, 0, .rw, .tick, 31250⟩]
  | .swdStart _ _ => [⟨31, 0, .rw, .stopped, 0⟩]
  | .swdNumbase _ => [⟨31, 0, .rw, .stopped, 0⟩]
  | .swdNum _ => [⟨31, 0, .ro, .live, 0⟩]
  | .swdBtime _ _ => [⟨31, 0, .ro, .live, 0⟩]
  | .swdStat _ => [⟨31, 16, .rw, .live, 0⟩, ⟨0, 0, .ro, .live, 0⟩]
  | .ldgMbud _ => [⟨31, 31, .rw, .stopped, 0⟩, ⟨29, 28, .rw, .stopped, 0⟩, ⟨23, 0, .rw, .tick, 0⟩]
  | .ldgLstat _ => [⟨31, 31, .w1c, .live, 0⟩, ⟨30, 30, .w1c, .live, 0⟩, ⟨29, 29, .ro, .live, 0⟩, ⟨28, 28, .ro, .live, 0⟩, ⟨18, 9, .ro, .live, 0⟩, ⟨8, 0, .ro, .live, 0⟩]
  | .ldgLswn _ => [⟨31, 0, .ro, .live, 0⟩]
  | .ldgLatecnt _ => [⟨31, 0, .rw, .live, 0⟩]
  | .ldgGracecnt _ => [⟨31, 0, .rw, .live, 0⟩]
  | .ldgSkipcnt _ => [⟨31, 0, .rw, .live, 0⟩]
  | .ldgWorst _ => [⟨23, 0, .rw, .live, 0⟩]
  | .ldgWorstt _ => [⟨8, 0, .ro, .live, 0⟩]
  | .ldgTabid _ => [⟨31, 0, .rw, .live, 0⟩]
  | .ldgLmap _ _ => [⟨31, 0, .ro, .live, 0⟩]
  | .ldgTbud _ => [⟨31, 31, .rw, .stopped, 0⟩, ⟨30, 30, .rw, .stopped, 0⟩, ⟨29, 28, .rw, .stopped, 0⟩, ⟨23, 0, .rw, .tick, 0⟩]
  | .cmnTime _ => [⟨31, 0, .rw, .stopped, 0⟩]
  | .cmnEra => [⟨15, 0, .rw, .stopped, 0⟩]
  | .cmnLera => [⟨15, 0, .ro, .live, 0⟩]
  | .cmnIncf => [⟨31, 0, .rw, .stopped, 0⟩]
  | .cmnInci => [⟨6, 0, .rw, .stopped, 16⟩]
  | .cmnRadj => [⟨31, 0, .rw, .live, 0⟩]
  | .cmnSlew => [⟨31, 0, .rw, .live, 0⟩]
  | .cmnSlewper => [⟨15, 0, .rw, .live, 1024⟩]
  | .cmnStep => [⟨31, 0, .rw, .live, 0⟩]
  | .cmnSteplim => [⟨30, 0, .rw, .stopped, 0⟩]
  | .cmnStat => [⟨31, 31, .ro, .live, 0⟩, ⟨30, 30, .w1c, .live, 0⟩, ⟨29, 29, .w1c, .live, 0⟩, ⟨28, 28, .ro, .live, 0⟩]
  | .cmnSync => [⟨31, 31, .rw, .live, 0⟩, ⟨30, 30, .rw, .live, 0⟩, ⟨23, 0, .rw, .live, 1000⟩]
  | .cmnSrv => [⟨31, 31, .rw, .stopped, 0⟩, ⟨26, 24, .rw, .stopped, 0⟩, ⟨15, 8, .rw, .stopped, 0⟩, ⟨7, 0, .rw, .stopped, 0⟩]
  | .cmnStepcnt => [⟨31, 16, .rw, .live, 0⟩, ⟨15, 0, .rw, .live, 0⟩]
  | .tmrCtl _ => [⟨31, 31, .rw, .live, 0⟩, ⟨30, 29, .rw, .stopped, 0⟩, ⟨28, 27, .rw, .stopped, 0⟩, ⟨26, 22, .rw, .stopped, 0⟩, ⟨21, 20, .rw, .live, 1⟩, ⟨19, 19, .rw, .stopped, 0⟩, ⟨18, 16, .rw, .stopped, 0⟩, ⟨15, 8, .rw, .stopped, 0⟩, ⟨1, 0, .rw, .stopped, 0⟩]
  | .tmrStat _ => [⟨31, 31, .w1c, .live, 0⟩, ⟨30, 30, .w1c, .live, 0⟩, ⟨29, 29, .ro, .live, 0⟩, ⟨28, 28, .ro, .live, 0⟩, ⟨27, 26, .ro, .live, 0⟩, ⟨15, 8, .rw, .live, 0⟩, ⟨7, 0, .rw, .live, 0⟩]
  | .tmrCmp _ _ => [⟨31, 0, .rw, .live, 0⟩]
  | .tmrIvl _ _ => [⟨31, 0, .rw, .live, 0⟩]
  | .tmrLast _ _ => [⟨31, 0, .ro, .live, 0⟩]
  | .tmrCap _ _ => [⟨31, 0, .ro, .live, 0⟩]
  | .tmrTrig _ => [⟨0, 0, .wo, .live, 0⟩]
  | .tmrFires _ => [⟨31, 0, .rw, .live, 0⟩]
  | .fltStat => [⟨31, 31, .w1c, .live, 0⟩, ⟨23, 16, .rw, .live, 0⟩, ⟨7, 0, .ro, .live, 0⟩]
  | .fltRec0 => [⟨31, 24, .ro, .live, 0⟩, ⟨23, 23, .ro, .live, 0⟩, ⟨22, 22, .ro, .live, 0⟩, ⟨21, 21, .ro, .live, 0⟩, ⟨20, 16, .ro, .live, 0⟩, ⟨15, 12, .ro, .live, 0⟩, ⟨11, 0, .ro, .live, 0⟩]
  | .fltRda => [⟨31, 0, .ro, .live, 0⟩]
  | .fltRdb => [⟨31, 0, .ro, .live, 0⟩]
  | .fltRtime _ => [⟨31, 0, .ro, .live, 0⟩]
  | .fltRseq => [⟨15, 0, .ro, .live, 0⟩]
  | .fltPop => [⟨15, 0, .wo, .live, 0⟩]
  | .fltCfgrej => [⟨31, 31, .w1c, .live, 0⟩, ⟨15, 12, .ro, .live, 0⟩, ⟨11, 0, .ro, .live, 0⟩]
  | .fltCfgadr => [⟨31, 0, .ro, .live, 0⟩]
  | .fltCnt _ => [⟨31, 0, .rw, .live, 0⟩]
  | .sorPend => [⟨31, 0, .ro, .live, 0⟩]
  | .sorCtl _ => [⟨31, 31, .rw, .live, 0⟩, ⟨30, 30, .rw, .stopped, 0⟩, ⟨23, 20, .rw, .stopped, 15⟩, ⟨7, 0, .rw, .stopped, 0⟩]
  | .sorSrc _ => [⟨27, 16, .rw, .stopped, 0⟩, ⟨11, 0, .rw, .stopped, 0⟩]
  | .sorAct _ => [⟨31, 31, .rw, .stopped, 0⟩, ⟨30, 30, .rw, .stopped, 0⟩, ⟨29, 29, .rw, .stopped, 0⟩, ⟨28, 28, .rw, .stopped, 0⟩, ⟨27, 26, .rw, .stopped, 0⟩, ⟨25, 25, .rw, .stopped, 0⟩, ⟨24, 16, .rw, .stopped, 0⟩, ⟨15, 8, .rw, .stopped, 0⟩, ⟨4, 3, .rw, .stopped, 0⟩, ⟨2, 0, .rw, .stopped, 0⟩]
  | .sorPmov _ => [⟨31, 24, .rw, .stopped, 63⟩, ⟨23, 20, .rw, .stopped, 0⟩]
  | .sorPins _ _ => [⟨31, 0, .rw, .stopped, 0⟩]
  | .sorStat _ => [⟨31, 16, .rw, .live, 0⟩, ⟨15, 8, .rw, .live, 0⟩, ⟨7, 7, .w1c, .live, 0⟩, ⟨6, 6, .w1c, .live, 0⟩, ⟨5, 5, .w1c, .live, 0⟩, ⟨4, 4, .w1c, .live, 0⟩, ⟨3, 3, .w1c, .live, 0⟩, ⟨2, 2, .ro, .live, 0⟩]
  | .sorXtime _ _ => [⟨31, 0, .ro, .live, 0⟩]
  | .pwrDzcfg _ => [⟨3, 3, .rw, .live, 0⟩, ⟨2, 2, .rw, .live, 0⟩, ⟨1, 0, .rw, .live, 1⟩]
  | .pwrDzstat _ => [⟨31, 31, .ro, .live, 0⟩, ⟨25, 24, .ro, .live, 1⟩, ⟨15, 0, .rw, .live, 0⟩]
  | .pwrDzcnt _ _ => [⟨31, 0, .rw, .live, 0⟩]
  | .pwrSmcfg _ => [⟨31, 31, .rw, .live, 1⟩, ⟨27, 26, .rw, .live, 2⟩, ⟨15, 0, .rw, .live, 0⟩]
  | .pwrSmthr _ => [⟨31, 16, .rw, .live, 0⟩, ⟨15, 0, .rw, .live, 0⟩]
  | .pwrSmval _ => [⟨31, 31, .ro, .live, 0⟩, ⟨30, 30, .ro, .live, 0⟩, ⟨15, 0, .ro, .live, 0⟩]
  | .pwrSmext _ => [⟨31, 16, .rw, .live, 0⟩, ⟨15, 0, .rw, .live, 65535⟩]
  | .hdgCfg _ => [⟨31, 24, .rw, .stopped, 63⟩, ⟨23, 22, .rw, .stopped, 0⟩, ⟨21, 20, .rw, .stopped, 0⟩, ⟨19, 19, .rw, .live, 0⟩, ⟨18, 18, .rw, .stopped, 1⟩, ⟨17, 16, .rw, .stopped, 0⟩, ⟨15, 15, .rw, .stopped, 0⟩, ⟨14, 13, .rw, .stopped, 1⟩]
  | .hdgSlot _ _ => [⟨31, 31, .rw, .tick, 0⟩, ⟨30, 30, .rw, .live, 0⟩, ⟨29, 28, .rw, .stopped, 0⟩, ⟨24, 16, .rw, .stopped, 0⟩, ⟨15, 15, .rw, .tick, 0⟩, ⟨14, 14, .rw, .live, 0⟩, ⟨13, 12, .rw, .stopped, 0⟩, ⟨8, 0, .rw, .stopped, 0⟩]
  | .hdgIo _ => [⟨31, 31, .ro, .live, 0⟩, ⟨30, 27, .ro, .live, 0⟩, ⟨26, 26, .ro, .live, 0⟩, ⟨25, 24, .ro, .live, 0⟩, ⟨23, 22, .ro, .live, 0⟩, ⟨21, 21, .ro, .live, 0⟩, ⟨20, 20, .ro, .live, 0⟩, ⟨1, 1, .rw, .live, 0⟩, ⟨0, 0, .rw, .live, 0⟩]
  | .shfCtx _ => [⟨31, 31, .rw, .stopped, 0⟩, ⟨30, 30, .rw, .stopped, 0⟩, ⟨29, 28, .rw, .stopped, 0⟩, ⟨9, 0, .rw, .stopped, 1⟩]
  | .shfCst _ => [⟨31, 29, .ro, .live, 0⟩, ⟨28, 28, .ro, .live, 0⟩, ⟨27, 18, .ro, .live, 0⟩, ⟨17, 8, .ro, .live, 0⟩, ⟨7, 0, .ro, .live, 0⟩]
  | .shfCres _ => [⟨31, 29, .ro, .live, 0⟩, ⟨22, 15, .ro, .live, 0⟩, ⟨14, 0, .ro, .live, 0⟩]
  | .shfStat => [⟨28, 16, .ro, .live, 0⟩, ⟨6, 0, .ro, .live, 0⟩]
  | .shfCnt _ => [⟨31, 0, .rw, .live, 0⟩]
  | .shfWsweep => [⟨7, 0, .rw, .live, 0⟩]
  | .glkDlstat => [⟨31, 31, .w1c, .live, 0⟩, ⟨30, 30, .ro, .live, 0⟩, ⟨19, 16, .ro, .live, 0⟩, ⟨9, 0, .ro, .live, 0⟩]
  | .glkDlcnt => [⟨31, 0, .rw, .live, 0⟩]
  | .glkLkrel => [⟨8, 0, .wo, .live, 0⟩]
  | .glkChcmd => [⟨9, 8, .wo, .live, 0⟩, ⟨6, 0, .wo, .live, 0⟩]
  | .glkDlmap _ => [⟨31, 0, .ro, .live, 0⟩]
  | .glkChstat _ => [⟨31, 29, .ro, .live, 0⟩, ⟨28, 20, .ro, .live, 0⟩, ⟨19, 11, .ro, .live, 0⟩, ⟨10, 10, .ro, .live, 0⟩, ⟨9, 9, .ro, .live, 0⟩, ⟨8, 6, .ro, .live, 0⟩, ⟨4, 0, .ro, .live, 16⟩]
  | .glkWgmap _ _ => [⟨31, 0, .rw, .live, 0⟩]
  | .glkLock _ => [⟨31, 31, .ro, .live, 0⟩, ⟨8, 0, .ro, .live, 0⟩]
  | .mbuCtl _ => [⟨31, 31, .rw, .live, 0⟩, ⟨30, 28, .rw, .stopped, 0⟩, ⟨27, 26, .rw, .stopped, 1⟩, ⟨18, 16, .rw, .stopped, 0⟩, ⟨15, 12, .rw, .stopped, 0⟩, ⟨11, 8, .rw, .stopped, 0⟩, ⟨7, 0, .rw, .stopped, 0⟩]
  | .mbuLink _ => [⟨31, 31, .ro, .live, 0⟩, ⟨30, 28, .ro, .live, 0⟩, ⟨27, 26, .ro, .live, 0⟩, ⟨25, 25, .ro, .live, 0⟩, ⟨24, 24, .ro, .live, 0⟩, ⟨23, 23, .w1c, .live, 0⟩]
  | .mbuRxcfg _ => [⟨31, 31, .rw, .stopped, 0⟩, ⟨30, 30, .rw, .stopped, 0⟩, ⟨27, 24, .rw, .stopped, 0⟩, ⟨23, 16, .rw, .stopped, 0⟩, ⟨10, 8, .rw, .stopped, 2⟩]
  | .mbuRxbase _ => [⟨18, 0, .rw, .stopped, 0⟩]
  | .mbuRxhead _ => [⟨9, 0, .ro, .live, 0⟩]
  | .mbuIlat _ => [⟨19, 0, .rw, .live, 0⟩]
  | .mbuElat _ => [⟨19, 0, .rw, .live, 0⟩]
  | .mbuAsym _ => [⟨31, 0, .rw, .live, 0⟩]
  | .mbuSdlat _ => [⟨31, 16, .ro, .live, 0⟩, ⟨15, 0, .ro, .live, 0⟩]
  | .mbuFwd _ => [⟨31, 31, .rw, .live, 0⟩, ⟨30, 30, .rw, .live, 0⟩, ⟨15, 0, .rw, .live, 400⟩]
  | .mbuAn _ => [⟨31, 31, .rw, .live, 0⟩, ⟨30, 30, .wo, .live, 0⟩, ⟨15, 0, .rw, .live, 32⟩]
  | .mbuLp _ => [⟨31, 31, .ro, .live, 0⟩, ⟨15, 0, .ro, .live, 0⟩]
  | .mbuTdrctl _ => [⟨31, 31, .wo, .live, 0⟩, ⟨30, 30, .ro, .live, 0⟩]
  | .mbuTdrres _ => [⟨31, 31, .w1c, .live, 0⟩, ⟨30, 30, .ro, .live, 0⟩, ⟨29, 29, .ro, .live, 0⟩, ⟨10, 0, .ro, .live, 0⟩]
  | .mbuCnt _ _ => [⟨31, 0, .rw, .live, 0⟩]
  | .mbuSplCtl _ _ => [⟨31, 31, .rw, .live, 0⟩, ⟨30, 30, .rw, .stopped, 0⟩, ⟨29, 29, .rw, .stopped, 0⟩, ⟨27, 22, .rw, .stopped, 0⟩, ⟨21, 11, .rw, .stopped, 0⟩, ⟨10, 0, .rw, .stopped, 0⟩]
  | .mbuSplAddr _ _ => [⟨31, 31, .rw, .stopped, 0⟩, ⟨28, 21, .rw, .stopped, 0⟩, ⟨20, 0, .rw, .stopped, 0⟩]
  | .mbuSplMval _ _ => [⟨31, 0, .rw, .stopped, 0⟩]
  | .mbuSplMmask _ _ => [⟨31, 0, .rw, .stopped, 0⟩]
  | .mbuFqcfg _ _ => [⟨31, 31, .rw, .live, 0⟩, ⟨30, 30, .rw, .stopped, 0⟩, ⟨29, 29, .rw, .stopped, 0⟩, ⟨27, 24, .rw, .stopped, 0⟩, ⟨23, 16, .rw, .stopped, 0⟩, ⟨13, 0, .rw, .stopped, 0⟩]
  | .mbuFqst _ _ => [⟨31, 31, .ro, .live, 0⟩, ⟨7, 0, .ro, .live, 0⟩]
  | .coreStat _ => [⟨16, 16, .ro, .live, 1⟩, ⟨11, 8, .ro, .live, 0⟩, ⟨4, 0, .ro, .live, 0⟩]
  | .coreIcbase _ => [⟨31, 16, .rw, .stopped, 0⟩]
  | .coreEmpty _ => [⟨31, 0, .rw, .live, 0⟩]
  | .coreSpillcnt _ => [⟨31, 0, .rw, .live, 0⟩]
  | .coreTcmd _ => [⟨9, 8, .wo, .live, 0⟩, ⟨3, 0, .wo, .live, 0⟩]
  | .coreSlot _ _ => [⟨4, 0, .rw, .stopped, 16⟩]
  | .coreTctl _ _ => [⟨11, 8, .rw, .stopped, 15⟩, ⟨4, 4, .rw, .stopped, 0⟩, ⟨3, 3, .rw, .stopped, 0⟩, ⟨2, 2, .rw, .stopped, 0⟩, ⟨1, 1, .rw, .stopped, 0⟩, ⟨0, 0, .rw, .stopped, 1⟩]
  | .coreTstat _ _ => [⟨6, 4, .ro, .live, 0⟩, ⟨2, 0, .ro, .live, 0⟩]
  | .corePc _ _ => [⟨31, 0, .rw, .stopped, 0⟩]
  | .coreWin _ _ => [⟨23, 16, .rw, .stopped, 15⟩, ⟨15, 8, .rw, .stopped, 0⟩]
  | .coreEvv _ _ => [⟨31, 0, .rw, .stopped, 0⟩]
  | .coreEvsel _ _ => [⟨31, 24, .rw, .stopped, 0⟩, ⟨23, 16, .rw, .stopped, 0⟩, ⟨15, 8, .rw, .stopped, 0⟩, ⟨7, 0, .rw, .stopped, 0⟩]
  | .coreEvcfg _ _ => [⟨11, 8, .ro, .live, 0⟩, ⟨7, 4, .rw, .stopped, 0⟩, ⟨3, 0, .rw, .live, 0⟩]
  | .coreTfault _ _ => [⟨31, 31, .w1c, .live, 0⟩, ⟨7, 0, .ro, .live, 0⟩]
  | .coreTfpc _ _ => [⟨31, 0, .ro, .live, 0⟩]
  | .coreTissue _ _ => [⟨31, 0, .rw, .live, 0⟩]
  | .coreTsbstall _ _ => [⟨31, 0, .rw, .live, 0⟩]
  | .coreDbgcmd _ => [⟨9, 8, .wo, .live, 0⟩, ⟨3, 0, .wo, .live, 0⟩]
  | .coreDsr _ => [⟨11, 8, .rw, .live, 0⟩, ⟨7, 0, .rw, .live, 1⟩]
  | .coreDsrd _ _ => [⟨31, 0, .rw, .live, 0⟩]
  | .coreBpc _ _ => [⟨31, 30, .rw, .live, 0⟩, ⟨15, 0, .rw, .live, 0⟩]
  | .coreBpa _ _ => [⟨31, 0, .rw, .live, 0⟩]
  | .coreHcause _ _ => [⟨5, 4, .ro, .live, 0⟩, ⟨2, 0, .ro, .live, 0⟩]
  | .psqCtl _ => [⟨31, 31, .rw, .stopped, 0⟩, ⟨30, 30, .rw, .stopped, 0⟩, ⟨23, 16, .rw, .stopped, 0⟩, ⟨7, 0, .rw, .stopped, 0⟩]
  | .psqCmd _ => [⟨1, 0, .wo, .live, 0⟩]
  | .psqStat _ => [⟨29, 29, .w1c, .live, 0⟩, ⟨28, 28, .w1c, .live, 0⟩, ⟨27, 27, .w1c, .live, 0⟩, ⟨26, 26, .w1c, .live, 0⟩, ⟨25, 19, .ro, .live, 0⟩, ⟨18, 12, .ro, .live, 0⟩, ⟨11, 4, .ro, .live, 0⟩, ⟨2, 0, .ro, .live, 0⟩]
  | .psqPc _ => [⟨7, 0, .ro, .live, 0⟩]
  | .psqFlt _ => [⟨31, 31, .w1c, .live, 0⟩, ⟨16, 16, .ro, .live, 0⟩, ⟨15, 8, .ro, .live, 0⟩, ⟨7, 0, .ro, .live, 0⟩]
  | .psqTrig _ => [⟨7, 0, .w1s, .live, 0⟩]
  | .psqPaddr _ => [⟨7, 0, .rw, .live, 0⟩]
  | .psqPdata _ => [⟨31, 0, .rw, .stopped, 0⟩]
  | .psqActLo _ => [⟨31, 0, .wo, .live, 0⟩]
  | .psqActHi _ => [⟨31, 0, .wo, .live, 0⟩]
  | .psqAst _ => [⟨22, 16, .ro, .live, 0⟩, ⟨6, 0, .ro, .live, 0⟩]
  | .psqAcnt _ => [⟨31, 24, .rw, .live, 0⟩, ⟨23, 16, .rw, .live, 0⟩, ⟨15, 8, .rw, .live, 0⟩]
  | .psqAexec _ => [⟨31, 0, .rw, .live, 0⟩]
  | .psqEcc _ => [⟨31, 0, .rw, .live, 0⟩]
  | .psqRfx _ _ => [⟨31, 31, .rw, .live, 0⟩, ⟨30, 30, .rw, .live, 0⟩, ⟨29, 29, .w1c, .live, 0⟩, ⟨28, 27, .rw, .live, 1⟩, ⟨26, 25, .rw, .live, 0⟩, ⟨10, 8, .rw, .live, 0⟩, ⟨2, 0, .rw, .live, 0⟩]
  | .psqCnt _ _ => [⟨31, 31, .rw, .live, 0⟩, ⟨30, 29, .rw, .stopped, 0⟩, ⟨28, 26, .rw, .stopped, 0⟩, ⟨25, 23, .rw, .stopped, 0⟩, ⟨22, 20, .rw, .stopped, 0⟩, ⟨19, 19, .rw, .stopped, 0⟩, ⟨18, 16, .rw, .stopped, 0⟩, ⟨15, 8, .rw, .stopped, 0⟩]
  | .psqCntv _ => [⟨31, 16, .ro, .live, 0⟩, ⟨15, 0, .ro, .live, 0⟩]
  | .psqV _ _ => [⟨15, 0, .rw, .live, 0⟩]
  | .psqShcfg _ _ => [⟨31, 31, .rw, .stopped, 0⟩, ⟨30, 30, .rw, .stopped, 1⟩, ⟨6, 0, .rw, .stopped, 64⟩]
  | .psqSh _ _ _ => [⟨31, 0, .ro, .live, 0⟩]
  | .psqLcfg _ _ => [⟨31, 31, .rw, .stopped, 0⟩, ⟨30, 29, .rw, .stopped, 0⟩, ⟨28, 28, .rw, .stopped, 0⟩, ⟨27, 27, .rw, .stopped, 0⟩, ⟨26, 24, .rw, .stopped, 0⟩, ⟨23, 20, .rw, .stopped, 0⟩]
  | .psqCap _ _ _ => [⟨31, 0, .ro, .live, 0⟩, ⟨0, 0, .ro, .live, 0⟩]
  | .psqCapst _ _ => [⟨31, 31, .w1c, .live, 0⟩, ⟨15, 8, .rw, .live, 0⟩, ⟨1, 0, .ro, .live, 0⟩]
  | .clkEvf _ _ => [⟨31, 0, .ro, .live, 0⟩]
  | .clkEvset _ _ => [⟨31, 0, .wo, .live, 0⟩]
  | .clkEvclr _ _ => [⟨31, 0, .wo, .live, 0⟩]
  | .clkEvthr _ _ => [⟨31, 0, .rw, .stopped, 0⟩]
  | .clkLkrel _ => [⟨8, 0, .wo, .live, 0⟩]
  | .clkChcmd _ => [⟨9, 8, .wo, .live, 0⟩, ⟨6, 0, .wo, .live, 0⟩]
  | .clkChstat _ _ => [⟨31, 29, .ro, .live, 0⟩, ⟨28, 20, .ro, .live, 0⟩, ⟨19, 11, .ro, .live, 0⟩, ⟨10, 10, .ro, .live, 0⟩, ⟨9, 9, .ro, .live, 0⟩, ⟨8, 6, .ro, .live, 0⟩, ⟨4, 0, .ro, .live, 16⟩]
  | .clkLock _ _ => [⟨31, 31, .ro, .live, 0⟩, ⟨8, 0, .ro, .live, 0⟩]
  | .clkChdata _ _ _ => [⟨31, 0, .ro, .live, 0⟩]

/-- The word that a register's own table gives at reset. -/
def fieldsReset (fs : List Fld) : Word := fs.foldl (fun w f => setFld w f.hi f.lo f.rst) 0

/-- The reset value of a register, the resets by index among them (CORE_WIN.BASE, TMR_IVL, PWR_SMCFG, Table 109). -/
def Reg.reset : Reg → Word
  | .coreWin _ t => setFld (fieldsReset (Reg.fields (.coreWin 0 t))) 15 8 (t * 0x10)
  | .tmrIvl _ h => if h = 0 then 16000 else 0
  | .pwrSmcfg r => setFld (fieldsReset (Reg.fields (.pwrSmcfg r))) 15 0 (if r = 1 then 520 else 0)
  | .pwrSmthr r =>
    match r with
    | 0 => setFld (BitVec.ofNat 32 705) 31 16 795
    | 1 => setFld (BitVec.ofNat 32 755) 31 16 845
    | r + 2 => if Config.bank18 r then setFld (BitVec.ofNat 32 1710) 31 16 1890 else setFld (BitVec.ofNat 32 3135) 31 16 3465
  | r => fieldsReset r.fields

/-- What the register store reads at an offset that it does not list. -/
def regReset (o : Nat) : Word :=
  match regAt o with
  | some r => r.reset
  | none => 0

end Sys2Proof.Machine
end

