-- ==== Sys2Proof/Machine/State.lean ====
section
/-! DEFINITION. The state of the block: every register, memory, queue, counter and mode that the spec gives it, as plain
data, with the queue of waiting commands; the reasons a step can stop; and the machine right after reset. -/
namespace Sys2Proof.Machine

/-- The operating modes (R16, Table 10). -/
inductive Mode where
  | off | retain | configure | rehearse | run | hold
deriving DecidableEq, Repr

/-- The code of a mode in CPX_CTL and CPX_STAT (R16). -/
def Mode.code : Mode → Nat
  | .off => 0
  | .retain => 1
  | .configure => 2
  | .rehearse => 3
  | .run => 4
  | .hold => 5

/-- What kind of OFF the complex is in (R16, R366); `live` while the mode is not OFF. -/
inductive OffPhase where
  | live | unpowered | heldCold | heldWarm | initCold | initWarm | failed
deriving DecidableEq, Repr

/-- The source of the present HOLD (CPX_STAT.HOLD_SRC). -/
inductive HoldSrc where
  | none | cpxCtl | camin | order
deriving DecidableEq, Repr

/-- Thread states (R59, Table 19). -/
inductive TState where
  | idle | ready | waiting | dozing | faulted | halted
deriving DecidableEq, Repr

/-- The code of a thread state (Table 19). -/
def TState.code : TState → Nat
  | .idle => 0
  | .ready => 1
  | .waiting => 2
  | .dozing => 3
  | .faulted => 4
  | .halted => 5

/-- What a DOZING thread waits for: its domain's boundary (R39), or an absolute Commons time with the address that follows
the DOZE (R137, R128). -/
inductive Doze where
  | none | swath | til (t : DWord) (nxt : Word)
deriving DecidableEq, Repr

/-- One level of hardware loop (R127). -/
structure Loop where
  ls : Word
  le : Word
  lc : Word
deriving DecidableEq, Repr

/-- A store in a relaxed thread's buffer (R176): its space (0 near, 1 shared, 2 process image), the memory cells it writes, and
for a process-image store the generation it belongs to (R223). -/
structure StoreEnt where
  space : Nat
  cells : List (Nat × Byte)
  gen : Option (Nat × Nat)
deriving DecidableEq, Repr

/-- A thread's part in a swath (R383, R45): the domain, the swath, its boundary cycle, whether the ledger has reported or
exempted the thread in it, whether the thread has been HALTED in the present swath (R51), how many boundaries of the domain
have come since, and whether the thread has been started afresh since. -/
structure Part where
  dom : Nat
  swath : Word
  start : Nat
  done : Bool
  halted : Bool
  passed : Nat
  restarted : Bool
deriving DecidableEq, Repr

/-- A DIV in progress (R76, R148, R156): the cycle it completes and what it then writes: Q, REM, FLG where S = 1, the
pointer and cell updates, one list of cells each, and the address that follows it. -/
structure DivPend where
  doneAt : Nat
  q : DWord
  rem : DWord
  flg : Option Word
  upd : List (List (Nat × Byte))
  nxt : Word
deriving DecidableEq, Repr

/-- The target a WAITING thread awaits (R204, Table 66): the kind, G, and the object number. -/
structure WaitOn where
  kind : Nat
  glob : Bool
  obj : Nat
deriving DecidableEq, Repr

/-- A thread context (R59, R87, R98, R127, R148, R149) with the model's own bookkeeping of its issue and swath. -/
structure Thread where
  st : TState
  prior : TState
  cause : Nat
  bp : Nat
  pc : Word
  flg : Word
  plb : Word
  p : DWord
  acc : BitVec 80
  q : DWord
  rem : DWord
  fpc : Word
  fps : Word
  l0 : Loop
  l1 : Loop
  l2 : Loop
  l3 : Loop
  /-- NEXT of R56. -/
  next : Nat
  doze : Doze
  /-- DOZE instructions that an event interrupted, by PC, with their original wake times (R79). -/
  again : List (Word × DWord)
  waitOn : Option WaitOn
  /-- A stop to IDLE pending at the next instruction boundary (R384): the cycle of its acceptance. -/
  stopReq : Option Nat
  /-- A halt pending at the next instruction boundary: its CAUSE and the cycle of its acceptance (R384). -/
  haltReq : Option (Nat × Nat)
  /-- The cycle in which the latest CORE_TCMD for the thread was accepted (R138). -/
  tcmd : Option Nat
  /-- A debug STEP in progress (R374). -/
  step : Bool
  /-- The breakpoint check is passed once after a resume (R378). -/
  skipBp : Bool
  div : Option DivPend
  /-- The open membership: context and generation, counted without the wrap (R219). -/
  mem : Option (Nat × Nat)
  part : Option Part
  sb : List StoreEnt
  /-- The first cycle in which later writes may be performed, after a fence (R175). -/
  fence : Nat
  /-- The instruction-cache line whose fill the thread awaits (R69); 2^26 more when CACHE.INV came during the fill (R142). -/
  miss : Option Nat
deriving DecidableEq, Repr

/-- A loop level as reset leaves it. -/
def Loop.reset : Loop := ⟨0, 0, 0⟩

/-- A thread as reset leaves it (R368, Table 116). -/
def Thread.reset : Thread :=
  { st := .idle, prior := .idle, cause := 0, bp := 0, pc := 0, flg := 0, plb := 0, p := 0, acc := 0, q := 0, rem := 0,
    fpc := 0, fps := 0, l0 := .reset, l1 := .reset, l2 := .reset, l3 := .reset, next := 0, doze := .none, again := [],
    waitOn := none, stopReq := none, haltReq := none, tcmd := none, step := false, skipBp := false, div := none, mem := none,
    part := none, sb := [], fence := 0, miss := none }

/-- An instruction-cache line held by a core: its chip address / 64 and its way (R69), most recently used first. -/
structure CacheLine where
  line : Nat
  way : Nat
deriving DecidableEq, Repr

/-- A branch target buffer entry (R69): thread, branch address, predicted target; most recently used first. -/
structure BtbEnt where
  thr : Nat
  pc : Word
  tgt : Word
deriving DecidableEq, Repr

/-- A core beside its threads: spill pointer (R56), the cycle of its last issue, cache and BTB (R69), doze state code
and the time or cycle at which a wake ends (R340, R344), a wake of R345 and the threads whose issue it delays, the DSRD
staging words (R379). -/
structure Core where
  rptr : Nat
  issued : Option Nat
  cache : List CacheLine
  btb : List BtbEnt
  dz : Nat
  wakeAt : Option Nat
  slow : Bool
  delayed : List Nat
  dsrd : DWord
deriving DecidableEq, Repr

/-- A core as reset leaves it: GATE (PWR_DZSTAT.ST). -/
def Core.reset : Core :=
  { rptr := 0, issued := none, cache := [], btb := [], dz := 1, wakeAt := none, slow := false, delayed := [], dsrd := 0 }

/-- A setting that the fetch, issue, event and rounding logic still sees with its old value (R72, R150). -/
inductive LagKey where
  | slot (core e : Nat)
  | tcb (g : Nat)
  | win (g : Nat)
  | evv (g : Nat)
  | fpc (g : Nat)
deriving DecidableEq, Repr

/-- The old value of a lagging setting, in use until the cycle before `til`. -/
structure Lag where
  key : LagKey
  old : Word
  til : Nat
deriving DecidableEq, Repr

/-- A posted write (R174): writing core and thread, ready cycle, the cycle it is performed in, the bank that names its
owned cycles (`none` a shared bank, `some` a process-image bank), the cells, and the generation it belongs to (R233). -/
structure Posted where
  core : Nat
  thr : Nat
  ready : Nat
  perf : Nat
  pi : Bool
  bank : Nat
  cells : List (Nat × Byte)
  gen : Option (Nat × Nat)
deriving DecidableEq, Repr

/-- The word that a register of class T has in force while its shadow differs (R9, R10): the value in force, the shadow
that an earlier write left for the next boundary if a write of the boundary cycle follows it, and the latest write's cycle. -/
structure Held where
  force : Word
  mid : Option Word
  cyc : Nat
deriving DecidableEq, Repr

/-- A message of a channel (R207): words held, closed, TRUNCATED, writer, and whether it is ABANDONED (R209). -/
structure Msg where
  len : Nat
  closed : Bool
  trunc : Bool
  writer : Nat
  aband : Bool
deriving DecidableEq, Repr

/-- A channel (R207, R211): the ring of 16 words, the ring position of the head message, the messages oldest first, the
reader that reserves the head message, and its read cursor. -/
structure Chan where
  ring : List (Nat × Word)
  head : Nat
  msgs : List Msg
  res : Option Nat
  cur : Nat
deriving DecidableEq, Repr

/-- A channel as reset leaves it. -/
def Chan.reset : Chan := { ring := [], head := 0, msgs := [], res := none, cur := 0 }

/-- An event flag: its value from cycle `since` on, the value that cycles before `since` read, and the cycle in which the
latest set takes effect (R141, R76). -/
structure EFlag where
  val : Bool
  since : Nat
  old : Bool
  last : Nat
deriving DecidableEq, Repr

/-- Context states (R218, Table 72). -/
inductive CtxSt where
  | free | opened | complete | aborted
deriving DecidableEq, Repr

/-- A sheaf context (R218, R219, R226): state, rehearsal mark, counts, generation (GEN, and its count without the wrap), the
threads that joined it, the cycle it was opened in, and the held actions in the order of acceptance. -/
structure Ctx where
  st : CtxSt
  reh : Bool
  joined : Nat
  closed : Nat
  gen : BitVec 8
  uid : Nat
  members : List Nat
  cyc : Nat
  held : List (Nat × DWord)
deriving DecidableEq, Repr

/-- A context as reset leaves it. -/
def Ctx.reset : Ctx := { st := .free, reh := false, joined := 0, closed := 0, gen := 0, uid := 0, members := [], cyc := 0, held := [] }

/-- A commit that the sheaf unit is completing (R233, R240): its instant's cycle, the fast-page word it may write (domain
and swath number), the actions to deliver in order, and whether they are delivered or discarded (R237). -/
structure Commit where
  start : Nat
  page : Option (Nat × Word)
  held : List (Nat × DWord)
  deliver : Bool
deriving DecidableEq, Repr

/-- A domain beside its registers: the time of its next boundary, the number of the swath that it begins, and the cycle of
its latest boundary (R32, R41). -/
structure Dom where
  next : DWord
  nextNum : Word
  bcyc : Nat
deriving DecidableEq, Repr

/-- A domain as reset leaves it. -/
def Dom.reset : Dom := { next := 0, nextNum := 0, bcyc := 0 }

/-- A block mover (R185, R187, R45): a chain in progress at the descriptor of shared offset `desc`, whether its last descriptor
is copied, whether HOLD stopped it between descriptors, whether it has finished in the present swath of its domain, whether
the ledger has reported it there, and whether the ledger checks it there at all (R44). -/
structure Mover where
  on : Bool
  desc : Nat
  last : Bool
  held : Bool
  fin : Bool
  done : Bool
  chk : Bool
deriving DecidableEq, Repr

/-- A mover as reset leaves it. -/
def Mover.reset : Mover :=
  { on := false, desc := 0, last := false, held := false, fin := false, done := false, chk := false }

/-- Commons time (R241, R242): count, era, fraction, the time of the previous cycle, the units that the cycle before it
advanced by, the steps accepted in the present cycle and whether a slew unit falls in it, a committed CMN_TIME (R252), the
cycles counted toward the next slew unit (R248), the touch that the watchdog counts from (R253), the time HOLD was entered. -/
structure Commons where
  time : DWord
  /-- What the present cycle adds to time and fraction by the rate in force, in 2^-32 units (R242, R247). -/
  adv : Int
  era : Half
  frac : Word
  prev : DWord
  v : Int
  u : Int
  set : Option DWord
  slewCnt : Nat
  touch : DWord
  holdT : DWord
deriving DecidableEq, Repr

/-- The Commons as reset leaves it (R243). -/
def Commons.reset : Commons :=
  { time := 0, adv := 16 * 2 ^ 32, era := 0, frac := 0, prev := 0, v := 0, u := 0, set := none, slewCnt := 0, touch := 0, holdT := 0 }

/-- A timer channel (R257 to R264): armed, before its first fire, the committed CMP, NEXT, LAST, the interval in force, the CLOCK count,
LEVEL, the capture FIFO, and the cycle of its latest fire (R264, the slaves of that cycle). -/
structure Timer where
  armed : Bool
  first : Bool
  cmp : DWord
  next : DWord
  last : DWord
  ivl : DWord
  clk : Word
  level : Bool
  caps : List DWord
  fired : Option Nat
  /-- A capture of this cycle that found the FIFO full (R263). -/
  lost : Option DWord
deriving DecidableEq, Repr

/-- A timer as reset leaves it: IVL 16,000. -/
def Timer.reset : Timer :=
  { armed := false, first := false, cmp := 0, next := 0, last := 0, ivl := 16000, clk := 0, level := false, caps := [],
    fired := none, lost := none }

/-- Sequencer states (R270, Table 85). -/
inductive PSt where
  | stopped | running | waiting | stalled | held
deriving DecidableEq, Repr

/-- The code of a sequencer state (Table 85). -/
def PSt.code : PSt → Nat
  | .stopped => 0
  | .running => 1
  | .waiting => 2
  | .stalled => 3
  | .held => 4

/-- A shift register (R285): data, BITS, and the cycle before which the latest port access has no effect (R286). -/
structure Shift where
  data : DWord
  bits : Nat
  since : Nat
deriving DecidableEq, Repr

/-- A period counter (R287 to R289): COUNT, CMPL, the cycle it started to run in, the cycle of its latest wrap, the cycle of
its latest tick or counted edge, and COUNT before that cycle. -/
structure Counter where
  count : Half
  cmpl : Half
  start : Nat
  wrap : Option Nat
  ticked : Option Nat
  base : Half
deriving DecidableEq, Repr

/-- A pending reflex (R293): the cycle it fires in, the pair, the phase, and the level of the edge. -/
structure Reflex where
  cyc : Nat
  pair : Nat
  ph : Nat
  lvl : Bool
deriving DecidableEq, Repr

/-- A write of a value register that is applied in the present cycle (R290): order of its source, register, value. -/
structure VWrite where
  pri : Nat
  reg : Nat
  val : Half
deriving DecidableEq, Repr

/-- A pin sequencer (R270 to R295): program engine, DLY, the cycle its engine last executed in, trigger bits with the
cycle each was last set in, shift registers, counters, action FIFO and reservations (R281), reflexes, value writes. -/
structure Psq where
  st : PSt
  pc : Byte
  dly : Option Nat
  ran : Option Nat
  trig : Byte
  trigNew : Byte
  trigCyc : Nat
  sh0 : Shift
  sh1 : Shift
  c0 : Counter
  c1 : Counter
  fifo : List DWord
  rsvd : Nat
  rfx : List Reflex
  vq : List VWrite
  actLo : Word
  /-- A STOP through a port, which takes effect in the next cycle (R294). -/
  stopping : Bool
deriving DecidableEq, Repr

/-- A sequencer as reset leaves it (R271, Table 116). -/
def Psq.reset : Psq :=
  { st := .stopped, pc := 0, dly := none, ran := none, trig := 0, trigNew := 0, trigCyc := 0, sh0 := ⟨0, 0, 0⟩,
    sh1 := ⟨0, 0, 0⟩, c0 := ⟨0, 0, 0, none, none, 0⟩,
    c1 := ⟨0, 0, 0, none, none, 0⟩, fifo := [], rsvd := 0, rfx := [], vq := [], actLo := 0, stopping := false }

/-- What a change does to a lane's output (R280). -/
inductive ChgOp where
  | val (b : Bool)
  | tgl
  | en (b : Bool)
deriving DecidableEq, Repr

/-- A change of the present cycle (R280): phase, order among sources at one phase, effect. -/
structure Chg where
  ph : Nat
  pri : Nat
  op : ChgOp
deriving DecidableEq, Repr

/-- An edge that the filter has not decided (R269): its cycle, its new level, its time. -/
structure EdgeP where
  cyc : Nat
  lvl : Bool
  time : DWord
deriving DecidableEq, Repr

/-- A lane (R267 to R269, R291): output value and enable at the start of the cycle and the changes of the cycle; the level L
with the cycle and phase of its latest change; FL before the recognised edges that are kept, and those edges (cycle, level, time); the
edge in the filter; the captures that arrive (cycle, entry) and the capture FIFO. -/
structure Lane where
  ov : Bool
  oe : Bool
  chg : List Chg
  lvl : Bool
  lvlCyc : Option Nat
  lvlPh : Nat
  flBase : Bool
  seen : List EdgeP
  edge : Option EdgeP
  arr : List (Nat × Word × Bool)
  caps : List (Word × Bool)
deriving DecidableEq, Repr

/-- A lane as reset leaves it. -/
def Lane.reset : Lane :=
  { ov := false, oe := false, chg := [], lvl := false, lvlCyc := none, lvlPh := 0, flBase := false, seen := [], edge := none,
    arr := [], caps := [] }

/-- A pin (R302, R304, R306, R308): synchronised level and the cycle of its change, the active user (KIND, IDX) as last
chosen, in a park the cycle from which that user drives, the outputs that HOLD freezes, and in REHEARSE the value to present. -/
structure Pin where
  lvl : Bool
  lvlCyc : Option Nat
  user : Option (Nat × Nat)
  slot : Nat
  parkTil : Option Nat
  frz : Option (Bool × Bool)
  reh : Option (Bool × Bool)
deriving DecidableEq, Repr

/-- A pin as reset leaves it. -/
def Pin.reset : Pin :=
  { lvl := false, lvlCyc := none, user := none, slot := 0, parkTil := none, frz := none, reh := none }

/-- A loaded head of a flow queue (R327, Table 102): its descriptor's words 0 to 2, and the frame in the transmit FIFO. -/
structure FqHead where
  w0 : Word
  time : Word
  frame : List Byte
deriving DecidableEq, Repr

/-- What an MBU last put on the medium: the octets after the SFD, and the raw stamp (R320). -/
structure TxFrame where
  octets : List Byte
  raw : DWord
deriving DecidableEq, Repr

/-- A descriptor whose result waits to be written back (R331): queue, egress stamp, RES. -/
structure TxDone where
  queue : Nat
  stamp : DWord
  res : Nat
deriving DecidableEq, Repr

/-- A frame that is being forwarded (R332): the raw egress stamp and the egress stamp of the copy, and the source bytes of
the insert entries in force, read for it (R337). -/
structure Fwd where
  raw : DWord
  stamp : DWord
  splice : Bool
  inserts : List (Nat × List Byte)
deriving DecidableEq, Repr

/-- An MBU beside its registers (R318, R323, R327, R329, R332): frames counted for SEQ, the coding that PROBE tries, the time
at which its line is free, the frame last sent, descriptors whose results wait to be written, the frame it forwards to its
partner, a SerDes measurement in progress, and the queues whose head descriptor is to be read. -/
structure Mbu where
  seq : Word
  probe : Nat
  busy : Option DWord
  sent : Option TxFrame
  fin : List TxDone
  fwd : Option Fwd
  tdr : Bool
  want : List Nat
deriving DecidableEq, Repr

/-- An MBU as reset leaves it. -/
def Mbu.reset : Mbu :=
  { seq := 0, probe := 0, busy := none, sent := none, fin := [], fwd := none, tdr := false, want := [] }

/-- Phases of a Gleaner window (R193, R195). -/
inductive GPhase where
  | idle | copy | test | restore | wait
deriving DecidableEq, Repr

/-- The Gleaner (R193 to R195): phase, region, window, the cycle at which a retry begins, and whether the restore in
progress is followed by a retry of the window. -/
structure Gleaner where
  ph : GPhase
  reg : Nat
  win : Nat
  retry : Nat
  yielded : Bool
deriving DecidableEq, Repr

/-- The Gleaner as reset leaves it (R368). -/
def Gleaner.reset : Gleaner := { ph := .idle, reg := 0, win := 0, retry := 0, yielded := false }

/-- A report on its way to the fault unit (R351): the cycle the fault unit receives it, its code, source, detail words and
rehearsal mark. -/
structure Report where
  cyc : Nat
  code : Nat
  skind : Nat
  sidx : Nat
  da : Word
  db : Word
  reh : Bool
deriving DecidableEq, Repr

/-- A record of the fault log (R355). -/
structure Record where
  code : Nat
  reh : Bool
  ord : Bool
  queued : Bool
  ordnum : Nat
  skind : Nat
  sidx : Nat
  da : Word
  db : Word
  time : DWord
  seq : Half
deriving DecidableEq, Repr

/-- A pending standing order (R361, R362): its number, the source of the record that made it pending, and that cycle. -/
structure Pend where
  ord : Nat
  skind : Nat
  sidx : Nat
  cyc : Nat
deriving DecidableEq, Repr

/-- Counts of consecutive samples out of and in the window of a supply monitor (R349). -/
structure Supply where
  bad : Nat
  good : Nat
deriving DecidableEq, Repr

/-- An error mark of a SECDED granule (R189 to R191): `fixable` correctable, `bad` uncorrectable. -/
inductive EccMark where
  | clean | fixable | bad
deriving DecidableEq, Repr

/-- The reasons a step stops with a fault. -/
inductive Fault where
  /-- Raised by SUPPLY_SAMPLE for a monitor that Table 109 does not have (10 to 15). Safe: the model stops where the
  hardware has no such unit. -/
  | noSuchMonitor
deriving DecidableEq, Repr

/-- The reasons a step is refused. -/
inductive Refusal where
  /-- An instruction without a meaning in this model. Safe: nothing is claimed of it. -/
  | notModelled (mnemonic : String)
deriving DecidableEq, Repr

/-- The state of the block. Families of like things are sparse tables (`Tab`): registers by window offset, threads by global
number, lanes by 8 × sequencer + lane, locks by 256 × cluster + lock (the global unit from 0x800 up), event flags by
256 × cluster + flag, channels by 32 × cluster + channel (the global unit from 0x100 up), ports by 256 × core + pin, heads by
64 × MBU + queue; latches, staging words and read data by access path. -/
structure State where
  /-- Core cycles since reset, the c of R56 (DESIGN CHOICE: the model's own count). -/
  cycle : Nat
  /-- The slot pointer of every core (R54, R169). -/
  sptr : Nat
  mode : Mode
  off : OffPhase
  /-- The pending mode request (R19) and the cycle it was accepted in. -/
  pend : Option Mode
  pendCyc : Nat
  heldFrom : Mode
  holdSrc : HoldSrc
  settled : Bool
  /-- The register store: every register word that no unit below holds. -/
  regs : Tab Word
  /-- Values in force of class-T registers whose shadow differs (R10). -/
  held : Tab (Option Held)
  /-- The block's SRAM (R165), the program RAM of the sequencers (R273), side store and Gleaner shadow. -/
  ram : List Host.Cell
  /-- Chip memory, outside the block (R165). -/
  chip : List Host.Cell
  ecc : Tab EccMark
  scrubs : List Nat
  /-- The live copy of each process-image line: false copy 0 (R218). -/
  ver : Tab Bool
  /-- The context that claims each line. -/
  claims : Tab (Option Nat)
  /-- The side store: context and line of each entry in use (R222). -/
  side : Tab (Option (Nat × Nat))
  ctxs : Tab Ctx
  commits : List Commit
  threads : Tab Thread
  cores : Tab Core
  lags : List Lag
  posted : List Posted
  /-- The bytes of bit RAM that threads have written in this cycle, as they stood at its start (R104). -/
  bitOld : List (Nat × Byte)
  /-- The bits of private ports that threads have written in this cycle, as they stood at its start (R307). -/
  portOld : List (Nat × Bool)
  locks : Tab (Option Nat)
  flags : Tab EFlag
  chans : Tab Chan
  /-- Deadlocked sets already reported: 0 to 7 the clusters, 8 + g the wait groups (R215). -/
  dlDone : List Nat
  doms : Tab Dom
  movers : Tab Mover
  commons : Commons
  timers : Tab Timer
  psqs : Tab Psq
  lanes : Tab Lane
  pins : Tab Pin
  ports : Tab Bool
  /-- The pin under reflectometry (R310). -/
  tdrPin : Option Nat
  mbus : Tab Mbu
  heads : Tab (Option FqHead)
  gleaner : Gleaner
  reports : List Report
  log : List Record
  seq : Half
  orders : List Pend
  /-- The cycle of the latest execution of a standing order: one a cycle (R362). -/
  ordered : Option Nat
  /-- A HOLD that a standing order or a breakpoint requests, and the cycle in which it is accepted (R362, R377). -/
  holdReq : Option (HoldSrc × Nat)
  supply : Tab Supply
  latch : Tab Word
  stage : Tab Word
  /-- The read data last delivered on each path (R7): 0 host, 1 Camin port, 2 servo mailbox. -/
  rdata : Tab DWord
  /-- The second half of a cycle is next (log 1): the model's own. -/
  half : Bool
  /-- The commands that wait, first in, first out. -/
  pending : List Instr
deriving DecidableEq, Repr

/-- The machine right after reset: the end of power-on initialisation (R366, R368, Table 117), in CONFIGURE. -/
def State.reset : State :=
  { cycle := 0, sptr := 0, mode := .configure, off := .live, pend := none, pendCyc := 0, heldFrom := .off,
    holdSrc := .none, settled := false, regs := [], held := [], ram := [], chip := [], ecc := [], scrubs := [], ver := [],
    claims := [], side := [], ctxs := [], commits := [], threads := [], cores := [], lags := [], posted := [], bitOld := [],
    portOld := [],
    locks := [], flags := [], chans := [], dlDone := [], doms := [], movers := [], commons := Commons.reset,
    timers := [], psqs := [], lanes := [], pins := [], ports := [], tdrPin := none, mbus := [], heads := [],
    gleaner := Gleaner.reset, reports := [], log := [], seq := 0, orders := [], ordered := none, holdReq := none, half := false, supply := [], latch := [], stage := [],
    rdata := [], pending := [] }

end Sys2Proof.Machine
end

