-- ==== Sys2Proof/Machine/Ops.lean ====
section
/-! DEFINITION. The named operations over the state that every unit shares: the accessors of each family, the register
store and its fields, counters, fault reports (R351), event flags (R141, R205). -/
namespace Sys2Proof.Machine

/-! ### Families -/

def State.thr (s : State) (g : Nat) : Thread := Tab.get (fun _ => Thread.reset) s.threads g
def State.setThr (s : State) (g : Nat) (t : Thread) : State := { s with threads := Tab.put (fun _ => Thread.reset) s.threads g t }
def State.core (s : State) (n : Nat) : Core := Tab.get (fun _ => Core.reset) s.cores n
def State.setCore (s : State) (n : Nat) (c : Core) : State := { s with cores := Tab.put (fun _ => Core.reset) s.cores n c }
def State.ctx (s : State) (x : Nat) : Ctx := Tab.get (fun _ => Ctx.reset) s.ctxs x
def State.setCtx (s : State) (x : Nat) (c : Ctx) : State := { s with ctxs := Tab.put (fun _ => Ctx.reset) s.ctxs x c }
def State.dom (s : State) (d : Nat) : Dom := Tab.get (fun _ => Dom.reset) s.doms d
def State.setDom (s : State) (d : Nat) (x : Dom) : State := { s with doms := Tab.put (fun _ => Dom.reset) s.doms d x }
def State.mover (s : State) (m : Nat) : Mover := Tab.get (fun _ => Mover.reset) s.movers m
def State.setMover (s : State) (m : Nat) (x : Mover) : State := { s with movers := Tab.put (fun _ => Mover.reset) s.movers m x }
def State.timer (s : State) (ch : Nat) : Timer := Tab.get (fun _ => Timer.reset) s.timers ch
def State.setTimer (s : State) (ch : Nat) (x : Timer) : State := { s with timers := Tab.put (fun _ => Timer.reset) s.timers ch x }
def State.psq (s : State) (q : Nat) : Psq := Tab.get (fun _ => Psq.reset) s.psqs q
def State.setPsq (s : State) (q : Nat) (x : Psq) : State := { s with psqs := Tab.put (fun _ => Psq.reset) s.psqs q x }
def State.lane (s : State) (q l : Nat) : Lane := Tab.get (fun _ => Lane.reset) s.lanes (8 * q + l)
def State.setLane (s : State) (q l : Nat) (x : Lane) : State :=
  { s with lanes := Tab.put (fun _ => Lane.reset) s.lanes (8 * q + l) x }
def State.pin (s : State) (p : Nat) : Pin := Tab.get (fun _ => Pin.reset) s.pins p
def State.setPin (s : State) (p : Nat) (x : Pin) : State := { s with pins := Tab.put (fun _ => Pin.reset) s.pins p x }
/-- The value of core `n`'s private output port for pin `p` (R307). -/
def State.port (s : State) (n p : Nat) : Bool := Tab.get (fun _ => false) s.ports (256 * n + p)
def State.setPort (s : State) (n p : Nat) (b : Bool) : State :=
  { s with ports := Tab.put (fun _ => false) s.ports (256 * n + p) b }
/-- A thread writes a bit of its core's private port: the lane side sees it from the next cycle on (R307). -/
def State.drivePort (s : State) (n p : Nat) (b : Bool) : State :=
  let s := s.setPort n p b |> fun t =>
    if s.portOld.any fun e => e.1 == 256 * n + p then t else { t with portOld := t.portOld ++ [(256 * n + p, s.port n p)] }
  s
/-- What a private port presents at the lane side in this cycle (R307). -/
def State.portOut (s : State) (n p : Nat) : Bool :=
  match s.portOld.find? fun e => e.1 == 256 * n + p with
  | some e => e.2
  | none => s.port n p
def State.mbu (s : State) (m : Nat) : Mbu := Tab.get (fun _ => Mbu.reset) s.mbus m
def State.setMbu (s : State) (m : Nat) (x : Mbu) : State := { s with mbus := Tab.put (fun _ => Mbu.reset) s.mbus m x }
/-- The loaded head of flow queue `j` of MBU `m` (R327). -/
def State.head (s : State) (m j : Nat) : Option FqHead := Tab.get (fun _ => none) s.heads (64 * m + j)
def State.setHead (s : State) (m j : Nat) (x : Option FqHead) : State :=
  { s with heads := Tab.put (fun _ => none) s.heads (64 * m + j) x }
def State.sup (s : State) (r : Nat) : Supply := Tab.get (fun _ => ⟨0, 0⟩) s.supply r
def State.setSup (s : State) (r : Nat) (x : Supply) : State := { s with supply := Tab.put (fun _ => ⟨0, 0⟩) s.supply r x }
/-- The holder of a lock; key 256 × cluster + lock, the global unit from 0x800 up (R199). -/
def State.lock (s : State) (k : Nat) : Option Nat := Tab.get (fun _ => none) s.locks k
def State.setLock (s : State) (k : Nat) (x : Option Nat) : State := { s with locks := Tab.put (fun _ => none) s.locks k x }
/-- A channel; key 32 × cluster + channel, the global unit from 0x100 up (R199). -/
def State.chan (s : State) (k : Nat) : Chan := Tab.get (fun _ => Chan.reset) s.chans k
def State.setChan (s : State) (k : Nat) (x : Chan) : State := { s with chans := Tab.put (fun _ => Chan.reset) s.chans k x }
/-- The live copy of a line (R218). -/
def State.live (s : State) (line : Nat) : Bool := Tab.get (fun _ => false) s.ver line
def State.setLive (s : State) (line : Nat) (b : Bool) : State := { s with ver := Tab.put (fun _ => false) s.ver line b }
/-- The context that claims a line. -/
def State.claim (s : State) (line : Nat) : Option Nat := Tab.get (fun _ => none) s.claims line
def State.setClaim (s : State) (line : Nat) (x : Option Nat) : State :=
  { s with claims := Tab.put (fun _ => none) s.claims line x }
/-- The context and line of a side-store entry. -/
def State.sideEnt (s : State) (e : Nat) : Option (Nat × Nat) := Tab.get (fun _ => none) s.side e
def State.setSide (s : State) (e : Nat) (x : Option (Nat × Nat)) : State :=
  { s with side := Tab.put (fun _ => none) s.side e x }
def State.latchAt (s : State) (k : Nat) : Word := Tab.get (fun _ => 0) s.latch k
def State.setLatch (s : State) (k : Nat) (v : Word) : State := { s with latch := Tab.put (fun _ => 0) s.latch k v }
def State.stageAt (s : State) (k : Nat) : Word := Tab.get (fun _ => 0) s.stage k
def State.setStage (s : State) (k : Nat) (v : Word) : State := { s with stage := Tab.put (fun _ => 0) s.stage k v }

/-- The index of an access path. -/
def pathIdx : Path → Nat
  | .host => 0
  | .camin => 1
  | .mailbox => 2

/-- The read data last delivered on a path. -/
def State.readData (s : State) (p : Path) : DWord := Tab.get (fun _ => 0) s.rdata (pathIdx p)
def State.setRead (s : State) (p : Path) (v : DWord) : State := { s with rdata := Tab.put (fun _ => 0) s.rdata (pathIdx p) v }

/-! ### Registers -/

/-- The word that the register store holds for a register. -/
def State.reg (s : State) (r : Reg) : Word := Tab.get regReset s.regs r.off
/-- The register store takes a word. -/
def State.setReg (s : State) (r : Reg) (v : Word) : State := { s with regs := Tab.put regReset s.regs r.off v }
/-- Field [hi:lo] of a stored register. -/
def State.rf (s : State) (r : Reg) (hi lo : Nat) : Nat := fld (s.reg r) hi lo
/-- Bit `i` of a stored register. -/
def State.rb (s : State) (r : Reg) (i : Nat) : Bool := bit (s.reg r) i
/-- Field [hi:lo] of a stored register takes `v`. -/
def State.setRf (s : State) (r : Reg) (hi lo v : Nat) : State := s.setReg r (setFld (s.reg r) hi lo v)
/-- Bit `i` of a stored register takes `b`. -/
def State.setRb (s : State) (r : Reg) (i : Nat) (b : Bool) : State := s.setReg r (setBit (s.reg r) i b)
/-- A counter register counts `k`, saturating. -/
def State.bump (s : State) (r : Reg) (k : Nat) : State := s.setReg r (satAdd (s.reg r) k)
/-- A count field counts `k`, saturating. -/
def State.bumpRf (s : State) (r : Reg) (hi lo k : Nat) : State := s.setReg r (satFld (s.reg r) hi lo k)
/-- The 64-bit value of a pair of registers given by the `h` index. -/
def State.reg64 (s : State) (r : Nat → Reg) : DWord := mk64 (s.reg (r 1)) (s.reg (r 0))
def State.setReg64 (s : State) (r : Nat → Reg) (v : DWord) : State := (s.setReg (r 0) (lo32 v)).setReg (r 1) (hi32 v)

/-- What a register of class T has in force (R9, R10). -/
def State.inForce (s : State) (r : Reg) : Word :=
  match Tab.get (fun _ => none) s.held r.off with
  | some h => h.force
  | none => s.reg r

/-- Field [hi:lo] of a class-T register as it is in force. -/
def State.ff (s : State) (r : Reg) (hi lo : Nat) : Nat := fld (s.inForce r) hi lo

def State.heldAt (s : State) (r : Reg) : Option Held := Tab.get (fun _ => none) s.held r.off
def State.setHeld (s : State) (r : Reg) (h : Option Held) : State :=
  { s with held := Tab.put (fun _ => none) s.held r.off h }

/-- A class-T register takes a new shadow word; what is in force stays (R10). -/
def State.setShadow (s : State) (r : Reg) (v : Word) : State :=
  let cur := s.reg r
  let h : Held :=
    match s.heldAt r with
    | none => ⟨cur, none, s.cycle⟩
    | some h => if h.cyc < s.cycle then ⟨h.force, some cur, s.cycle⟩ else h
  (s.setReg r v).setHeld r (some h)

/-- The shadow of a class-T register comes into force at a boundary: what an earlier cycle wrote, and not what the boundary
cycle itself wrote (R10). -/
def State.promote (s : State) (r : Reg) : State :=
  match s.heldAt r with
  | none => s
  | some h =>
    if h.cyc < s.cycle then s.setHeld r none
    else match h.mid with
      | some m => s.setHeld r (some ⟨m, none, h.cyc⟩)
      | none => s

/-! ### Time and cycles -/

/-- Commons time of the present cycle (R241). -/
def State.now (s : State) : DWord := s.commons.time
/-- The low 32 bits of the present time. -/
def State.now32 (s : State) : Word := lo32 s.now
/-- The units that the present cycle spans by its own advance (R267). -/
def State.span (s : State) : Nat :=
  ((s.commons.adv + s.commons.frac.toNat) / (2 ^ 32 : Int) + s.commons.u).toNat
/-- A short time is reached at time `t` (R256). -/
def reached (t x : Word) : Bool := atOrAfter t x
/-- The complex runs threads and units (REHEARSE or RUN). -/
def State.active (s : State) : Bool := s.mode == .rehearse || s.mode == .run

/-! ### Reports (R351) -/

/-- A unit detects a fault in the present cycle: its report reaches the fault unit in the next (R49, R351). In RETAIN the
only reports are SUPPLY and TAMPER_WIPE (R355). -/
def State.report (s : State) (code skind sidx : Nat) (da db : Word) (reh : Bool := false) : State :=
  if s.mode = .off ∨ (s.mode = .retain ∧ code ≠ 0x70 ∧ code ≠ 0x72) then s
  else { s with reports := s.reports ++ [⟨s.cycle + 1, code, skind, sidx, da, db, reh⟩] }

/-- A note that the fault unit only counts (ECC_CE, R351). -/
def State.noteCe (s : State) : State := s.bump (.fltCnt 0x40) 1

/-! ### Event flags (R141, R205) -/

/-- An event flag that has not been set. -/
def EFlag.zero : EFlag := ⟨false, 0, false, 0⟩
/-- The flag record of flag `f` of cluster `c`. -/
def State.flag (s : State) (c f : Nat) : EFlag := Tab.get (fun _ => EFlag.zero) s.flags (256 * c + f)
def State.putFlag (s : State) (c f : Nat) (x : EFlag) : State :=
  { s with flags := Tab.put (fun _ => EFlag.zero) s.flags (256 * c + f) x }
/-- The flag as a read in the present cycle sees it. -/
def State.flagNow (s : State) (c f : Nat) : Bool :=
  let x := s.flag c f
  if s.cycle < x.since then x.old else x.val
/-- The flag as it stands after every change made so far, of this cycle too. -/
def State.flagSet (s : State) (c f : Nat) : Bool := (s.flag c f).val
/-- The first cycle in which a flag that reads 1 read so (the f of R76). -/
def State.flagSince (s : State) (c f : Nat) : Nat := (s.flag c f).since
/-- A flag is set, reading 1 from cycle `e` on; a set prevails over a clear of the same cycle (R141). -/
def State.setFlagAt (s : State) (c f e : Nat) : State :=
  let x := s.flag c f
  if x.val then s.putFlag c f { x with last := e }
  else if x.since = e then s.putFlag c f ⟨true, e, x.old, e⟩
  else s.putFlag c f ⟨true, e, false, e⟩
/-- A flag is set, reading 1 from the next cycle. -/
def State.setFlag (s : State) (c f : Nat) : State := s.setFlagAt c f (s.cycle + 1)
/-- A flag is cleared, reading 0 from the next cycle, unless this cycle sets it (R141). -/
def State.clrFlag (s : State) (c f : Nat) : State :=
  let x := s.flag c f
  if x.val then (if x.last = s.cycle + 1 then s else s.putFlag c f ⟨false, s.cycle + 1, true, 0⟩) else s

/-! ### Small iterations -/

/-- A function applied for each member of a list, in order. -/
def State.each {α : Type} (s : State) (l : List α) (f : State → α → State) : State := l.foldl f s

/-- The global number of the cluster of core `n`. -/
def clOf (n : Nat) : Nat := n / 4
/-- The core of thread `g` (R15). -/
def coreOf (g : Nat) : Nat := g / 16
/-- The local number of thread `g` on its core (R15). -/
def locOf (g : Nat) : Nat := g % 16
/-- The cluster of thread `g`. -/
def clusterOf (g : Nat) : Nat := g / 64

/-- Bit `i` of a map of 32-bit words. -/
def mapBit (s : State) (r : Nat → Reg) (i : Nat) : Bool := s.rb (r (i / 32)) (i % 32)

end Sys2Proof.Machine
end

