-- ==== Sys2Proof/Machine/Mem.lean ====
section
/-! DEFINITION. The block SRAM (R165): one byte store keyed by aperture offset (Table 15; the two process-image copies at the
live and shadow offsets), with the side store, the Gleaner shadow and the sequencers' program RAM above it; SECDED (R189 to
R191), the Gleaner's service of accesses (R194, R195), owned cycles and posted writes (R168 to R175). -/
namespace Sys2Proof.Machine

/-! ### Where each memory lies in the store -/

def codeKey (n a : Nat) : Nat := 0x10000 * n + a
def nearKey (n a : Nat) : Nat := 0x200000 + 0x10000 * n + a
def bitKey (n a : Nat) : Nat := 0x400000 + 0x8000 * n + a
def icacheKey (n a : Nat) : Nat := 0x500000 + 0x4000 * n + a
def secureKey (a : Nat) : Nat := 0x580000 + a
def sharedKey (c a : Nat) : Nat := 0x600000 + 0x80000 * c + a
/-- Copy 0 or copy 1 of the process image. -/
def piKey (copy : Bool) (a : Nat) : Nat := (if copy then 0xC00000 else 0xA00000) + a
def sideKey (e a : Nat) : Nat := 0x1000000 + 64 * e + a
def gshadowKey (a : Nat) : Nat := 0x1010000 + a
def progKey (q a : Nat) : Nat := 0x1020000 + 0x400 * q + a

/-- The region r of CPX_ECCNT that a key lies in, with the first key of the region; 7 the instruction cache. -/
def regionOf (k : Nat) : Option (Nat × Nat) :=
  if k < 0x200000 then some (0, 0)
  else if k < 0x400000 then some (1, 0x200000)
  else if k < 0x500000 then some (2, 0x400000)
  else if k < 0x580000 then some (7, 0x500000)
  else if k < 0x590000 then some (6, 0x580000)
  else if k < 0x600000 then none
  else if k < 0xA00000 then some (3, 0x600000)
  else if k < 0xC00000 then some (4, 0xA00000)
  else if k < 0xE00000 then some (5, 0xC00000)
  else none

/-- The first key and the size of a Gleaner region (R193). -/
def regionSpan : Nat → Nat × Nat
  | 0 => (0, 0x200000)
  | 1 => (0x200000, 0x200000)
  | 2 => (0x400000, 0x100000)
  | 3 => (0x600000, 0x400000)
  | 4 => (0xA00000, 0x200000)
  | 5 => (0xC00000, 0x200000)
  | _ => (0x580000, 0x10000)

/-- The first key of the Gleaner's present window. -/
def State.gleanBase (s : State) : Nat := (regionSpan s.gleaner.reg).1 + 256 * s.gleaner.win
/-- A key lies in the window that the Gleaner holds. -/
def State.inWindow (s : State) (k : Nat) : Bool := decide (s.gleanBase ≤ k) && decide (k < s.gleanBase + 256)
/-- The store key that serves an access to `k`: the shadow during TEST and RESTORE (R194). -/
def State.phys (s : State) (k : Nat) : Nat :=
  if (s.gleaner.ph = .test ∨ s.gleaner.ph = .restore) ∧ s.inWindow k then gshadowKey (k - s.gleanBase) else k

/-! ### Bytes -/

/-- The canonical form of a memory: addresses strictly rising, and no entry equal to what an unlisted address reads as, 0. -/
def Memory.wf (m : List Host.Cell) : Bool := Tab.wf (fun _ => 0) m

/-- The byte of the store at a key; an unlisted key reads 0 (R366). -/
def State.cell (s : State) (k : Nat) : Byte := Tab.get (fun _ => 0) s.ram k
/-- The store takes a byte. -/
def State.setCell (s : State) (k : Nat) (b : Byte) : State := { s with ram := Tab.put (fun _ => 0) s.ram k b }
/-- The byte that an access to `k` reads. -/
def State.byteAt (s : State) (k : Nat) : Byte := s.cell (s.phys k)
/-- `n` bytes from `k` on. -/
def State.bytesAt (s : State) (k n : Nat) : List Byte := (upto n).map fun i => s.byteAt (k + i)
/-- A byte of chip memory; unlisted bytes read 0 (DESIGN CHOICE: contents outside the block). -/
def State.chipByte (s : State) (a : Nat) : Byte := Tab.get (fun _ => 0) s.chip a
def State.setChip (s : State) (a : Nat) (b : Byte) : State := { s with chip := Tab.put (fun _ => 0) s.chip a b }

/-! ### SECDED -/

/-- The first key of the granule that holds `k`: 16 data bits in bit RAM, 64 elsewhere (R189). -/
def granOf (k : Nat) : Nat := if 0x400000 ≤ k ∧ k < 0x500000 then k / 2 * 2 else k / 8 * 8
/-- The size of that granule in bytes. -/
def granLen (k : Nat) : Nat := if 0x400000 ≤ k ∧ k < 0x500000 then 2 else 8
/-- The mark of a granule. -/
def State.mark (s : State) (gk : Nat) : EccMark := Tab.get (fun _ => .clean) s.ecc gk
def State.setMark (s : State) (gk : Nat) (m : EccMark) : State :=
  { s with ecc := Tab.put (fun _ => .clean) s.ecc gk m }
/-- The granules that `n` bytes from `k` on touch, rising. -/
def granules (k n : Nat) : List Nat :=
  (upto n).foldl (fun l i => let g := granOf (k + i); if l.getLast? = some g then l else l ++ [g]) []

/-- An uncorrectable error is recorded in CPX_UEREC unless VALID is already 1 (R191). -/
def State.recordUe (s : State) (gk agent : Nat) : State :=
  match regionOf gk with
  | none => s
  | some (r, base) =>
    if s.rb .cpxUerec 31 then s
    else s.setReg .cpxUerec
      (setFld (setFld (setFld (BitVec.ofNat 32 (gk - base)) 27 24 agent) 30 28 r) 31 31 1)

/-- A correctable error is corrected in the value delivered, counted, and set to be scrubbed (R190). -/
def State.correct (s : State) (gk : Nat) : State :=
  let r := (regionOf gk).elim 7 Prod.fst
  let s := (s.bump (.cpxEccnt r) 1).noteCe
  if gk ∈ s.scrubs then s else { s with scrubs := s.scrubs ++ [gk] }

/-- An access by an agent other than the Gleaner during TEST ends the test; the restore follows, then a retry (R195). -/
def State.yield (s : State) (k n : Nat) : State :=
  if s.gleaner.ph = .test ∧ (upto n).any (fun i => s.inWindow (k + i)) then
    ({ s with gleaner := { s.gleaner with ph := .restore, yielded := true } }).bump .cpxGyield 1
  else s

/-- The first uncorrectable granule among those of `n` bytes from `k` on. -/
def State.badGran (s : State) (k n : Nat) : Option Nat := (granules k n).find? fun g => s.mark g == .bad

/-- What any agent's read of `n` bytes does to correctable errors, and to a test of the Gleaner (R190, R195). -/
def State.passRead (s : State) (k n : Nat) : State :=
  (granules k n).foldl (fun s g => if s.mark g = .fixable then s.correct g else s) (s.yield k n)

/-- A read of `n` bytes by an agent: the state with its marks handled, and the first uncorrectable granule, if any. -/
def State.touchRead (s : State) (k n agent : Nat) : State × Option Nat :=
  let s := s.passRead k n
  match s.badGran k n with
  | some g => (s.recordUe g agent, some g)
  | none => (s, none)

/-- A granule of which `n` bytes from `k` on replace only a part. -/
def partGran (k n g : Nat) : Bool := decide (g < k) || decide (k + n < g + granLen g)
/-- The uncorrectable granule that a partial write would have to merge into (R191). -/
def State.badMerge (s : State) (k n : Nat) : Option Nat :=
  (granules k n).find? fun g => partGran k n g && s.mark g == .bad

/-- The key of the granule that CPX_EINJ arms, the live copy for a process-image offset. -/
def State.injectKey (s : State) : Nat :=
  let a := s.rf .cpxEinj 23 0
  if 0xA00000 ≤ a ∧ a < 0xC00000 then piKey (s.live ((a - 0xA00000) / 64)) (a - 0xA00000) else a

/-- The marks of the granules that a write of `n` bytes from `k` on leaves: fresh check bits, scrub writes cancelled (R190),
an armed injection (CPX_EINJ). An uncorrectable granule written in part stays so (R191). -/
def State.writeMarks (s : State) (k n : Nat) : State :=
  (granules k n).foldl (fun s g =>
    let s := if s.mark g = .fixable ∧ partGran k n g then (s.bump (.cpxEccnt ((regionOf g).elim 7 Prod.fst)) 1).noteCe else s
    let s : State := { s.setMark g (if s.mark g = .bad ∧ partGran k n g then .bad else .clean) with scrubs := s.scrubs.filter (· != g) }
    if s.rb .cpxEinj 31 ∧ granOf s.injectKey = g then
      (s.setMark g (if s.rf .cpxEinj 30 29 = 1 then .fixable else .bad)).setRb .cpxEinj 31 false
    else s) s

/-- A byte stored where an access to `k` is served, and in the shadow of a window that the Gleaner has copied (R194). -/
def State.putByte (s : State) (k : Nat) (b : Byte) : State :=
  let s' := s.setCell (s.phys k) b
  if s.gleaner.ph = .copy ∧ s.inWindow k then s'.setCell (gshadowKey (k - s.gleanBase)) b else s'

/-- Bytes stored from `k` on, whatever the marks. -/
def State.putBytes (s : State) : Nat → List Byte → State
  | _, [] => s
  | k, b :: r => (s.putByte k b).putBytes (k + 1) r

/-- A write of bytes from `k` on by an agent other than the Gleaner. -/
def State.memWrite (s : State) (k : Nat) (bs : List Byte) : State :=
  (((s.yield k bs.length).writeMarks k bs.length)).putBytes k bs

/-- A little-endian word of shared RAM, as an agent that raises nothing reads it. -/
def State.word (s : State) (k : Nat) : Word := BitVec.ofNat 32 (ofBytes (s.bytesAt k 4))
/-- A word stored. -/
def State.setWord (s : State) (k : Nat) (w : Word) : State := s.memWrite k (toBytes 4 w.toNat)

/-! ### Owned cycles (R169, R172) -/

/-- SPTR in cycle `c`, counted from the present one (R54). -/
def State.sptrAt (s : State) (c : Nat) : Nat := (s.sptr + (c - s.cycle)) % 32

/-- The first owned cycle at or after `c` of shared bank `b` for local core `k` (R169). -/
def State.ownedShared (s : State) (k b c : Nat) : Nat := c + (k + 4 * 32 - (s.sptrAt c + b) % 4) % 4
/-- The first owned cycle at or after `c` of process-image bank `b` for core `n` (R172). -/
def State.ownedPi (s : State) (n b c : Nat) : Nat := c + (8 - (s.sptrAt c + b + n) % 8) % 8

/-- The bank of shared offset `x` (R168). -/
def sharedBank (x : Nat) : Nat := x / 8 % 8
/-- The bank of process-image address `a` (R172). -/
def piBank (a : Nat) : Nat := a / 64 % 16

/-! ### Posted writes (R174) -/

/-- The cycle in which a posted write of `core` that is ready in cycle `r`, and that a fence orders after cycle `f`, is
performed. -/
def State.perfAt (s : State) (core : Nat) (pi : Bool) (bank r f : Nat) : Nat :=
  let c := max r f
  if pi then s.ownedPi core bank c else s.ownedShared (core % 4) bank c

/-- A write is posted. -/
def State.post (s : State) (core thr r f : Nat) (pi : Bool) (bank : Nat) (cells : List (Nat × Byte))
    (gen : Option (Nat × Nat)) : State :=
  { s with posted := s.posted ++ [⟨core, thr, r, s.perfAt core pi bank r f, pi, bank, cells, gen⟩] }

/-- The cells of a posted write are stored. -/
def State.putCells (s : State) : List (Nat × Byte) → State
  | [] => s
  | (k, b) :: r => (s.memWrite k [b]).putCells r

/-- Cells as runs of consecutive keys: the first key of a run and its bytes. -/
def runs : List (Nat × Byte) → List (Nat × List Byte)
  | [] => []
  | (k, b) :: r =>
    match runs r with
    | (k', bs) :: rest => if k + 1 = k' then (k, b :: bs) :: rest else (k, [b]) :: (k', bs) :: rest
    | [] => [(k, [b])]

/-- The cells of one write are stored, run by run. -/
def State.putRuns (s : State) (cells : List (Nat × Byte)) : State :=
  (runs cells).foldl (fun s r => s.memWrite r.1 r.2) s

/-- What a read by a thread of `core` sees at key `k`: the byte of the visible posted write that is performed last, else the
bank's. A posted write is visible to its own core from the cycle after it is ready, to its own thread at once (R66), and to
any reader served in cycle `srv` once it is performed by then. -/
def State.seen (s : State) (core thr srv k : Nat) : Byte :=
  let vis := s.posted.filter fun w =>
    (w.core == core && (w.thr == thr || decide (w.ready < s.cycle))) || decide (w.perf ≤ srv)
  let best := vis.foldl (fun (a : Option (Nat × Byte)) w =>
    match w.cells.find? (fun c => c.1 == k) with
    | none => a
    | some c => match a with
      | some (p, _) => if p ≤ w.perf then some (w.perf, c.2) else a
      | none => some (w.perf, c.2)) none
  match best with
  | some (_, b) => b
  | none => s.byteAt k

/-! ### The process image (R218, R222, R225) -/

/-- The side-store entry that context `x` has for a line. -/
def State.sideOf (s : State) (x line : Nat) : Option Nat :=
  (s.side.find? fun e => e.2 == some (x, line)).map Prod.fst

/-- Context `x` holds a line: a claim or a side-store entry. -/
def State.holds (s : State) (x line : Nat) : Bool := s.claim line == some x || (s.sideOf x line).isSome

/-- The key of byte `a` of the live process image. -/
def State.liveKey (s : State) (a : Nat) : Nat := piKey (s.live (a / 64)) a
/-- The key of byte `a` in context `x`'s version of its line (R222). -/
def State.ctxKey (s : State) (x a : Nat) : Nat :=
  match s.sideOf x (a / 64) with
  | some e => sideKey e (a % 64)
  | none => if s.claim (a / 64) = some x then piKey (!s.live (a / 64)) a else s.liveKey a

/-- A membership of a generation that is not aborted (R225). -/
def State.liveMember (s : State) (t : Thread) : Option Nat :=
  match t.mem with
  | none => none
  | some (x, uid) =>
    let c := s.ctx x
    if c.uid = uid ∧ (c.st = .opened ∨ c.st = .complete) then some x else none

/-- The key that a thread's read of process-image byte `a` names (R225, Table 75). -/
def State.piReadKey (s : State) (t : Thread) (a : Nat) : Nat :=
  match s.liveMember t with
  | some x => s.ctxKey x a
  | none => s.liveKey a

end Sys2Proof.Machine
end

