-- ==== Sys2Proof/Machine/Locks.lean ====
section
/-! DEFINITION. Locks, channels and deadlock (08): what the lock units do with each object. -/
namespace Sys2Proof.Machine

/-- The key of lock `l`, of cluster `c` or of the global unit (R199). -/
def lockKey (glob : Bool) (c l : Nat) : Nat := if glob then 0x800 + l else 256 * c + l
/-- The key of channel `ch`, of cluster `c` or of the global unit (R199). -/
def chanKey (glob : Bool) (c ch : Nat) : Nat := if glob then 0x100 + ch else 32 * c + ch
/-- The source index of a channel in CHAN_ABANDONED (Table 111). -/
def chanSidx (k : Nat) : Nat := k + 0x100

/-- LOCK.TRY on a lock by a thread: the state, and whether the lock was given (R202). -/
def State.lockTry (s : State) (k g : Nat) : State × Bool :=
  match s.lock k with
  | none => (s.setLock k (some g), true)
  | some _ => (s, false)

/-- LOCK.REL on a lock by a thread (R202). -/
def State.lockRel (s : State) (k g : Nat) : State × Bool :=
  if s.lock k = some g then (s.setLock k none, true) else (s, false)

/-- The word of CLK_LOCK and GLK_LOCK. -/
def State.lockWord (s : State) (k : Nat) : Word :=
  match s.lock k with
  | none => 0
  | some g => BitVec.ofNat 32 (0x80000000 + g)

/-! ### Channels (R207, R208) -/

/-- The data words in use. -/
def Chan.used (c : Chan) : Nat := c.msgs.foldl (fun n m => n + m.len) 0
/-- The ring word at a position. -/
def Chan.word (c : Chan) (i : Nat) : Word := Tab.get (fun _ => 0) c.ring (i % 16)
/-- The open message, which is always the youngest (R207). -/
def Chan.opn (c : Chan) : Option Msg :=
  match c.msgs.getLast? with
  | some m => if m.closed then none else some m
  | none => none
/-- Thread `g` holds the open message. -/
def Chan.heldBy (c : Chan) (g : Nat) : Bool :=
  match c.opn with
  | some m => !m.aband && m.writer == g
  | none => false
/-- The queue with its youngest message changed. -/
def mapLast (f : Msg → Msg) : List Msg → List Msg
  | [] => []
  | [m] => [f m]
  | m :: r => m :: mapLast f r

/-- A CHW by `g` would write its word (Table 67). -/
def Chan.canWrite (c : Chan) (g : Nat) : Bool :=
  match c.opn with
  | some m => !m.aband && m.writer == g && decide (m.len < 16) && decide (c.used < 16)
  | none => decide (c.msgs.length < 4) && decide (c.used < 16)

/-- The ring with a word appended behind the words in use. -/
def Chan.append (c : Chan) (w : Word) : List (Nat × Word) := Tab.put (fun _ => 0) c.ring ((c.head + c.used) % 16) w

/-- CHW (Table 67). -/
def Chan.write (c : Chan) (g : Nat) (w : Word) : Chan × Bool :=
  if c.canWrite g then
    match c.opn with
    | some _ => ({ c with ring := c.append w, msgs := mapLast (fun m => { m with len := m.len + 1 }) c.msgs }, true)
    | none => ({ c with ring := c.append w, msgs := c.msgs ++ [⟨1, false, false, g, false⟩] }, true)
  else (c, false)

/-- CHE (Table 67). -/
def Chan.close (c : Chan) (g : Nat) : Chan × Bool :=
  if c.heldBy g then ({ c with msgs := mapLast (fun m => { m with closed := true }) c.msgs }, true) else (c, false)

/-- The head message is closed and not reserved to a thread other than `g`. -/
def Chan.readable (c : Chan) (g : Nat) : Bool :=
  match c.msgs.head? with
  | some m => m.closed && (match c.res with | some r => r == g | none => true)
  | none => false

/-- CHR: the channel, the word read if any, and Z (Table 67). -/
def Chan.read (c : Chan) (g : Nat) : Chan × Option Word × Bool :=
  if c.readable g then
    match c.msgs.head? with
    | some m =>
      if c.cur < m.len then ({ c with res := some g, cur := c.cur + 1 }, some (c.word (c.head + c.cur)), true)
      else ({ c with res := some g }, none, false)
    | none => (c, none, false)
  else (c, none, false)

/-- The head message is removed, with its words, its entry and its reservation. -/
def Chan.dropHead (c : Chan) : Chan :=
  match c.msgs with
  | m :: r => { c with msgs := r, head := (c.head + m.len) % 16, res := none, cur := 0 }
  | [] => c

/-- CHD (Table 67). -/
def Chan.discardHead (c : Chan) (g : Nat) : Chan × Bool := if c.readable g then (c.dropHead, true) else (c, false)

/-- OSTATE of Table 68: 0 NONE, 1 OPEN, 2 OPEN_HALTED, 3 ABANDONED. -/
def State.ostate (s : State) (c : Chan) : Nat :=
  match c.opn with
  | none => 0
  | some m => if m.aband then 3 else if s.active ∧ (s.thr m.writer).st ≠ .halted then 1 else 2

/-- The word of CLK_CHSTAT and GLK_CHSTAT, which CHS returns. -/
def State.chstat (s : State) (k : Nat) : Word :=
  let c := s.chan k
  let closed := (c.msgs.filter fun m => m.closed).length
  let wr := match c.opn with | some m => m.writer | none => 0
  let tr := match c.msgs.head? with | some m => m.trunc && m.closed | none => false
  BitVec.ofNat 32 (s.ostate c <<< 29 ||| wr <<< 20 ||| (c.res.getD 0) <<< 11 ||| b2n c.res.isSome <<< 10 ||| b2n tr <<< 9
    ||| closed <<< 6 ||| (16 - c.used))

/-- A thread that enters IDLE or FAULTED abandons its open messages (R209) and gives up its head reservations (R211). -/
def State.leaveChans (s : State) (g : Nat) : State :=
  s.each (s.chans.map Prod.fst) fun s k =>
    let c := s.chan k
    let s := if c.heldBy g then
        (s.setChan k { c with msgs := mapLast (fun m => { m with aband := true }) c.msgs }).report 0x21 9 (chanSidx k)
          (BitVec.ofNat 32 g) 0
      else s
    let c := s.chan k
    if c.res = some g then s.setChan k { c with res := none, cur := 0 } else s

/-- FORCE_CLOSE of Table 69: the open message is closed as it stands and marked TRUNCATED. -/
def Chan.forceClose (c : Chan) : Chan :=
  { c with msgs := mapLast (fun m => { m with closed := true, trunc := true, aband := false }) c.msgs }
/-- DISCARD of Table 69: the open message is removed. -/
def Chan.dropOpen (c : Chan) : Chan := { c with msgs := c.msgs.dropLast }
/-- RESET of Table 69: every message and reservation is removed. -/
def Chan.clear (c : Chan) : Chan := { c with msgs := [], res := none, cur := 0 }

/-! ### Waiting (R204, Table 66) -/

/-- The target of a WAIT is met for thread `g`. -/
def State.waitMet (s : State) (g : Nat) (w : WaitOn) : Bool :=
  let c := clusterOf g
  if w.kind = 0 then (s.lock (lockKey w.glob c w.obj)).isNone
  else if w.kind = 1 then s.flagSet c w.obj
  else if w.kind = 2 then (s.chan (chanKey w.glob c w.obj)).readable g
  else (s.chan (chanKey w.glob c w.obj)).canWrite g

/-! ### Deadlock (R213 to R215) -/

/-- A thread that can still signal: READY, WAITING, DOZING or HALTED (R213). -/
def State.isLive (s : State) (g : Nat) : Bool :=
  match (s.thr g).st with
  | .idle => false
  | .faulted => false
  | _ => true

/-- The live threads among some numbers, rising. Only listed threads can be live. -/
def State.liveThreads (s : State) : List Nat := (s.threads.map Prod.fst).filter s.isLive

/-- Sig(t) of Table 70: none where the table gives no thread set. -/
def State.sig (s : State) (g : Nat) : Option (List Nat) :=
  let c := clusterOf g
  let scope (glob : Bool) := if glob then s.liveThreads else s.liveThreads.filter fun t => clusterOf t == c
  match (s.thr g).waitOn with
  | none => none
  | some w =>
    if s.waitMet g w then none
    else if w.kind = 0 then (s.lock (lockKey w.glob c w.obj)).map fun h => [h]
    else if w.kind = 1 then
      if s.rb (.clkEvthr c (w.obj / 32)) (w.obj % 32) then some (scope false) else none
    else
      let ch := s.chan (chanKey w.glob c w.obj)
      if w.kind = 2 then
        match ch.msgs.head?, ch.res with
        | some m, some r => if m.closed ∧ r ≠ g then some [r] else
            (match ch.opn with | some o => some [o.writer] | none => some (scope w.glob))
        | _, _ => (match ch.opn with | some o => some [o.writer] | none => some (scope w.glob))
      else
        match ch.opn with
        | some o => if o.writer ≠ g then some [o.writer] else
            (match ch.res with | some r => if r ≠ g then some [r] else some (scope w.glob) | none => some (scope w.glob))
        | none => (match ch.res with | some r => if r ≠ g then some [r] else some (scope w.glob) | none => some (scope w.glob))

/-- The members of wait group `g` (GLK_WGMAP). -/
def State.groupMembers (s : State) (g : Nat) : List Nat := idxs 512 fun t => s.rb (.glkWgmap g (t / 32)) (t % 32)

/-- Every thread of a set is WAITING with its signallers in the set (R214). -/
def State.stuck (s : State) (set : List Nat) : Bool :=
  !set.isEmpty && set.all fun t =>
    (s.thr t).st == .waiting && (match s.sig t with | none => false | some l => l.all fun x => set.contains x)

/-- The threads of a set that the deadlock rules examine. -/
def State.dlSet (s : State) : DlSet → List Nat
  | .cluster c => s.liveThreads.filter fun t => clusterOf t == c.toNat
  | .group g => s.groupMembers g.toNat

/-- The set is deadlocked (R214); the rules apply only in REHEARSE and RUN. -/
def State.deadlocked (s : State) (d : DlSet) : Bool := s.active && s.stuck (s.dlSet d)

/-- The number of a set among those already reported. -/
def dlIdx : DlSet → Nat
  | .cluster c => c.toNat
  | .group g => 8 + g.toNat

/-- A cluster's live threads are exactly the members of a wait group already reported (R215). -/
def State.dlTwin (s : State) : DlSet → Bool
  | .group _ => false
  | .cluster c => (upto 16).any fun g => s.dlDone.contains (8 + g) && s.groupMembers g == s.dlSet (.cluster c)

/-- The global lock unit examines a set, and reports it if the rule holds and it is not reported yet (R215). -/
def State.examine (s : State) (d : DlSet) : State :=
  if s.deadlocked d then
    if s.dlDone.contains (dlIdx d) || s.dlTwin d then s
    else
      let set := s.dlSet d
      let s := { s with dlDone := s.dlDone ++ [dlIdx d] }
      let s := s.bump .glkDlcnt 1
      let (src, id, sidx) := match d with
        | .cluster c => (0, c.toNat, c.toNat)
        | .group g => (1, g.toNat, 0x10 + g.toNat)
      let s := if s.rb .glkDlstat 31 then s else
        let s := s.setReg .glkDlstat (BitVec.ofNat 32 (1 <<< 31 ||| src <<< 30 ||| id <<< 16 ||| set.length))
        s.each (upto 16) fun s w =>
          s.setReg (.glkDlmap w) (BitVec.ofNat 32 ((set.filter fun t => t / 32 == w).foldl (fun n t => n ||| 1 <<< (t % 32)) 0))
      s.report 0x20 9 sidx (BitVec.ofNat 32 set.length) 0
  else { s with dlDone := s.dlDone.filter (· != dlIdx d) }

/-- DEADLOCK (R215). -/
def execDeadlock (d : DlSet) (s : State) : Host.Outcome State Fault Refusal := .next (s.examine d)

end Sys2Proof.Machine
end

