-- ==== Sys2Proof/Machine/Sheaf.lean ====
section
/-! DEFINITION. The sheaf unit (09): contexts, memberships, line versions, contention, the commit decision, aborts and the
execution of fault sheaves. -/
namespace Sys2Proof.Machine

/-- The context is a fault sheaf (R217). -/
def State.isFault (s : State) (x : Nat) : Bool := s.rb (.shfCtx x) 30
/-- The domain of a swath sheaf. -/
def State.ctxDom (s : State) (x : Nat) : Nat := s.rf (.shfCtx x) 29 28
/-- The members that each generation must have (R217). -/
def State.ctxExp (s : State) (x : Nat) : Nat := s.rf (.shfCtx x) 9 0
/-- The contexts in use, rising. -/
def State.ctxList (s : State) : List Nat := s.ctxs.map Prod.fst

/-- The code of a context state (Table 72). -/
def CtxSt.code : CtxSt → Nat
  | .free => 0
  | .opened => 1
  | .complete => 2
  | .aborted => 3

/-- The word of SHF_CST, which SHEAF.STAT returns. -/
def State.cstWord (s : State) (x : Nat) : Word :=
  let c := s.ctx x
  BitVec.ofNat 32 (c.st.code <<< 29 ||| b2n c.reh <<< 28 ||| c.joined <<< 18 ||| c.closed <<< 8 ||| c.gen.toNat)

/-- The lines that a context holds (R222), claims first. -/
def State.linesOf (s : State) (x : Nat) : List Nat :=
  (s.claims.filter fun e => e.2 == some x).map Prod.fst ++
  s.side.filterMap fun e => match e.2 with | some (y, l) => if y = x then some l else none | none => none

/-- A thread is eligible for a context (section Membership). -/
def State.eligible (s : State) (g x : Nat) : Bool :=
  s.isFault x || (s.rb (.ldgTbud g) 31 && s.rf (.ldgTbud g) 29 28 == s.ctxDom x)

/-- How many swath sheaves that are OPEN or COMPLETE a thread is a member of (Table 73). -/
def State.sheafCount (s : State) (g : Nat) : Nat :=
  (s.ctxList.filter fun x => !s.isFault x && (s.ctx x).members.contains g &&
    ((s.ctx x).st == .opened || (s.ctx x).st == .complete)).length

/-- Claims and side-store entries of a context are released. -/
def State.releaseLines (s : State) (x : Nat) : State :=
  { s with claims := s.claims.filter (fun e => e.2 != some x),
           side := s.side.filter fun e => match e.2 with | some (y, _) => y != x | none => true }

/-- Reservations of held actions are freed in their sequencers (R226). -/
def State.unreserve (s : State) (held : List (Nat × DWord)) : State :=
  s.each held fun s a => s.setPsq a.1 { s.psq a.1 with rsvd := (s.psq a.1).rsvd - 1 }

/-- Held actions are discarded: their reservations freed, each counted in SHF_CNT(5) (R235, R237). -/
def State.discardHeld (s : State) (held : List (Nat × DWord)) : State := (s.unreserve held).bump (.shfCnt 5) held.length

/-- SHF_CRES of a context records an outcome. -/
def State.setCres (s : State) (x out line : Nat) : State :=
  s.setReg (.shfCres x) (BitVec.ofNat 32 (out <<< 29 ||| (s.ctx x).gen.toNat <<< 15 ||| line))

/-- The fault code of an abort outcome: 3 SHEAF_ABORT, 4 SHEAF_CONFLICT, 5 SHEAF_OVERFLOW (SHF_CRES.OUT). -/
def outCode (out : Nat) : Nat := if out = 4 then 0x30 else if out = 5 then 0x31 else 0x32

/-- A generation aborts (R234, R235): `out` is 3 abort, 4 conflict, 5 overflow. A swath sheaf stays ABORTED until its due
boundary, a fault sheaf becomes FREE (Table 72). Writes of the generation not yet performed go nowhere. -/
def State.abort (s : State) (x out line : Nat) : State :=
  let c := s.ctx x
  let s := s.releaseLines x
  let s := s.discardHeld c.held
  let s := { s with posted := s.posted.filter fun w => w.gen != some (x, c.uid) }
  let s := s.setCtx x { c with st := if s.isFault x then .free else .aborted, held := [] }
  let s := s.setCres x out line
  let s := s.bump (.shfCnt (out - 1)) 1
  s.report (outCode out) 2 x (BitVec.ofNat 32 c.gen.toNat) (BitVec.ofNat 32 line) c.reh

/-- A generation that has just become COMPLETE: every other swath sheaf that holds one of its lines aborts with
SHEAF_CONFLICT, naming the lowest shared line (R228). -/
def State.conflicts (s : State) (x : Nat) : State :=
  if s.isFault x then s
  else
    let mine := s.linesOf x
    s.each s.ctxList fun s y =>
      if y = x ∨ s.isFault y ∨ (s.ctx y).st ≠ .opened then s
      else
        let shared := (s.linesOf y).filter fun l => mine.contains l
        match shared with
        | [] => s
        | l :: r => s.abort y 4 (r.foldl min l)

/-- The thread holds an open membership of a generation that is not aborted: its context. -/
def State.openMember (s : State) (g : Nat) : Option Nat :=
  match (s.thr g).mem with
  | none => none
  | some (x, uid) => if (s.ctx x).uid = uid ∧ (s.ctx x).st = .opened then some x else none

/-- A thread joins an OPEN generation or opens a FREE context; `start` permits opening (Table 73). -/
def State.sheafJoin (s : State) (g x : Nat) (start : Bool) : State × Bool :=
  let c := s.ctx x
  let t := s.thr g
  if t.mem.isSome ∨ ¬ s.eligible g x ∨ s.sheafCount g ≥ 4 then (s, false)
  else if c.st = .free then
    if start ∧ s.rb (.shfCtx x) 31 then
      let c' : Ctx := { c with st := .opened, gen := c.gen + 1, uid := c.uid + 1, joined := 1, closed := 0,
                               reh := s.mode == .rehearse, members := [g], cyc := s.cycle, held := [] }
      ((s.setCtx x c').setThr g { t with mem := some (x, c'.uid) }, true)
    else (s, false)
  else if c.st = .opened ∧ c.joined < s.ctxExp x then
    ((s.setCtx x { c with joined := c.joined + 1, members := c.members ++ [g] }).setThr g { t with mem := some (x, c.uid) }, true)
  else (s, false)

/-- SHEAF.CLOSE (Table 73, R228). -/
def State.sheafClose (s : State) (g x : Nat) : State × Bool :=
  let t := s.thr g
  match t.mem with
  | none => (s, false)
  | some (y, uid) =>
    if y ≠ x then (s, false)
    else
      let c := s.ctx x
      let s := s.setThr g { t with mem := none }
      if c.uid = uid ∧ c.st = .opened then
        if c.closed + 1 = s.ctxExp x then
          ((s.setCtx x { c with closed := c.closed + 1, st := .complete }).conflicts x, true)
        else (s.setCtx x { c with closed := c.closed + 1 }, true)
      else (s, false)

/-! ### Process-image writes (R222, Table 74) -/

/-- What a process-image write by a thread comes to. -/
inductive PiWrite where
  /-- No open membership: OWNER_DENY. -/
  | deny
  /-- Discarded, with no fault. -/
  | drop
  /-- The write must merge into an uncorrectable granule: ECC_UE of this granule (R191). -/
  | ue (g : Nat)
  /-- The version to write: the keys of the bytes, and the generation the write belongs to. -/
  | keys (ks : List Nat) (gen : Nat × Nat)
deriving DecidableEq, Repr

/-- The lowest free side-store entry (R230). -/
def State.freeSide (s : State) : Option Nat := (upto 64).find? fun e => (s.sideEnt e).isNone

/-- A line is copied from its live copy to another place of the store; the copy has fresh check bits. -/
def State.fillLine (s : State) (line dst : Nat) : State :=
  let src := s.liveKey (64 * line)
  let s := s.yield src 64
  let s := s.yield dst 64
  let s := (granules src 64).foldl (fun s g => if s.mark g = .fixable then s.correct g else s) s
  let bs := s.bytesAt src 64
  let s := (granules dst 64).foldl (fun (s : State) g =>
    { s.setMark g .clean with scrubs := s.scrubs.filter (· != g) }) s
  s.putBytes dst bs

/-- The granule of the live line whose error stops a fill, for a write of `n` bytes at line offset `o` (R224). -/
def State.fillBad (s : State) (line o n : Nat) : Option Nat :=
  let src := s.liveKey (64 * line)
  (granules src 64).find? fun g => s.mark g == .bad && !(decide (src + o ≤ g) && decide (g + 8 ≤ src + o + n))

/-- A write of `n` bytes at offset `o` of one line by a member of OPEN context `x`: the state, and whether the write stands
(`none` an abort discarded it, `some key` the key of the line's version). An error met in the fill aborts (R224). -/
def State.claimLine (s : State) (x line o n : Nat) : State × Option Nat × Option Nat :=
  let others := s.ctxList.filter fun y => y != x && !s.isFault y && s.holds y line
  if !s.isFault x && s.claim line == some x then (s, some (piKey (!s.live line) (64 * line)), none)
  else
    match s.sideOf x line with
    | some e => (s, some (sideKey e 0), none)
    | none =>
      if !s.isFault x && others.any (fun y => (s.ctx y).st == .complete) then (s.abort x 4 line, none, none)
      else
        let bad := s.fillBad line o n
        match bad with
        | some g =>
          let part := decide (g < s.liveKey (64 * line) + o + n) && decide (s.liveKey (64 * line) + o < g + 8)
          let r := ((regionOf g).elim 4 Prod.fst)
          let base := ((regionOf g).elim 0 Prod.snd)
          let s := (s.recordUe g 5).report 0x41 8 r (setFld (BitVec.ofNat 32 (g - base)) 30 28 r) 5
          (s.abort x 3 0, none, if part then some g else none)
        | none =>
          if !s.isFault x && (s.claim line).isNone then
            let dst := piKey (!s.live line) (64 * line)
            ((s.setClaim line (some x)).fillLine line dst, some dst, none)
          else
            match s.freeSide with
            | none => (s.abort x 5 0, none, none)
            | some e => ((s.setSide e (some (x, line))).fillLine line (sideKey e 0), some (sideKey e 0), none)

/-- A process-image write of `n` bytes at address `a` by thread `g` takes its Table 74 effect (R222, R223). -/
def State.piWrite (s : State) (g a n : Nat) : State × PiWrite :=
  match (s.thr g).mem with
  | none => (s, .deny)
  | some (_, uid) =>
    match s.openMember g with
    | none => (s, .drop)
    | some x =>
      let l1 := a / 64
      let l2 := (a + n - 1) / 64
      if l1 = l2 then
        match s.claimLine x l1 (a % 64) n with
        | (s, some k, _) => (s, .keys ((upto n).map fun i => k + a % 64 + i) (x, uid))
        | (s, none, some b) => (s, .ue b)
        | (s, none, none) => (s, .drop)
      else
        let n1 := 64 - a % 64
        match s.claimLine x l1 (a % 64) n1 with
        | (s, none, some b) => (s, .ue b)
        | (s, none, none) => (s, .drop)
        | (s, some k1, _) =>
          match s.claimLine x l2 0 (n - n1) with
          | (s, none, some b) => (s, .ue b)
          | (s, none, none) => (s, .drop)
          | (s, some k2, _) =>
            (s, .keys ((upto n1).map (fun i => k1 + a % 64 + i) ++ (upto (n - n1)).map fun i => k2 + i) (x, uid))

/-! ### Commit (R231 to R233, R237, R240) -/

/-- The posted writes of a generation are performed now: its version includes them from the commit instant (R233). -/
def State.flushGen (s : State) (x uid : Nat) : State :=
  let mine := s.posted.filter fun w => w.gen == some (x, uid)
  let s : State := { s with posted := s.posted.filter fun w => w.gen != some (x, uid) }
  s.each mine fun s w => s.putRuns w.cells

/-- The versions of a generation become live and its claims and side-store entries are freed (R233). -/
def State.flip (s : State) (x : Nat) : State :=
  let s := s.flushGen x (s.ctx x).uid
  let claimed := (s.claims.filter fun e => e.2 == some x).map Prod.fst
  let s := s.each claimed fun s l => s.setLive l (!s.live l)
  let sides := s.side.filterMap fun e => match e.2 with | some (y, l) => if y = x then some (e.1, l) else none | none => none
  let s := s.each sides fun s el =>
    let dst := piKey (!s.live el.2) (64 * el.2)
    let bs := s.bytesAt (sideKey el.1 0) 64
    let s := s.yield dst 64
    let s := (granules dst 64).foldl (fun (s : State) g => { s.setMark g .clean with scrubs := s.scrubs.filter (· != g) }) s
    (s.putBytes dst bs).setLive el.2 (!s.live el.2)
  s.releaseLines x

/-- A generation commits (R233): its lines, its outcome, its context FREE. The held actions are left to the commit. -/
def State.commitGen (s : State) (x : Nat) : State :=
  let s := s.flip x
  let s := s.setCres x 1 0
  let s := s.bump (.shfCnt 0) 1
  s.setCtx x { s.ctx x with st := .free, held := [] }

/-- A marked COMPLETE generation is discarded (R20, Table 77). -/
def State.discardGen (s : State) (x : Nat) : State :=
  let c := s.ctx x
  let s := s.releaseLines x
  let s := s.discardHeld c.held
  let s := { s with posted := s.posted.filter fun w => w.gen != some (x, c.uid) }
  let s := s.setCres x 2 0
  let s := s.bump (.shfCnt 1) 1
  s.setCtx x { c with st := .free, held := [] }

/-- What the commit decision of a boundary has gathered: the state, whether every due sheaf committed, and the held actions
of the sheaves that did, in delivery order (R227). -/
structure Decision where
  s : State
  ok : Bool
  held : List (Nat × DWord)

/-- The commit decision for one context due at a boundary (Table 77; in HOLD everything due aborts, R22). -/
def decide1 (d : Decision) (x : Nat) : Decision :=
  let s := d.s
  let c := s.ctx x
  match c.st with
  | .free => d
  | .aborted => { d with s := s.setCtx x { c with st := .free }, ok := false }
  | .opened =>
    let s := s.abort x 3 0
    { d with s := s.setCtx x { s.ctx x with st := .free }, ok := false }
  | .complete =>
    if s.mode = .hold then
      let s := s.abort x 3 0
      { d with s := s.setCtx x { s.ctx x with st := .free }, ok := false }
    else if c.reh then { d with s := s.discardGen x, ok := false }
    else if s.mode = .rehearse then { d with s := (s.commitGen x).discardHeld c.held }
    else { d with s := s.commitGen x, held := d.held ++ c.held }

/-- The contexts due at a boundary of domain `dom`: swath sheaves of the domain opened before this cycle (Table 73). -/
def State.dueCtxs (s : State) (dom : Nat) : List Nat :=
  s.ctxList.filter fun x => !s.isFault x && s.ctxDom x == dom && decide ((s.ctx x).st ≠ .free) && decide ((s.ctx x).cyc < s.cycle)

/-- The commit decision of a boundary of `dom` that begins swath `num` (R232): the fast status page takes the number when
the commit completes, at once where nothing is left to complete. -/
def State.commitDecision (s : State) (dom : Nat) (num : Word) : State :=
  let due := s.dueCtxs dom
  let d := due.foldl decide1 ⟨s, true, []⟩
  let any := due.any fun x => (s.ctx x).st == .complete
  if any then
    { d.s with commits := d.s.commits ++ [⟨s.cycle, if d.ok then some (dom, num) else none, d.held, true⟩] }
  else if d.ok then d.s.setReg (.fastLast dom) num
  else d.s

/-- A standing order executes a fault sheaf (R240): the state, and whether it committed. Other fault sheaves with an entry for
one of its lines hold that line and abort too (DEDUCED, log 60). -/
def State.execFault (s : State) (x : Nat) : State × Bool :=
  let c := s.ctx x
  if s.isFault x ∧ c.st = .complete ∧ ¬ c.reh then
    let mine := s.linesOf x
    let s := s.each s.ctxList fun s y =>
      if y = x ∨ ¬ ((s.ctx y).st = .opened ∨ (s.ctx y).st = .complete) then s
      else match (s.linesOf y).filter fun l => mine.contains l with
        | [] => s
        | l :: r => s.abort y 4 (r.foldl min l)
    let s := s.commitGen x
    ({ s with commits := s.commits ++ [⟨s.cycle, none, c.held, true⟩] }, true)
  else if s.isFault x ∧ (c.st = .opened ∨ c.st = .complete) then (s.abort x 3 0, false)
  else (s.report 0x32 2 x (BitVec.ofNat 32 c.gen.toNat) 0, false)

/-- Entry to CONFIGURE (R21, R239): swath sheaves abort and leave, OPEN fault sheaves abort, memberships end. -/
def State.configureSheaves (s : State) : State :=
  let s := s.each s.ctxList fun s x =>
    let c := s.ctx x
    if s.isFault x then (if c.st = .opened then s.abort x 3 0 else s)
    else match c.st with
      | .free => s
      | .aborted => s.setCtx x { c with st := .free }
      | _ => let s := s.abort x 3 0; s.setCtx x { s.ctx x with st := .free }
  s.each (s.threads.map Prod.fst) fun s g => s.setThr g { s.thr g with mem := none }

end Sys2Proof.Machine
end

