-- ==== Sys2Proof/Machine/Hedgerow.lean ====
section
/-! DEFINITION. The Hedgerow (12): slots, owners, the active user of a pin and its park, what a pin presents, and how the
synchronised levels reach the lanes, with the lanes' edges and reflexes (R268, R269, R293). -/
namespace Sys2Proof.Machine

/-! ### Slots and users -/

/-- Half `j % 2` of a slot register's word, moved to bits [15:0]: EN 15, IMM 14, KIND [13:12], IDX [8:0]. -/
def slotHalf (w : Word) (j : Nat) : Word := if j % 2 = 1 then w >>> 16 else w
/-- The register that holds slot `j` of pin `p`. -/
def slotReg (p j : Nat) : Reg := .hdgSlot p (j / 2)
/-- EN of slot `j` in force (R302). -/
def State.slotEn (s : State) (p j : Nat) : Bool := bit (slotHalf (s.inForce (slotReg p j)) j) 15
/-- EN of slot `j` in the shadow (R303). -/
def State.slotShadow (s : State) (p j : Nat) : Bool := bit (slotHalf (s.reg (slotReg p j)) j) 15
/-- KIND and IDX of slot `j`. -/
def State.slotUser (s : State) (p j : Nat) : Nat × Nat :=
  let h := slotHalf (s.reg (slotReg p j)) j
  (fld h 13 12, fld h 8 0)
/-- The owner of pin `p` (R298). -/
def State.owner (s : State) (p : Nat) : Nat := s.rf (.hdgCfg p) 31 24

/-- A user matches a pin's owner (Table 96). -/
def userMatches (own kind idx : Nat) : Bool :=
  if kind = 0 then decide (own < 0x20)
  else if kind = 1 then decide (own < 0x20) && decide (own / 4 = idx / 8 / 8)
  else if kind = 2 then own == 0x22
  else if idx = 0 then own == 0x20
  else own == 0x21

/-- A KIND and IDX that Table 96 lists. -/
def userListed (kind idx : Nat) : Bool :=
  if kind = 0 then idx == 0 else if kind = 1 then true else if kind = 2 then decide (idx % 32 ≤ 16) else decide (idx ≤ 1)

/-- An owner code that Table 95 lists. -/
def ownerListed (o : Nat) : Bool := decide (o ≤ 0x22) || o == 0x3F

/-- The active slot of a pin: the lowest-numbered one whose EN is in force (R302). -/
def State.activeSlot (s : State) (p : Nat) : Option Nat := (upto 4).find? fun j => s.slotEn p j
/-- ENF of HDG_IO. -/
def State.enf (s : State) (p : Nat) : Nat := (upto 4).foldl (fun n j => n + b2n (s.slotEn p j) * 2 ^ j) 0

/-- The pins whose registers or state are listed, rising, and a pin asked for: no other pin can have a user. -/
def State.pinList (s : State) : List Nat :=
  (s.regs.filterMap fun e => if 0x5000 ≤ e.1 ∧ e.1 < 0x6000 then some ((e.1 - 0x5000) / 16) else none).eraseDups

/-! ### What a pin presents -/

/-- The park level of a pin as value and enable (R305). -/
def State.parkLevel (s : State) (p : Nat) : Bool × Bool :=
  let k := s.rf (.hdgCfg p) 21 20
  if k = 1 then (false, true) else if k = 2 then (true, true) else (false, false)

/-- A lane's output value and enable after the changes of the cycle so far (R280). -/
def Lane.out (x : Lane) : Bool × Bool :=
  x.chg.foldl (fun o c => match c.op with
    | .val b => (b, o.2)
    | .tgl => (!o.1, o.2)
    | .en b => (o.1, b)) (x.ov, x.oe)

/-- The value and enable that pin `p` presents at the lane side; none where a signal of an MBU or the chip's secure function
drives it, whose level the manual does not give (R304, R308). -/
def State.pinOut (s : State) (p : Nat) : Option (Bool × Bool) :=
  let x := s.pin p
  if s.mode = .hold ∨ s.mode = .retain then (match x.frz with | some v => some v | none => some (s.parkLevel p))
  else if x.parkTil.isSome then some (s.parkLevel p)
  else
    match x.user with
    | none => some (s.parkLevel p)
    | some (kind, idx) =>
      if kind = 0 then
        if s.mode = .rehearse then some (x.reh.getD (s.parkLevel p))
        else if s.mode = .configure then some (x.reh.getD (s.portOut (s.owner p) p, true))
        else some (s.portOut (s.owner p) p, true)
      else if kind = 1 then
        let rdrv := s.rb (.psqLcfg (idx / 8) (idx % 8)) 31
        if s.mode = .rehearse ∧ ¬ rdrv then some (x.reh.getD (s.parkLevel p))
        else if s.mode = .configure ∧ ¬ rdrv then some (x.reh.getD (s.lane (idx / 8) (idx % 8)).out)
        else some (s.lane (idx / 8) (idx % 8)).out
      else if kind = 3 ∧ idx = 0 then some (s.rb (.hdgIo p) 0, s.rb (.hdgIo p) 1)
      else none

/-- A pin measurement ends without a result (R311): FAIL = 1, RT = 0. -/
def State.tdrAbandon (s : State) : State :=
  match s.tdrPin with
  | none => s
  | some p =>
    { s.setReg .cpxTdrres (BitVec.ofNat 32 (3 <<< 30 ||| p <<< 16)) with tdrPin := none }

/-- The Hedgerow chooses the active user of a pin afresh for cycle `c`; a change parks the pin for cycles c and c + 1, and
ends a measurement on the pin (R302, R304, R311). In HOLD and RETAIN the choice is deferred (R308). -/
def State.choose (s : State) (p c : Nat) : State :=
  if s.mode = .hold ∨ s.mode = .retain ∨ s.mode = .off then s
  else
    let x := s.pin p
    let j := s.activeSlot p
    let u := j.map fun j => s.slotUser p j
    let s := if s.tdrPin = some p ∧ u.isSome then s.tdrAbandon else s
    if u = x.user then s.setPin p { x with slot := j.getD 0 }
    else s.setPin p { x with user := u, slot := j.getD 0, parkTil := some (c + 2), reh := none }

/-! ### Inputs (R306) -/

/-- Pin `p` passes its level to lane `l` of sequencer `q`: an enabled slot names the lane and the user matches. -/
def State.passes (s : State) (p q l : Nat) : Bool :=
  (upto 4).any fun j => s.slotEn p j && s.slotUser p j == (1, 8 * q + l) && userMatches (s.owner p) 1 (8 * q + l)

/-- The level that reaches a lane: that of the lowest-numbered pin that passes it one, else 0. -/
def State.laneIn (s : State) (q l : Nat) : Bool :=
  match s.pinList.foldl (fun (a : Option Nat) p =>
    if s.passes p q l then (match a with | some m => some (min m p) | none => some p) else a) none with
  | some p => (s.pin p).lvl
  | none => false

/-- A polarity field selects an edge to level `lvl`: 0b01 rising, 0b10 falling, 0b11 either. -/
def edgeSel (sel : Nat) (lvl : Bool) : Bool := if lvl then decide (sel % 2 = 1) else decide (sel / 2 = 1)

/-- A lane's level changes in this cycle at phase `ph` (R268): the edge enters the filter (R269) and reflex pairs see it
(R293). -/
def State.laneEdge (s : State) (q l : Nat) (lvl : Bool) (ph : Nat) : State :=
  let x := s.lane q l
  if x.lvl = lvl then s
  else
    let t := s.now + BitVec.ofNat 64 (ph * s.span / 8)
    let s := s.setLane q l { x with lvl := lvl, lvlCyc := some s.cycle, lvlPh := ph, edge := some ⟨s.cycle, lvl, t⟩ }
    if s.active then
      s.each (upto 4) fun s r =>
        let w := s.reg (.psqRfx q r)
        if bit w 31 ∧ fld w 2 0 = l ∧ edgeSel (fld w 28 27) lvl then
          s.setPsq q { s.psq q with rfx := (s.psq q).rfx ++ [⟨s.cycle + 3, r, ph, lvl⟩] }
        else s
    else s

/-- Each lane that a slot of pin `p` names takes the level that now reaches it. -/
def State.refreshLanes (s : State) (p ph : Nat) : State :=
  s.each (upto 4) fun s j =>
    let u := s.slotUser p j
    if u.1 = 1 then s.laneEdge (u.2 / 8) (u.2 % 8) (s.laneIn (u.2 / 8) (u.2 % 8)) ph else s

/-- A pin's enables or owner have changed: its user is chosen afresh for cycle `c`, and its lanes see what reaches them. -/
def State.pinChanged (s : State) (p c : Nat) : State := (s.choose p c).refreshLanes p 0

/-- LANE_EDGE (R268): the synchronised level of pin `p` changes in this cycle, first at phase `ph`. One change a cycle. -/
def execLaneEdge (p : Byte) (lvl : Bool) (ph : BitVec 3) (s : State) : Host.Outcome State Fault Refusal :=
  let x := s.pin p.toNat
  if x.lvl = lvl ∨ x.lvlCyc = some s.cycle ∨ s.mode = .off ∨ s.mode = .retain then .next s
  else .next ((s.setPin p.toNat { x with lvl := lvl, lvlCyc := some s.cycle }).refreshLanes p.toNat ph.toNat)

/-- PARK_END (R304): two cycles after an active-user change, the new user takes the pin. -/
def execParkEnd (p : Byte) (s : State) : Host.Outcome State Fault Refusal :=
  let x := s.pin p.toNat
  match x.parkTil with
  | none => .next s
  | some t =>
    if t ≤ s.cycle ∧ s.mode ≠ .hold ∧ s.mode ≠ .retain ∧ s.mode ≠ .off then
      .next (s.setPin p.toNat { x with parkTil := none })
    else .next s

/-- LOAD_SENSE_FINDING (R309): the finding of a sensed, driving pin changes; LOAD is reported when it becomes nonzero. -/
def execLoadSenseFinding (p : Byte) (f : BitVec 2) (s : State) : Host.Outcome State Fault Refusal :=
  let p := p.toNat
  let old := s.rf (.hdgIo p) 23 22
  let drives : Bool := match s.pinOut p with | some (_, en) => en | none => true
  if s.mode = .off ∨ s.mode = .retain ∨ ¬ s.rb (.hdgCfg p) 19 ∨ drives = false ∨ f = 3 ∨ old = f.toNat then .next s
  else
    let s := s.setRf (.hdgIo p) 23 22 f.toNat
    .next (if f = 0 then s else s.report 0x71 12 p (BitVec.ofNat 32 f.toNat) 0)

/-- A measurement may start on a pin (R310). -/
def State.tdrRefused (s : State) (p : Nat) : Bool :=
  s.tdrPin.isSome || (s.pin p).user.isSome || decide (s.rf (.hdgCfg p) 21 20 ≠ 0) || s.owner p == 0x21

/-- TDR_COMPLETE (R310): the measurement in progress ends; RT is 0 when no reflection crosses the threshold. -/
def execTdrComplete (fail pol : Bool) (rt : BitVec 11) (s : State) : Host.Outcome State Fault Refusal :=
  match s.tdrPin with
  | none => .next s
  | some p =>
    .next { s.setReg .cpxTdrres
      (BitVec.ofNat 32 (1 <<< 31 ||| b2n fail <<< 30 ||| b2n pol <<< 29 ||| p <<< 16 ||| rt.toNat)) with tdrPin := none }

/-! ### HOLD, REHEARSE and RUN (R308) -/

/-- HOLD or RETAIN freezes every output (R22). -/
def State.freezePins (s : State) : State :=
  s.each s.pinList fun s p =>
    match s.pinOut p with
    | some v => s.setPin p { s.pin p with frz := some v }
    | none => s

/-- On the return from HOLD the Hedgerow chooses afresh; a change, or a park that HOLD cut, parks for two cycles (R304). -/
def State.thawPins (s : State) : State :=
  s.each s.pinList fun s p =>
    let x := s.pin p
    let cut := x.parkTil.isSome
    let s := s.setPin p { x with frz := none }
    let s := s.choose p s.cycle
    if cut then s.setPin p { s.pin p with parkTil := some (s.cycle + 2) } else s

/-- REHEARSE takes effect: pins of private ports and of lanes keep the value they present (R308). -/
def State.rehearsePins (s : State) : State :=
  s.each s.pinList fun s p =>
    let x := s.pin p
    match x.user with
    | some (0, _) => s.setPin p { x with reh := if x.parkTil.isSome then none else s.pinOut p }
    | some (1, _) => s.setPin p { x with reh := if x.parkTil.isSome then none else s.pinOut p }
    | _ => s

/-- RUN takes effect: every user presents its present value (R26, R275). -/
def State.runPins (s : State) : State := s.each s.pinList fun s p => s.setPin p { s.pin p with reh := none }

end Sys2Proof.Machine
end

