-- ==== Sys2Proof/Machine/Psq.lean ====
section
/-! DEFINITION. Pin sequencers (11): the program engine, output changes, the action unit, shift registers, period counters,
captures, reflex pairs, trigger bits and the operations that thread ports and host registers share. -/
namespace Sys2Proof.Machine

/-- The cluster of sequencer `q` (R15). -/
def psqCl (q : Nat) : Nat := q / 8

/-! ### Output changes (R280, R288) -/

/-- A change put in its place: ascending phase, then order among sources, later changes of one place after earlier ones. -/
def insertChg (c : Chg) : List Chg → List Chg
  | [] => [c]
  | d :: r => if d.ph < c.ph ∨ (d.ph = c.ph ∧ d.pri ≤ c.pri) then d :: insertChg c r else c :: d :: r

/-- A change reaches a lane (R280): a lane with LMODE other than 0 ignores changes of its value; two changes at one phase set
COLL. -/
def State.change (s : State) (q l : Nat) (c : Chg) : State :=
  let direct := match c.op with | .en _ => true | _ => s.rf (.psqLcfg q l) 26 24 == 0
  if direct then
    let x := s.lane q l
    let s := if x.chg.any (fun d => d.ph == c.ph) then s.setRb (.psqStat q) 28 true else s
    s.setLane q l { x with chg := insertChg c x.chg }
  else s

/-- A change of each lane of a mask, with the matching bit of a value. -/
def State.changeMask (s : State) (q mask ph pri : Nat) (op : Nat → ChgOp) : State :=
  s.each (upto 8) fun s l => if mask.testBit l then s.change q l ⟨ph, pri, op l⟩ else s

/-! ### Trigger bits (R295) -/

/-- The trigger bits that WTRG sees in this cycle: those set before it. -/
def State.trigSeen (s : State) (q : Nat) : Byte :=
  let p := s.psq q
  if p.trigCyc < s.cycle then p.trig ||| p.trigNew else p.trig
/-- All trigger bits, those set in this cycle too. -/
def State.trigAll (s : State) (q : Nat) : Byte := (s.psq q).trig ||| (s.psq q).trigNew
/-- Trigger bits are set from the next cycle. -/
def State.setTrig (s : State) (q : Nat) (mask : Byte) : State :=
  let p := s.psq q
  if p.trigCyc < s.cycle then s.setPsq q { p with trig := p.trig ||| p.trigNew, trigNew := mask, trigCyc := s.cycle }
  else s.setPsq q { p with trigNew := p.trigNew ||| mask, trigCyc := s.cycle }
/-- A trigger bit is cleared; a set of the same cycle prevails. -/
def State.clrTrig (s : State) (q b : Nat) : State :=
  let seen := s.trigSeen q
  let p := s.psq q
  let new := if p.trigCyc < s.cycle then 0 else p.trigNew
  s.setPsq q { p with trig := seen &&& ~~~(1#8 <<< b), trigNew := new }

/-! ### Value registers (R290) -/

/-- VN as instructions and ticks of this cycle read it. -/
def State.vreg (s : State) (q n : Nat) : Nat := s.rf (.psqV q n) 15 0
/-- A write of VN that this cycle applies, by source: 0 program, 1 port, 2 host, 3 LOAD action. -/
def State.vwrite (s : State) (q pri n v : Nat) : State :=
  s.setPsq q { s.psq q with vq := (s.psq q).vq ++ [⟨pri, n, BitVec.ofNat 16 v⟩] }
/-- At the end of a cycle its value writes take effect, in the order of their sources. -/
def State.settleV (s : State) (q : Nat) : State :=
  let ws := (s.psq q).vq
  let s := s.each (upto 4) fun s pri => s.each (ws.filter fun w => w.pri == pri) fun s w =>
    s.setRf (.psqV q w.reg) 15 0 w.val.toNat
  s.setPsq q { s.psq q with vq := [] }

/-! ### Counters (R287 to R289) -/

def State.cnt (s : State) (q k : Nat) : Counter := if k = 0 then (s.psq q).c0 else (s.psq q).c1
def State.setCnt (s : State) (q k : Nat) (c : Counter) : State :=
  if k = 0 then s.setPsq q { s.psq q with c0 := c } else s.setPsq q { s.psq q with c1 := c }
/-- The period P of counter `k`: V0 or V2, 0 counting as 65,536. -/
def State.period (s : State) (q k : Nat) : Nat := let v := s.vreg q (2 * k); if v = 0 then 65536 else v

/-- The PWM lanes of a counter take their level for its COUNT, at phase FPH (R288). -/
def State.pwm (s : State) (q k : Nat) : State :=
  let c := s.cnt q k
  let fph := s.rf (.psqCnt q k) 25 23
  let on := decide (c.count.toNat < c.cmpl.toNat)
  s.each (upto 8) fun s l =>
    let m := s.rf (.psqLcfg q l) 26 24
    if m = k + 1 ∨ m = k + 3 then
      let x := s.lane q l
      s.setLane q l { x with chg := insertChg ⟨fph, 0, .val (if m = k + 1 then on else !on)⟩ x.chg }
    else s

/-- One tick or counted edge of a counter (R287): COUNT, the wrap with CMPL and WFLAG, SHORT, the PWM lanes. -/
def State.countUp (s : State) (q k : Nat) : State :=
  let c := s.cnt q k
  let n := c.count.toNat + 1
  let p := s.period q k
  let c := { c with ticked := some s.cycle, base := c.count }
  if n < p then ((s.setCnt q k { c with count := BitVec.ofNat 16 n })).pwm q k
  else
    let s := s.setCnt q k { c with count := 0, cmpl := BitVec.ofNat 16 (s.vreg q (2 * k + 1)), wrap := some s.cycle }
    let s := if n > p then s.setRb (.psqStat q) (26 + k) true else s
    let s := if s.rb (.psqCnt q k) 19 then s.setFlag (psqCl q) (s.rf (.psqCnt q k) 15 8) else s
    s.pwm q k

/-- COUNTER_TICK (R287): a running TIMER counter ticks every 2^PRE cycles from the cycle it started in. -/
def execCounterTick (q : BitVec 6) (k : BitVec 1) (s : State) : Host.Outcome State Fault Refusal :=
  let q := q.toNat; let k := k.toNat
  let c := s.cnt q k
  let w := s.reg (.psqCnt q k)
  if s.active ∧ bit w 31 ∧ fld w 30 29 = 0 ∧ c.start < s.cycle ∧ (s.cycle - c.start) % 2 ^ fld w 28 26 = 0 ∧
      c.ticked ≠ some s.cycle then .next (s.countUp q k)
  else .next s

/-! ### Recognised edges and captures (R269, R289, R291, R292) -/

/-- FL after every recognised edge so far. -/
def Lane.fl (x : Lane) : Bool := match x.seen.getLast? with | some e => e.lvl | none => x.flBase
/-- FL as an instruction of this cycle sees it: FL(c − 2) (R269). -/
def State.flSeen (s : State) (q l : Nat) : Bool :=
  let x := s.lane q l
  match (x.seen.filter fun e => decide (e.cyc + 2 ≤ s.cycle)).getLast? with
  | some e => e.lvl
  | none => x.flBase

/-- QUAD counts a recognised edge of lane QA (`onA`) or QB (R289): up when A leads B (PRESUMED sense); two edges in one
cycle set QERR and count nothing. -/
def State.quad (s : State) (q k : Nat) (onA : Bool) : State :=
  let w := s.reg (.psqCnt q k)
  let c := s.cnt q k
  if c.ticked = some s.cycle then (s.setCnt q k { c with count := c.base }).setRb (.psqStat q) 29 true
  else
    let a := (s.lane q (fld w 22 20)).fl
    let b := (s.lane q (fld w 18 16)).fl
    let up := if onA then a != b else a == b
    let c' := { c with ticked := some s.cycle, base := c.count, count := if up then c.count + 1 else c.count - 1 }
    (s.setCnt q k c').pwm q k

/-- The counters count a recognised edge of lane `l` to level `lvl`. -/
def State.countEdge (s : State) (q l : Nat) (lvl : Bool) : State :=
  s.each (upto 2) fun s k =>
    let w := s.reg (.psqCnt q k)
    if ¬ bit w 31 ∨ ¬ s.active then s
    else if fld w 30 29 = 2 then
      if fld w 22 20 = l ∧ edgeSel (s.rf (.psqLcfg q l) 30 29) lvl then s.countUp q k else s
    else if fld w 30 29 = 1 then
      if fld w 22 20 = l then s.quad q k true else if fld w 18 16 = l then s.quad q k false else s
    else s

/-- EDGE_RECOGNISED (R269): the edge has held through its filter cycles; captures arrive in the next cycle (R291). -/
def execEdgeRecognised (q : BitVec 6) (l : BitVec 3) (s : State) : Host.Outcome State Fault Refusal :=
  let q := q.toNat; let l := l.toNat
  let x := s.lane q l
  match x.edge with
  | none => .next s
  | some e =>
    if s.cycle < e.cyc + s.rf (.psqLcfg q l) 23 20 ∨ s.mode = .off ∨ s.mode = .retain then .next s
    else if e.lvl = x.fl then .next (s.setLane q l { x with edge := none })
    else
      let cap := edgeSel (s.rf (.psqLcfg q l) 30 29) e.lvl && (s.active || s.mode == .hold)
      let x' := { x with edge := none, seen := x.seen ++ [{ e with cyc := s.cycle }],
                         arr := if cap then x.arr ++ [(s.cycle + 1, lo32 e.time, e.lvl)] else x.arr }
      let s := s.setLane q l x'
      let s := if cap ∧ s.rb (.psqCtl q) 30 then s.setFlagAt (psqCl q) (s.rf (.psqCtl q) 23 16) (s.cycle + 1) else s
      .next (s.countEdge q l e.lvl)

/-- At the end of a cycle the captures that arrived in it enter the FIFO behind the entries left, or are lost (R292). -/
def State.settleCaps (s : State) (q l : Nat) : State :=
  let x := s.lane q l
  s.each (x.arr.filter fun a => decide (a.1 ≤ s.cycle)) fun s a =>
    let x := s.lane q l
    let x := { x with arr := x.arr.drop 1 }
    if x.caps.length < 2 then s.setLane q l { x with caps := x.caps ++ [a.2] }
    else ((s.setLane q l x).setRb (.psqCapst q l) 31 true).bumpRf (.psqCapst q l) 15 8 1

/-- Recognised edges that every reader now sees are folded into the base level. -/
def State.settleFl (s : State) (q l : Nat) : State :=
  let x := s.lane q l
  let old := x.seen.filter fun e => decide (e.cyc + 2 ≤ s.cycle)
  match old.getLast? with
  | some e => s.setLane q l { x with flBase := e.lvl, seen := x.seen.filter fun e => decide (s.cycle < e.cyc + 2) }
  | none => s

/-- At the end of a cycle the changes of a lane become its value and enable. -/
def State.settleLane (s : State) (q l : Nat) : State :=
  let x := s.lane q l
  if x.chg.isEmpty then s else s.setLane q l { x with ov := x.out.1, oe := x.out.2, chg := [] }

/-- A read of a lane's capture FIFO: the head entry, popped (R292). -/
def State.popCap (s : State) (q l : Nat) : State × DWord :=
  let x := s.lane q l
  match x.caps with
  | [] => (s, 0)
  | (t, lv) :: r => (s.setLane q l { x with caps := r }, mk64 (BitVec.ofNat 32 (b2n lv)) t)

/-! ### States (R270 to R272) -/

/-- Both counters stop (R272). -/
def State.stopCounters (s : State) (q : Nat) : State := (s.setRb (.psqCnt q 0) 31 false).setRb (.psqCnt q 1) 31 false

/-- A stop (R272): no instruction executes, the PC stays, lanes and shift registers keep what they hold. -/
def State.psqHalt (s : State) (q : Nat) (counters : Bool) : State :=
  let s := s.setPsq q { s.psq q with st := .stopped, dly := none, stopping := false }
  if counters then s.stopCounters q else s

/-- START's effect (R271); the instruction at ENTRY executes in the cycle after `ran`. -/
def State.psqStart (s : State) (q : Nat) (ran : Option Nat) : State :=
  let p := s.psq q
  let s := s.setPsq q { p with st := .running, pc := BitVec.ofNat 8 (s.rf (.psqCtl q) 7 0), dly := none, ran := ran,
                               sh0 := ⟨0, 0, 0⟩, sh1 := ⟨0, 0, 0⟩ }
  s.each (upto 8) fun s l =>
    s.setLane q l { s.lane q l with ov := s.rb (.psqLcfg q l) 27, oe := s.rb (.psqLcfg q l) 28, chg := [] }

/-- A sequencer fault (R279): it stops; PSQ_FLT and the fault unit record it. -/
def State.psqFault (s : State) (q code : Nat) (dirm : Bool) : State :=
  let pc := (s.psq q).pc.toNat
  let s := s.psqHalt q true
  let s := if s.rb (.psqFlt q) 31 then s
    else s.setReg (.psqFlt q) (BitVec.ofNat 32 (1 <<< 31 ||| b2n dirm <<< 16 ||| pc <<< 8 ||| code))
  s.report code 3 q (BitVec.ofNat 32 pc) (BitVec.ofNat 32 (b2n dirm))

/-! ### The program engine (R276 to R279) -/

/-- The program word at an address. -/
def State.progWord (s : State) (q a : Nat) : Word := s.word (progKey q (4 * (a % 256)))

/-- The bits that a row of Table 87 names. -/
def psqNamed (op : Nat) : Word :=
  match op with
  | 0x01 => 0xF8FFFF07 | 0x02 => 0xF8FF0007 | 0x03 => 0xF8FFFF07 | 0x04 => 0xFC000707 | 0x05 => 0xFC000707
  | 0x06 => 0xF800FFFF | 0x07 => 0xF8001700 | 0x08 => 0xF8000703 | 0x09 => 0xFC000000 | 0x0A => 0xF8000007
  | 0x0B => 0xF80000FF | 0x0C => 0xFF00FFFF | 0x0D => 0xFF0000FF | 0x0E => 0xF80000FF | 0x0F => 0xF80017FF
  | 0x10 => 0xFC000003 | 0x11 => 0xF8000013 | 0x12 => 0xF80001FF | _ => 0

/-- A word that R276 rejects. -/
def psqBad (w : Word) : Bool :=
  let op := fld w 31 27
  op == 0 || decide (op > 0x12) || (w &&& ~~~(psqNamed op)) != 0 ||
  (decide (1 ≤ op ∧ op ≤ 3) && fld w 23 16 == 0) || (op == 6 && fld w 15 0 == 0) || (op == 8 && fld w 1 0 == 0) ||
  (op == 0x10 && fld w 1 0 == 3)

/-- The engine may execute in this cycle. -/
def State.psqDue (s : State) (q : Nat) : Bool :=
  let p := s.psq q
  s.active && (p.st == .running || p.st == .waiting) && p.dly.isNone && p.ran != some s.cycle

/-- One execution of the row with opcode `op`: its body acts on the word. A word of another row is no event of this command;
a rejected word faults under any row (R276, R279). -/
def State.engine (s : State) (q op : Nat) (body : State → Word → State) : State :=
  if ¬ s.psqDue q then s
  else
    let w := s.progWord q (s.psq q).pc.toNat
    if psqBad w then s.psqFault q 0x01 false
    else if fld w 31 27 = op then body (s.setPsq q { s.psq q with ran := some s.cycle, st := .running }) w
    else s

/-- The instruction completes; the next one is at `pc`. -/
def State.psqGo (s : State) (q : Nat) (pc : Byte) : State := s.setPsq q { s.psq q with pc := pc }
/-- The instruction completes; the next one follows. -/
def State.psqNext (s : State) (q : Nat) : State := s.psqGo q ((s.psq q).pc + 1)
/-- A wait is evaluated (R278). -/
def State.psqWait (s : State) (q : Nat) (met : Bool) : State :=
  if met then s.psqNext q else s.setPsq q { s.psq q with st := .waiting }

/-- PSQ_SET (Table 87). -/
def execPsqSet (q : BitVec 6) (s : State) : Host.Outcome State Fault Refusal :=
  .next (s.engine q.toNat 0x01 fun s w =>
    (s.changeMask q.toNat (fld w 23 16) (fld w 2 0) 0 fun l => .val ((fld w 15 8).testBit l)).psqNext q.toNat)
/-- PSQ_TGL (Table 87). -/
def execPsqTgl (q : BitVec 6) (s : State) : Host.Outcome State Fault Refusal :=
  .next (s.engine q.toNat 0x02 fun s w =>
    (s.changeMask q.toNat (fld w 23 16) (fld w 2 0) 0 fun _ => .tgl).psqNext q.toNat)
/-- PSQ_OE (Table 87). -/
def execPsqOe (q : BitVec 6) (s : State) : Host.Outcome State Fault Refusal :=
  .next (s.engine q.toNat 0x03 fun s w =>
    (s.changeMask q.toNat (fld w 23 16) (fld w 2 0) 0 fun l => .en ((fld w 15 8).testBit l)).psqNext q.toNat)

def State.sh (s : State) (q k : Nat) : Shift := if k = 0 then (s.psq q).sh0 else (s.psq q).sh1
def State.setSh (s : State) (q k : Nat) (x : Shift) : State :=
  if k = 0 then s.setPsq q { s.psq q with sh0 := x } else s.setPsq q { s.psq q with sh1 := x }
/-- The frame length of shift register `k`. -/
def State.shLen (s : State) (q k : Nat) : Nat := s.rf (.psqShcfg q k) 6 0

/-- OUTB shifts a bit out, or stalls (R285, R286). -/
def State.outb (s : State) (q : Nat) (w : Word) : State :=
  let k := fld w 26 26
  let x := s.sh q k
  if s.rb (.psqShcfg q k) 31 then s.psqFault q 0x01 true
  else if x.bits = 0 ∨ s.cycle < x.since then s.setPsq q { s.psq q with st := .stalled }
  else
    let i := if s.rb (.psqShcfg q k) 30 then x.bits - 1 else s.shLen q k - x.bits
    let s := s.setSh q k { x with bits := x.bits - 1 }
    let s := s.change q (fld w 10 8) ⟨fld w 2 0, 0, .val (x.data.getLsbD i)⟩
    (s.setPsq q { s.psq q with st := .running }).psqNext q

/-- The sample of a lane at phase `ph` of this cycle (R268). -/
def State.sample (s : State) (q l ph : Nat) : Bool :=
  let x := s.lane q l
  if x.lvlCyc = some s.cycle ∧ ph < x.lvlPh then !x.lvl else x.lvl

/-- INB samples a lane into a shift register, or stalls (R285, R286). -/
def State.inb (s : State) (q : Nat) (w : Word) : State :=
  let k := fld w 26 26
  let x := s.sh q k
  if ¬ s.rb (.psqShcfg q k) 31 then s.psqFault q 0x01 true
  else if x.bits ≥ s.shLen q k ∨ s.cycle < x.since then s.setPsq q { s.psq q with st := .stalled }
  else
    let b := s.sample q (fld w 10 8) (fld w 2 0)
    let bit1 : DWord := BitVec.ofNat 64 (b2n b)
    let data := if s.rb (.psqShcfg q k) 30 then (x.data <<< 1) ||| bit1 else x.data ||| (bit1 <<< x.bits)
    let s := s.setSh q k { x with data := data, bits := x.bits + 1 }
    (s.setPsq q { s.psq q with st := .running }).psqNext q

/-- PSQ_OUTB (R285). -/
def execPsqOutb (q : BitVec 6) (s : State) : Host.Outcome State Fault Refusal :=
  .next (s.engine q.toNat 0x04 fun s w => s.outb q.toNat w)
/-- PSQ_INB (R285). -/
def execPsqInb (q : BitVec 6) (s : State) : Host.Outcome State Fault Refusal :=
  .next (s.engine q.toNat 0x05 fun s w => s.inb q.toNat w)
/-- SHIFT_STALL_RELEASE (R286): the stalled instruction completes once the port access that readies its register is in
effect. -/
def execShiftStallRelease (q : BitVec 6) (s : State) : Host.Outcome State Fault Refusal :=
  let q := q.toNat
  let p := s.psq q
  if s.active ∧ p.st = .stalled ∧ p.ran ≠ some s.cycle then
    let w := s.progWord q p.pc.toNat
    let s := s.setPsq q { p with ran := some s.cycle }
    .next (if fld w 31 27 = 0x04 then s.outb q w else s.inb q w)
  else .next s

/-- PSQ_DLY (Table 87): the next instruction executes CNT cycles after this one. -/
def execPsqDly (q : BitVec 6) (s : State) : Host.Outcome State Fault Refusal :=
  .next (s.engine q.toNat 0x06 fun s w => s.setPsq q.toNat { s.psq q.toNat with dly := some (s.cycle + fld w 15 0) })
/-- PSQ_DLY_EXPIRY (R277). -/
def execPsqDlyExpiry (q : BitVec 6) (s : State) : Host.Outcome State Fault Refusal :=
  let q := q.toNat
  let p := s.psq q
  match p.dly with
  | none => .next s
  | some t =>
    if s.active ∧ p.st = .running ∧ t ≤ s.cycle then .next (s.setPsq q { p with dly := none, pc := p.pc + 1 }) else .next s

/-- PSQ_WLVL (Table 87). -/
def execPsqWlvl (q : BitVec 6) (s : State) : Host.Outcome State Fault Refusal :=
  .next (s.engine q.toNat 0x07 fun s w => s.psqWait q.toNat (s.flSeen q.toNat (fld w 10 8) == bit w 12))
/-- PSQ_WEDG (Table 87). -/
def execPsqWedg (q : BitVec 6) (s : State) : Host.Outcome State Fault Refusal :=
  .next (s.engine q.toNat 0x08 fun s w => s.psqWait q.toNat
    ((s.lane q.toNat (fld w 10 8)).seen.any fun e => e.cyc + 2 == s.cycle && edgeSel (fld w 1 0) e.lvl))
/-- PSQ_WCNT (Table 87). -/
def execPsqWcnt (q : BitVec 6) (s : State) : Host.Outcome State Fault Refusal :=
  .next (s.engine q.toNat 0x09 fun s w => s.psqWait q.toNat
    (match (s.cnt q.toNat (fld w 26 26)).wrap with | some c => c + 1 == s.cycle | none => false))
/-- PSQ_WTRG (Table 87, R295). -/
def execPsqWtrg (q : BitVec 6) (s : State) : Host.Outcome State Fault Refusal :=
  .next (s.engine q.toNat 0x0A fun s w =>
    if (s.trigSeen q.toNat).getLsbD (fld w 2 0) then (s.clrTrig q.toNat (fld w 2 0)).psqNext q.toNat
    else s.psqWait q.toNat false)
/-- PSQ_SIG (Table 87). -/
def execPsqSig (q : BitVec 6) (s : State) : Host.Outcome State Fault Refusal :=
  .next (s.engine q.toNat 0x0B fun s w => (s.setFlag (psqCl q.toNat) (fld w 7 0)).psqNext q.toNat)
/-- PSQ_LDV (Table 87, R290). -/
def execPsqLdv (q : BitVec 6) (s : State) : Host.Outcome State Fault Refusal :=
  .next (s.engine q.toNat 0x0C fun s w => (s.vwrite q.toNat 0 (fld w 26 24) (fld w 15 0)).psqNext q.toNat)
/-- PSQ_DJNZ (Table 87). -/
def execPsqDjnz (q : BitVec 6) (s : State) : Host.Outcome State Fault Refusal :=
  .next (s.engine q.toNat 0x0D fun s w =>
    let v := (s.vreg q.toNat (fld w 26 24) + 0xFFFF) % 0x10000
    let s := s.vwrite q.toNat 0 (fld w 26 24) v
    if v = 0 then s.psqNext q.toNat else s.psqGo q.toNat (BitVec.ofNat 8 (fld w 7 0)))
/-- PSQ_JMP (Table 87). -/
def execPsqJmp (q : BitVec 6) (s : State) : Host.Outcome State Fault Refusal :=
  .next (s.engine q.toNat 0x0E fun s w => s.psqGo q.toNat (BitVec.ofNat 8 (fld w 7 0)))
/-- PSQ_BLV (Table 87). -/
def execPsqBlv (q : BitVec 6) (s : State) : Host.Outcome State Fault Refusal :=
  .next (s.engine q.toNat 0x0F fun s w =>
    if s.flSeen q.toNat (fld w 10 8) = bit w 12 then s.psqGo q.toNat (BitVec.ofNat 8 (fld w 7 0)) else s.psqNext q.toNat)
/-- PSQ_CNTC (Table 87, R287, R288). -/
def execPsqCntc (q : BitVec 6) (s : State) : Host.Outcome State Fault Refusal :=
  .next (s.engine q.toNat 0x10 fun s w =>
    let q := q.toNat
    let k := fld w 26 26
    let c := s.cnt q k
    let on := s.rb (.psqCnt q k) 31
    let s :=
      if fld w 1 0 = 0 then s.setRb (.psqCnt q k) 31 false
      else if fld w 1 0 = 1 then
        (s.setRb (.psqCnt q k) 31 true).setCnt q k (if on then c else { c with start := s.cycle })
      else
        ((s.setRb (.psqCnt q k) 31 true).setCnt q k
          { c with count := 0, cmpl := BitVec.ofNat 16 (s.vreg q (2 * k + 1)), start := s.cycle }).pwm q k
    s.psqNext q)
/-- PSQ_RARM (Table 87). -/
def execPsqRarm (q : BitVec 6) (s : State) : Host.Outcome State Fault Refusal :=
  .next (s.engine q.toNat 0x11 fun s w =>
    let r := Reg.psqRfx q.toNat (fld w 1 0)
    (if bit w 4 then (s.setRb r 31 true).setRb r 29 false else s.setRb r 31 false).psqNext q.toNat)
/-- PSQ_END (Table 87): the sequencer stops with the PC at the END; the counters run on (R272). -/
def execPsqEnd (q : BitVec 6) (s : State) : Host.Outcome State Fault Refusal :=
  .next (s.engine q.toNat 0x12 fun s w =>
    let s := s.psqHalt q.toNat false
    if bit w 8 then s.setFlag (psqCl q.toNat) (fld w 7 0) else s)

/-! ### Reflex pairs (R293) -/

/-- REFLEX_FIRE (R293): three cycles after a matching raw edge, the pair changes its output lane at the edge's phase. -/
def execReflexFire (q : BitVec 6) (r : BitVec 2) (s : State) : Host.Outcome State Fault Refusal :=
  let q := q.toNat; let r := r.toNat
  let p := s.psq q
  match p.rfx.find? fun x => x.pair == r && decide (x.cyc ≤ s.cycle) with
  | none => .next s
  | some x =>
    let s := s.setPsq q { p with rfx := p.rfx.erase x }
    let w := s.reg (.psqRfx q r)
    if ¬ s.active ∨ ¬ bit w 31 then .next s
    else
      let op : ChgOp := match fld w 26 25 with | 0 => .val false | 1 => .val true | 2 => .tgl | _ => .val x.lvl
      let s := s.change q (fld w 10 8) ⟨x.ph, 2 + (3 - r), op⟩
      let s := s.setRb (.psqRfx q r) 29 true
      .next (if bit w 30 then s.setRb (.psqRfx q r) 31 false else s)

/-! ### Actions (R281 to R284) -/

/-- The KIND of an action word. -/
def actKind (a : DWord) : Nat := natFld a.toNat 63 61
/-- The TIME of an action word. -/
def actTime (a : DWord) : Word := lo32 a

/-- An action word with a reserved value (Table 88). -/
def actBad (a : DWord) : Bool :=
  let f := natFld a.toNat
  let k := f 63 61
  f 60 59 != 0 || k == 0 || decide (k > 4) ||
  (decide (k ≤ 2) && (f 58 56 != 0 || f 55 48 == 0 || f 47 40 != 0)) ||
  (k == 3 && (f 55 48 != 0 || f 47 32 != 0)) || (k == 4 && f 55 48 != 0)

/-- Commons time of the next cycle as the steps accepted so far make it (R242, R282). -/
def State.nextTime (s : State) : DWord :=
  match s.commons.set with
  | some t => t
  | none => s.now + BitVec.ofNat 64 s.span + BitVec.ofInt 64 s.commons.v

/-- ACTION_LATE is reported and counted (R282). -/
def State.actionLate (s : State) (q : Nat) (a : DWord) (db : Nat) : State :=
  (s.bumpRf (.psqAcnt q) 23 16 1).report 0x12 3 q (actTime a) (BitVec.ofNat 32 db)

/-- Check 3 and the entry of a direct or host action that passed checks 1 and 2 (R282). -/
def State.queueAction (s : State) (q : Nat) (a : DWord) : State × Bool :=
  let p := s.psq q
  if p.fifo.length + p.rsvd < 64 then (s.setPsq q { p with fifo := p.fifo ++ [a] }, true)
  else (s.bumpRf (.psqAcnt q) 15 8 1, false)

/-- A held action of a committed sheaf is delivered (R227, R282): its reservation is freed, and it enters the FIFO or is
late. -/
def State.deliver (s : State) (q : Nat) (a : DWord) : State :=
  let p := s.psq q
  let s := s.setPsq q { p with rsvd := p.rsvd - 1 }
  if reached s.now32 (actTime a) then s.actionLate q a 1
  else s.setPsq q { s.psq q with fifo := (s.psq q).fifo ++ [a] }

/-- An action whose TIME lies before T(c) + D(c) (R283). -/
def State.actDue (s : State) (a : DWord) : Bool := reached (s.now32 + BitVec.ofNat 32 s.span - 1) (actTime a)

/-- The phase of this cycle that R267 gives for a short time: 0 for one already passed. -/
def State.phaseOf (s : State) (t : Word) : Nat :=
  let d := (t - s.now32).toNat
  if d < s.span then 8 * d / s.span else 0

/-- The first due action of a kind leaves the FIFO and acts (R283). -/
def State.runAction (s : State) (q kind : Nat) (act : State → DWord → State) : State :=
  let p := s.psq q
  if ¬ s.active then s
  else
    match p.fifo.find? fun a => actKind a == kind && s.actDue a with
    | none => s
    | some a => (act (s.setPsq q { p with fifo := p.fifo.erase a }) a).bump (.psqAexec q) 1

/-- ACTION_LEVEL (R283). -/
def execActionLevel (q : BitVec 6) (s : State) : Host.Outcome State Fault Refusal :=
  .next (s.runAction q.toNat 1 fun s a =>
    s.changeMask q.toNat (natFld a.toNat 55 48) (s.phaseOf (actTime a)) 1 fun l => .val (a.getLsbD (32 + l)))
/-- ACTION_DRIVE (R283). -/
def execActionDrive (q : BitVec 6) (s : State) : Host.Outcome State Fault Refusal :=
  .next (s.runAction q.toNat 2 fun s a =>
    s.changeMask q.toNat (natFld a.toNat 55 48) (s.phaseOf (actTime a)) 1 fun l => .en (a.getLsbD (32 + l)))
/-- ACTION_TRIG (R283). -/
def execActionTrig (q : BitVec 6) (s : State) : Host.Outcome State Fault Refusal :=
  .next (s.runAction q.toNat 3 fun s a => s.setTrig q.toNat (1#8 <<< natFld a.toNat 58 56))
/-- ACTION_LOAD (R283, R290). -/
def execActionLoad (q : BitVec 6) (s : State) : Host.Outcome State Fault Refusal :=
  .next (s.runAction q.toNat 4 fun s a => s.vwrite q.toNat 3 (natFld a.toNat 58 56) (natFld a.toNat 47 32))

/-! ### Registers shown (PSQ_STAT, PSQ_CNTV) and ports (R294) -/

/-- PSQ_STAT, which port 1 returns. -/
def State.psqStatWord (s : State) (q : Nat) : Word :=
  let p := s.psq q
  let ne := (upto 8).foldl (fun n l => n + b2n (!(s.lane q l).caps.isEmpty) * 2 ^ l) 0
  (s.reg (.psqStat q) &&& 0x3C000000) ||| BitVec.ofNat 32 (p.sh1.bits <<< 19 ||| p.sh0.bits <<< 12 ||| ne <<< 4 ||| p.st.code)
/-- PSQ_CNTV, which port 6 returns. -/
def State.cntv (s : State) (q : Nat) : Word := BitVec.ofNat 32 ((s.psq q).c1.count.toNat <<< 16 ||| (s.psq q).c0.count.toNat)

/-- The width in bytes of a port (Table 89). -/
def portBytes (port : Nat) : Nat :=
  if port = 0 ∨ port = 2 ∨ port = 3 then 1 else if port = 1 ∨ port = 6 ∨ port = 7 then 4 else 8
/-- A port that Table 89 makes read only. -/
def portRo (port : Nat) : Bool := port == 1 || port == 2 || port == 6 || decide (8 ≤ port)

/-- L of the eight lanes in the previous cycle (port 2). -/
def State.lanesBefore (s : State) (q : Nat) : Nat :=
  (upto 8).foldl (fun n l =>
    let x := s.lane q l
    n + b2n (if x.lvlCyc = some s.cycle then !x.lvl else x.lvl) * 2 ^ l) 0

/-- A port read of shift register `k`: its data; a full in-direction register is cleared (R285). -/
def State.readSh (s : State) (q k : Nat) : State × DWord :=
  let x := s.sh q k
  if s.rb (.psqShcfg q k) 31 ∧ x.bits = s.shLen q k ∧ x.since ≤ s.cycle then
    (s.setSh q k ⟨0, 0, s.cycle + 1⟩, x.data)
  else (s, x.data)

/-- A port write of shift register `k`: refused for an in-direction register (R285). -/
def State.writeSh (s : State) (q k : Nat) (v : DWord) : State × Bool :=
  if s.rb (.psqShcfg q k) 31 then (s, false) else (s.setSh q k ⟨v, s.shLen q k, s.cycle + 1⟩, true)

/-- A thread's read of a sequencer port. -/
def State.portRead (s : State) (q port : Nat) : State × DWord :=
  if port = 0 then (s, BitVec.ofNat 64 (s.psq q).st.code)
  else if port = 1 then (s, (s.psqStatWord q).setWidth 64)
  else if port = 2 then (s, BitVec.ofNat 64 (s.lanesBefore q))
  else if port = 3 then (s, (s.trigAll q).setWidth 64)
  else if port = 4 then s.readSh q 0
  else if port = 5 then s.readSh q 1
  else if port = 6 then (s, (s.cntv q).setWidth 64)
  else if port = 7 then (s, 0)
  else s.popCap q (port - 8)

/-- START is accepted only in REHEARSE or RUN from STOPPED; STOP from every state but STOPPED (R271). -/
def State.psqCommand (s : State) (q cmd : Nat) : State × Bool :=
  let st := (s.psq q).st
  if cmd = 1 ∧ s.active ∧ st = .stopped then (s.psqStart q (some s.cycle), true)
  else if cmd = 2 ∧ st ≠ .stopped then (s.psqHalt q true, true)
  else (s, false)

/-- A thread's write of a sequencer port: the state, and whether it was accepted (R294). -/
def State.portWrite (s : State) (q port : Nat) (v : DWord) : State × Bool :=
  if port = 0 then
    if v.toNat % 256 = 2 ∧ (s.psq q).st ≠ .stopped then (s.setPsq q { s.psq q with stopping := true }, true)
    else s.psqCommand q (if v.toNat % 256 = 1 then 1 else 0)
  else if port = 3 then (s.setTrig q (v.setWidth 8), true)
  else if port = 4 then s.writeSh q 0 v
  else if port = 5 then s.writeSh q 1 v
  else if port = 7 then
    if natFld v.toNat 31 19 = 0 then (s.vwrite q 1 (natFld v.toNat 18 16) (v.toNat % 0x10000), true) else (s, false)
  else (s, false)

/-! ### Modes (R271, R274, R284) -/

/-- Entry to CONFIGURE: the sequencer stops, queued actions are discarded and counted (R272, R284). -/
def State.psqConfigure (s : State) (q : Nat) : State :=
  let s := if (s.psq q).st = .stopped then s.stopCounters q else s.psqHalt q true
  let n := (s.psq q).fifo.length
  let s := s.bumpRf (.psqAcnt q) 31 24 n
  s.setPsq q { s.psq q with fifo := [], rfx := [] }

/-- HOLD: a sequencer in progress is HELD (R271). -/
def State.psqHold (s : State) (q : Nat) : State :=
  let p := s.psq q
  let p := { p with rfx := [] }
  if p.st = .stopped then s.setPsq q p else s.setPsq q { p with st := .held, dly := none }

/-- The return from HOLD: the instruction executes again; actions whose TIME passed are discarded late (R271, R284). -/
def State.psqReturn (s : State) (q : Nat) : State :=
  let p := s.psq q
  let late := p.fifo.filter fun a => reached s.now32 (actTime a)
  let s := s.setPsq q { p with st := if p.st = .held then .running else p.st, ran := none,
                               fifo := p.fifo.filter fun a => !reached s.now32 (actTime a) }
  s.each late fun s a => s.actionLate q a 2

/-- The sequencers whose state is listed, rising. -/
def State.psqList (s : State) : List Nat := s.psqs.map Prod.fst

end Sys2Proof.Machine
end

