-- ==== Sys2Proof/Machine/Commons.lean ====
section
/-! DEFINITION. Commons time and timer channels (10): advance, steering, watchdog; firing, links, captures, freeze. -/
namespace Sys2Proof.Machine

/-! ### The count (R241, R242) -/

/-- A touch for the watchdog (section Steering, R253). -/
def State.touch (s : State) : State := { s with commons := { s.commons with touch := s.now } }

/-- The rate that the registers give, in 2^-32 units a cycle (R242, R247). -/
def State.rateNow (s : State) : Int :=
  (fld (s.reg .cmnInci) 6 0 * 2 ^ 32 + (s.reg .cmnIncf).toNat : Nat) + (s.reg .cmnRadj).toInt

/-- Commons time of the next cycle: R242, or the value of a committed CMN_TIME write (R252). The rate that the registers give
now is in force in that cycle. -/
def State.advanceTime (s : State) : State :=
  let c := s.commons
  let sum : Int := c.adv + c.frac.toNat
  let adv : Int := sum / (2 ^ 32 : Int) + c.u + c.v
  match c.set with
  | some t => { s with commons := { c with prev := c.time, time := t, adv := s.rateNow, frac := 0, u := 0, v := 0, set := none } }
  | none =>
    let x : Int := c.time.toNat + adv
    let era := if x ≥ (2 ^ 64 : Int) then c.era + 1 else if x < 0 then c.era - 1 else c.era
    { s with commons := { c with prev := c.time, time := BitVec.ofInt 64 x, adv := s.rateNow, era := era,
                                 frac := BitVec.ofInt 32 sum, u := 0, v := 0 } }

/-- The slew remainder (R248). -/
def State.slew (s : State) : Int := (s.reg .cmnSlew).toInt

/-- SLEW_UNIT (R248): SLEWPER cycles have passed since the previous unit. -/
def execSlewUnit (s : State) : Host.Outcome State Fault Refusal :=
  let r := s.slew
  if s.mode = .off ∨ s.mode = .retain ∨ r = 0 ∨ s.commons.slewCnt < s.rf .cmnSlewper 15 0 ∨ s.commons.u ≠ 0 then .next s
  else
    let u : Int := if r > 0 then 1 else -1
    .next { s.setReg .cmnSlew (BitVec.ofInt 32 (r - u)) with commons := { s.commons with u := u, slewCnt := 0 } }

/-- A step is requested on a path (R249): the state, and whether it is accepted. -/
def State.requestStep (s : State) (path : Nat) (w : Word) : State × Bool :=
  let s := s.setReg .cmnStep w
  if w.toInt.natAbs ≤ s.rf .cmnSteplim 30 0 then
    let s := s.bumpRf .cmnStepcnt 15 0 1
    (({ s with commons := { s.commons with v := s.commons.v + w.toInt } }).touch, true)
  else
    let s := (s.setRb .cmnStat 30 true).bumpRf .cmnStepcnt 31 16 1
    (s.report 0x50 10 0 w (BitVec.ofNat 32 path), false)

/-- SYNC_LOST: reported, SYNCL set, LOCKED cleared (R253, R24). -/
def State.syncLost (s : State) (why : Nat) : State :=
  ((s.setRb .cmnStat 29 true).setRb .cmnSync 30 false).report 0x51 10 0 (BitVec.ofNat 32 why) 0

/-- WDPER µs of Commons time have passed since the latest touch (R253). -/
def State.watchdogDue (s : State) : Bool :=
  s.rb .cmnSync 31 && s.rb .cmnSync 30 &&
  decide (16000 * s.rf .cmnSync 23 0 ≤ (s.now - s.commons.touch).toNat) && s.mode != .off && s.mode != .retain

/-- WATCHDOG_EXPIRY (R253). -/
def execWatchdogExpiry (s : State) : Host.Outcome State Fault Refusal :=
  .next (if s.watchdogDue then s.syncLost 0 else s)

/-! ### Timer channels (R257 to R265) -/

def tmrMode (w : Word) : Nat := fld w 30 29
def tmrLink (w : Word) : Nat := fld w 28 27
def tmrMaster (w : Word) : Nat := fld w 26 22

/-- HOLD freezes the channel (R265). -/
def State.tmrFrozen (s : State) (ch : Nat) : Bool := s.mode == .hold && s.rf (.tmrCtl ch) 21 20 != 0
/-- The channel fires and captures now: enabled, and neither frozen nor stopped by the mode (R257, R266). -/
def State.tmrLive (s : State) (ch : Nat) : Bool :=
  s.rb (.tmrCtl ch) 31 && !s.tmrFrozen ch && s.mode != .off && s.mode != .retain

/-- A capture of the present time (R262, R263). -/
def State.tmrCapture (s : State) (ch : Nat) : State :=
  let t := s.timer ch
  if t.caps.length < 2 then s.setTimer ch { t with caps := t.caps ++ [s.now] } else s.setTimer ch { t with lost := some s.now }

/-- A read of the capture FIFO pops the head; a capture of the same cycle that found it full is kept (R263). -/
def State.tmrPop (s : State) (ch : Nat) : State × DWord :=
  let t := s.timer ch
  match t.caps with
  | [] => (s, 0)
  | v :: r =>
    match t.lost with
    | some o => (s.setTimer ch { t with caps := r ++ [o], lost := none }, v)
    | none => (s.setTimer ch { t with caps := r }, v)

/-- At the end of a cycle a capture that found the FIFO full is discarded (R263). -/
def State.tmrSettle (s : State) (ch : Nat) : State :=
  let t := s.timer ch
  match t.lost with
  | none => s
  | some _ => ((s.setTimer ch { t with lost := none }).setRb (.tmrStat ch) 30 true).bumpRf (.tmrStat ch) 15 8 1

/-- Channels that capture a change of an event flag from 0 to 1 do so (R262). -/
def State.flagCaptures (s : State) (c f : Nat) : State :=
  s.each (upto 32) fun s ch =>
    let w := s.reg (.tmrCtl ch)
    if tmrMode w = 2 ∧ fld w 1 0 = 2 ∧ fld w 18 16 = c ∧ fld w 15 8 = f ∧ s.tmrLive ch then s.tmrCapture ch else s

/-- The channel is due to fire in this cycle (R258, R264). -/
def State.tmrDue (s : State) (ch : Nat) : Bool :=
  let w := s.reg (.tmrCtl ch)
  let t := s.timer ch
  s.tmrLive ch && decide (tmrMode w ≤ 1) && t.armed && t.fired != some s.cycle &&
  (if tmrLink w = 3 then t.clk == 0 && (s.timer (tmrMaster w)).fired == some s.cycle
   else atOrAfter s.now t.next && (tmrLink w != 1 || (s.timer (tmrMaster w)).level))

/-- What a channel's own fire does to LAST, NEXT, ARMED, LATE_FIRE and SKIP (R258, R260). -/
def State.tmrAdvance (s : State) (ch : Nat) : State :=
  let w := s.reg (.tmrCtl ch)
  let t := { s.timer ch with level := !(s.timer ch).level, fired := some s.cycle }
  if tmrLink w = 3 then
    if tmrMode w = 1 then s.setTimer ch { t with last := s.now, clk := lo32 t.ivl, first := false }
    else s.setTimer ch { t with last := s.now, armed := false, first := false }
  else
    let late := atOrAfter s.commons.prev t.next
    let s := if late then s.setRb (.tmrStat ch) 31 true else s
    if tmrMode w = 0 then s.setTimer ch { t with last := t.next, armed := false, first := false }
    else
      let k := (s.now - t.next).toNat / t.ivl.toNat + 1
      let last := t.next + BitVec.ofNat 64 ((k - 1) * t.ivl.toNat)
      (s.setTimer ch { t with last := last, next := last + t.ivl, first := false }).bumpRf (.tmrStat ch) 7 0 (k - 1)

/-- What a master's fire does to its slaves and to the channels that capture it (R262, R264). -/
def State.tmrSlaves (s : State) (m : Nat) : State :=
  s.each (upto 32) fun s ch =>
    let w := s.reg (.tmrCtl ch)
    if tmrMaster w ≠ m ∨ ch ≤ m ∨ ¬ s.rb (.tmrCtl ch) 31 then s
    else if tmrMode w = 2 then (if fld w 1 0 = 1 ∧ s.tmrLive ch then s.tmrCapture ch else s)
    else if tmrLink w = 2 then
      s.setTimer ch { s.timer ch with armed := true, next := (s.timer m).last + (s.timer ch).ivl }
    else if tmrLink w = 3 ∧ s.tmrLive ch ∧ (s.timer ch).armed then
      s.setTimer ch { s.timer ch with clk := (s.timer ch).clk - 1 }
    else s

/-- A channel fires (R258). -/
def State.tmrFire (s : State) (ch : Nat) : State :=
  let w := s.reg (.tmrCtl ch)
  let s := s.tmrAdvance ch
  let s := s.bump (.tmrFires ch) 1
  let s := if bit w 19 then
      let was := s.flagNow (fld w 18 16) (fld w 15 8)
      let s := s.setFlagAt (fld w 18 16) (fld w 15 8) s.cycle
      if was then s else s.flagCaptures (fld w 18 16) (fld w 15 8)
    else s
  s.tmrSlaves ch

/-- TIMER_FIRE (R258). -/
def execTimerFire (ch : BitVec 5) (s : State) : Host.Outcome State Fault Refusal :=
  .next (if s.tmrDue ch.toNat then s.tmrFire ch.toNat else s)

/-- Writing EN from 0 to 1 (R257): LEVEL 0; a ONESHOT or PERIODIC channel is armed at the committed CMP, and under a CLOCK
link with its count, or the interval where the count is 0 (DESIGN CHOICE). -/
def State.tmrEnable (s : State) (ch : Nat) : State :=
  let w := s.reg (.tmrCtl ch)
  let t := { s.timer ch with level := false }
  if tmrMode w = 2 then s.setTimer ch { t with armed := false }
  else if tmrLink w = 3 then
    s.setTimer ch { t with armed := true, first := true, clk := if t.clk = 0 then lo32 t.ivl else t.clk }
  else s.setTimer ch { t with armed := true, first := true, next := t.cmp }

/-- A committed CMP (R259, Table 82). -/
def State.tmrSetCmp (s : State) (ch : Nat) (v : DWord) : State :=
  let w := s.reg (.tmrCtl ch)
  let t := s.timer ch
  let t := { t with cmp := v, armed := t.armed || tmrMode w == 0 }
  if tmrLink w = 3 then s.setTimer ch { t with clk := lo32 v } else s.setTimer ch { t with next := v }

/-- A committed IVL (R259). -/
def State.tmrSetIvl (s : State) (ch : Nat) (v : DWord) : State :=
  let w := s.reg (.tmrCtl ch)
  let t := s.timer ch
  if bit w 31 ∧ tmrMode w = 1 ∧ tmrLink w ≠ 3 ∧ t.armed ∧ ¬ t.first then s.setTimer ch { t with ivl := v, next := t.last + v }
  else s.setTimer ch { t with ivl := v }

/-- A write of GO = 1 (R262): a capture where CSRC selects it. -/
def State.tmrGo (s : State) (ch : Nat) : State :=
  let w := s.reg (.tmrCtl ch)
  if tmrMode w = 2 ∧ fld w 1 0 = 0 ∧ s.tmrLive ch then s.tmrCapture ch else s

/-- The return from HOLD: SLIDE channels advance NEXT by the Commons time that passed (R265). -/
def State.tmrReturn (s : State) : State :=
  s.each (upto 32) fun s ch =>
    if s.rf (.tmrCtl ch) 21 20 = 2 then
      s.setTimer ch { s.timer ch with next := (s.timer ch).next + (s.now - s.commons.holdT) }
    else s

/-- What TMR_CMP reads: NEXT, or the count under a CLOCK link. -/
def State.tmrCmpRead (s : State) (ch : Nat) : DWord :=
  if tmrLink (s.reg (.tmrCtl ch)) = 3 then (s.timer ch).clk.setWidth 64 else (s.timer ch).next

/-- TMR_STAT. -/
def State.tmrStatWord (s : State) (ch : Nat) : Word :=
  let t := s.timer ch
  (s.reg (.tmrStat ch) &&& 0xC000FFFF) |||
    BitVec.ofNat 32 (b2n t.level <<< 29 ||| b2n t.armed <<< 28 ||| t.caps.length <<< 26)

end Sys2Proof.Machine
end

