-- ==== Sys2Proof/Machine/Threads.lean ====
section
/-! DEFINITION. Thread states (R59 to R62, R81, R384): the transitions of Table 20, the settings that need SYNC (R72), the
hardware loop ends (R128), and the commands that start, stop, halt, resume and step a thread. -/
namespace Sys2Proof.Machine

/-! ### Settings of a thread -/

/-- A register of thread `g`'s block. -/
def thrReg (r : Nat → Nat → Reg) (g : Nat) : Reg := r (coreOf g) (locOf g)
/-- CORE_TCTL, the special register TCB. -/
def State.tcb (s : State) (g : Nat) : Word := s.reg (thrReg .coreTctl g)
/-- A setting as the fetch, issue, event and rounding logic of this cycle sees it (R72). -/
def State.lagged (s : State) (k : LagKey) (cur : Word) : Word :=
  match s.lags.find? fun l => l.key == k && decide (s.cycle < l.til) with
  | some l => l.old
  | none => cur
/-- A thread's instruction writes a setting of R71: the old value stays in use for 5 cycles (R72). -/
def State.lag (s : State) (k : LagKey) (old : Word) : State := { s with lags := s.lags ++ [⟨k, old, s.cycle + 5⟩] }

def State.tcbNow (s : State) (g : Nat) : Word := s.lagged (.tcb g) (s.tcb g)
def State.winNow (s : State) (g : Nat) : Word := s.lagged (.win g) (s.reg (thrReg .coreWin g))
def State.evvNow (s : State) (g : Nat) : Word := s.lagged (.evv g) (s.reg (thrReg .coreEvv g))
def State.fpcNow (s : State) (g : Nat) : Word := s.lagged (.fpc g) (s.thr g).fpc
def State.slotNow (s : State) (n e : Nat) : Nat := fld (s.lagged (.slot n e) (s.reg (.coreSlot n e))) 4 0
/-- The thread is deterministic (R68). -/
def State.det (s : State) (g : Nat) : Bool := bit (s.tcbNow g) 0
/-- Constant-time mode (R155). -/
def State.ct (s : State) (g : Nat) : Bool := bit (s.tcbNow g) 1

/-- The domain that a thread is a member of (R37). -/
def State.memberDom (s : State) (g : Nat) : Option Nat :=
  if s.rb (.ldgTbud g) 31 then some (s.rf (.ldgTbud g) 29 28) else none

/-! ### Hardware loops (R127, R128) -/

def Thread.loop (t : Thread) (i : Nat) : Loop :=
  if i = 0 then t.l0 else if i = 1 then t.l1 else if i = 2 then t.l2 else t.l3
def Thread.setLoop (t : Thread) (i : Nat) (l : Loop) : Thread :=
  if i = 0 then { t with l0 := l } else if i = 1 then { t with l1 := l } else if i = 2 then { t with l2 := l }
  else { t with l3 := l }

/-- The end check over some levels, highest first, where `nxt` is the address of the next sequential instruction (R128). -/
def endCheck (lcfg : Nat) (nxt : Word) : List Nat → Thread → Thread
  | [], t => { t with pc := nxt }
  | i :: r, t =>
    let l := t.loop i
    if lcfg.testBit i ∧ l.lc ≠ 0 ∧ l.le = nxt then
      if l.lc = 1 then endCheck lcfg nxt r (t.setLoop i { l with lc := 0 })
      else { t.setLoop i { l with lc := l.lc - 1 } with pc := l.ls }
    else endCheck lcfg nxt r t

/-- The thread goes on to the next instruction in sequence, by the end check of R128. -/
def State.goOn (s : State) (g : Nat) (nxt : Word) : State :=
  s.setThr g (endCheck (fld (s.tcbNow g) 11 8) nxt [3, 2, 1, 0] (s.thr g))

/-! ### Transitions (Table 20) -/

/-- A thread enters IDLE: its context stays, its memberships and open messages end (R61, R209, R211, R220). -/
def State.toIdle (s : State) (g : Nat) : State :=
  (s.setThr g { s.thr g with st := .idle, prior := .idle, cause := 0, bp := 0, doze := .none, again := [], waitOn := none,
                             stopReq := none, haltReq := none, step := false, skipBp := false, div := none, mem := none }).leaveChans g

/-- A thread enters FAULTED: the fault is recorded and reported (R81). -/
def State.threadFault (s : State) (g code : Nat) (db : Word) : State :=
  let t := s.thr g
  let s := s.setThr g { t with st := .faulted, prior := .idle, doze := .none, waitOn := none, step := false,
                               cause := 0, skipBp := false, div := none }
  let s := s.setReg (thrReg .coreTfault g) (BitVec.ofNat 32 (0x80000000 + code))
  let s := s.setReg (thrReg .coreTfpc g) t.pc
  (s.report code 0 g t.pc db).leaveChans g

/-- A thread enters HALTED with a cause; the swath it takes part in knows it (R51). -/
def State.toHalted (s : State) (g cause bp : Nat) : State :=
  let t := s.thr g
  s.setThr g { t with st := .halted, prior := t.st, cause := cause, bp := bp, stopReq := none, haltReq := none, step := false,
                      waitOn := if t.st = .waiting then none else t.waitOn,
                      part := t.part.map fun p => { p with halted := true } }

/-- A stop to IDLE is accepted: at the next instruction boundary from READY, at once otherwise (Table 20, R384). -/
def State.stopThread (s : State) (g : Nat) : State :=
  let t := s.thr g
  match t.st with
  | .idle => s
  | .ready => if t.stopReq.isSome then s else s.setThr g { t with stopReq := some s.cycle }
  | _ => s.toIdle g

/-- A halt is accepted (Table 20, R384): the earliest pending cause stands, and in one cycle the lowest; entry to CONFIGURE
turns a HOLD halt into CAUSE 6. -/
def State.haltThread (s : State) (g cause : Nat) : State :=
  let t := s.thr g
  match t.st with
  | .idle => s
  | .ready =>
    match t.haltReq with
    | none => s.setThr g { t with haltReq := some (cause, s.cycle) }
    | some (c, cy) =>
      if (c = 4 ∧ cause = 6) ∨ (cy = s.cycle ∧ cause < c) then s.setThr g { t with haltReq := some (cause, cy) } else s
  | .faulted => if cause = 6 then s else s.toHalted g cause 0
  | .halted => if cause = 6 ∧ t.cause = 4 then s.setThr g { t with cause := 6 } else s
  | _ => s.toHalted g cause 0

/-- The pending stop or halt of a thread takes effect: a stop prevails (R384). -/
def State.stopNow (s : State) (g : Nat) : State :=
  let t := s.thr g
  if t.stopReq.isSome then s.toIdle g
  else match t.haltReq with
    | some (c, _) =>
      if t.st = .faulted ∧ c = 6 then s.setThr g { t with haltReq := none } else s.toHalted g c 0
    | none => s

/-- An accepted stop or halt is at the thread's next instruction boundary. -/
def State.stopDue (s : State) (g : Nat) : Bool :=
  let t := s.thr g
  (t.st == .ready || t.st == .faulted) && decide (t.next ≤ s.cycle) &&
  ((match t.stopReq with | some c => decide (c < s.cycle) | none => false) ||
   (match t.haltReq with | some (_, c) => decide (c < s.cycle) | none => false))

/-- THREAD_STOP_AT_BOUNDARY (R384). -/
def execThreadStopAtBoundary (g : Tid) (s : State) : Host.Outcome State Fault Refusal :=
  .next (if s.stopDue g.toNat then s.stopNow g.toNat else s)

/-- START of an IDLE thread: READY at CORE_PC(t), first issuing in the next cycle or later (R60, R61). It takes part in no
swath until it is released (R383). -/
def State.startThread (s : State) (g : Nat) : State :=
  let t := s.thr g
  if t.st = .idle then
    s.setThr g { t with st := .ready, next := max t.next (s.cycle + 1), part := t.part.map fun p => { p with restarted := true } }
  else s

/-- The thread goes on after its DOZE (R128, R137). -/
def State.wakeDoze (s : State) (g : Nat) : State :=
  let t := s.thr g
  match t.doze with
  | .til _ nxt => (s.setThr g { t with st := .ready, doze := .none }).goOn g nxt
  | _ => s.setThr g { t with st := .ready, doze := .none }

/-- A thread returns to its PRIOR state (Table 20): a DOZING that its release or wake time ended, or that has no domain to
release it, becomes READY (R39). It issues at cycle `first` or later. -/
def State.resume (s : State) (g first : Nat) : State :=
  let t := s.thr g
  let skip := t.cause == 2
  let t := { t with st := t.prior, prior := .idle, cause := 0, bp := 0, step := false, next := max t.next first,
                    skipBp := skip || t.skipBp }
  let s := s.setThr g t
  if t.st = .dozing then
    match t.doze with
    | .none => s.setThr g { t with st := .ready }
    | .swath => if (s.memberDom g).isSome then s else s.setThr g { t with st := .ready, doze := .none }
    | .til w _ => if atOrAfter s.now w then s.wakeDoze g else s
  else s

/-- DOZE_WAKE (R137): the wake time is reached; while HALTED it is remembered by the time itself (Table 20). -/
def execDozeWake (g : Tid) (s : State) : Host.Outcome State Fault Refusal :=
  let g := g.toNat
  let t := s.thr g
  match t.st, t.doze with
  | .dozing, .til w _ => .next (if s.active ∧ atOrAfter s.now w then s.wakeDoze g else s)
  | _, _ => .next s

/-! ### CORE_TCMD and CORE_DBGCMD (R61, R373, R374) -/

/-- CORE_TCMD: the state, and whether the command was accepted. -/
def State.tcmdCmd (s : State) (n cmd t : Nat) : State × Bool :=
  let g := 16 * n + t
  let th := s.thr g
  let s1 := s.setThr g { th with tcmd := some s.cycle }
  if cmd = 1 ∧ th.st = .idle then (s1.startThread g, true)
  else if cmd = 2 ∧ th.st ≠ .idle then (s1.stopThread g, true)
  else if cmd = 3 ∧ th.st = .faulted then (s1.toIdle g, true)
  else (s, false)

/-- The thread is HALTED with a cause that RESUME and STEP accept (Table 118). -/
def Thread.debugHalted (t : Thread) : Bool :=
  t.st == .halted && !t.step && (t.cause == 1 || t.cause == 2 || t.cause == 3 || t.cause == 5)

/-- CORE_DBGCMD (Table 118): the state, and whether the command was accepted. -/
def State.debugCmd (s : State) (n cmd t : Nat) : State × Bool :=
  let g := 16 * n + t
  let th := s.thr g
  if ¬ s.active then (s, false)
  else if cmd = 1 ∧ th.st ≠ .idle ∧ th.st ≠ .halted then (s.haltThread g 1, true)
  else if cmd = 2 ∧ th.debugHalted then (s.resume g (s.cycle + 2), true)
  else if cmd = 3 ∧ th.debugHalted ∧ (th.prior = .ready ∨ th.prior = .waiting) then
    (s.setThr g { th with step := true, skipBp := th.cause == 2 || th.skipBp, next := max th.next (s.cycle + 2) }, true)
  else (s, false)

/-- A thread that a boundary of this cycle released is READY from the next cycle (Table 18). -/
def Thread.justReleased (t : Thread) (c : Nat) : Bool :=
  t.st == .ready && (match t.part with | some p => p.start == c && t.next == c + 1 && p.passed == 0 && !p.done | none => false)
/-- The state in which the issue logic counts a thread: its PRIOR while a STEP lasts (R374). -/
def Thread.eff (t : Thread) : TState := if t.step then t.prior else t.st
/-- The thread may issue as far as its state and its requests say (R57, R365). -/
def State.mayIssue (s : State) (g : Nat) : Bool :=
  let t := s.thr g
  (t.eff == .ready || t.eff == .waiting) &&
  !(match t.stopReq with | some c => decide (c < s.cycle) | none => false) &&
  !(match t.haltReq with | some (_, c) => decide (c < s.cycle) | none => false)

/-- Every thread of a core is IDLE or HALTED, or the complex is in CONFIGURE (CORE_STAT.STOPPED). -/
def State.coreStopped (s : State) (n : Nat) : Bool :=
  s.mode == .configure || (upto 16).all fun t =>
    let st := (s.thr (16 * n + t)).st
    st == .idle || st == .halted

/-- The threads that are listed, rising. Every other thread is IDLE as reset leaves it. -/
def State.threadList (s : State) : List Nat := s.threads.map Prod.fst

end Sys2Proof.Machine
end

