-- ==== Sys2Proof/Machine/Mover.lean ====
section
/-! DEFINITION. Block movers (R184 to R188): starts, descriptors, the end of a chain. -/
namespace Sys2Proof.Machine

/-- The cluster of mover `m` (R37). -/
def moverCl (m : Nat) : Nat := m / 4
/-- The shared offset of word `w` of the control block of mover `m` (R184). -/
def moverBlk (m w : Nat) : Nat := 0x7FF00 + 0x40 * (m % 4) + 4 * w
/-- A word of the mover's cluster, by shared offset. -/
def State.moverWord (s : State) (m off : Nat) : Word := s.word (sharedKey (moverCl m) off)
/-- MCTL, as it stands. -/
def State.mctl (s : State) (m : Nat) : Word := s.moverWord m (moverBlk m 0)

/-- The mover writes MSTAT: BUSY and ERR; LOST stays as the word holds it. -/
def State.moverStat (s : State) (m : Nat) (busy : Bool) (err : Nat) : State :=
  let k := sharedKey (moverCl m) (moverBlk m 2)
  s.setWord k (BitVec.ofNat 32 (b2n busy <<< 31 ||| err <<< 16 ||| fld (s.word k) 15 8 <<< 8))

/-- The mover stops its chain, or does not begin one (R188): ERR, BUSY, the report. -/
def State.moverStop (s : State) (m code : Nat) (da : Word) : State :=
  let s := s.setMover m { s.mover m with on := false, last := false, held := false }
  (s.moverStat m false code).report code 1 m da 0

/-- DA of an ECC_UE that names a granule: REG and ADDR as in CPX_UEREC (Table 112). -/
def ueWord (g : Nat) : Word :=
  match regionOf g with
  | some (r, base) => setFld (BitVec.ofNat 32 (g - base)) 30 28 r
  | none => 0

/-- A reserved encoding of MCTL. -/
def mctlBad (w : Word) : Bool := decide (fld w 30 29 > 1) || fld w 28 25 != 0 || fld w 15 8 != 0
/-- A reserved encoding of MDESC or of NEXT. -/
def mdescBad (w : Word) : Bool := fld w 31 19 != 0 || fld w 3 0 != 0

/-- A start of mover `m` whose MCTL has EN = 1 (R185, R187, R188). -/
def State.moverStart (s : State) (m : Nat) : State :=
  let c := moverCl m
  let k := sharedKey c (moverBlk m 0)
  if (s.mover m).on then
    let ks := sharedKey c (moverBlk m 2)
    s.setWord ks (satFld (s.word ks) 15 8 1)
  else
    match s.touchRead k 8 2 with
    | (s, some g) => s.moverStop m 0x41 (ueWord g)
    | (s, none) =>
      let desc := s.word (k + 4)
      if mctlBad (s.word k) then s.moverStop m 0x60 (BitVec.ofNat 32 (moverBlk m 0))
      else if mdescBad desc then s.moverStop m 0x60 (BitVec.ofNat 32 (moverBlk m 1))
      else
        let ks := sharedKey c (moverBlk m 2)
        let s := s.setMover m { s.mover m with on := true, desc := fld desc 18 0, last := false, held := false }
        s.moverStat m true (fld (s.word ks) 23 16)

/-- The boundary of its domain starts a registered mover whose MCTL has EN = 1 and a TRIG other than 0b01 (R40, R185). -/
def State.moverBoundary (s : State) (m : Nat) : State :=
  let w := s.mctl m
  if s.active ∧ bit w 31 ∧ fld w 30 29 ≠ 1 then s.moverStart m else s

/-- MOVER_FLAG_START (R185): with TRIG = 0b01, in the cycle after SFLAG is set, which it clears. -/
def execMoverFlagStart (m : BitVec 5) (s : State) : Host.Outcome State Fault Refusal :=
  let m := m.toNat
  let w := s.mctl m
  if s.active ∧ bit w 31 ∧ fld w 30 29 = 1 ∧ s.flagNow (moverCl m) (fld w 7 0) then
    .next ((s.moverStart m).clrFlag (moverCl m) (fld w 7 0))
  else .next s

/-! ### Copying (R186) -/

/-- The size of a space. -/
def spaceSize (sp : Nat) : Nat :=
  if sp = 0 then 0x100000000 else if sp = 1 then 0x80000 else if sp = 2 then 0x40000 else if sp = 3 then 0x200000 else 0x20000
/-- The key of byte `a` of a block space of cluster `c`; the live copy in space 3. -/
def State.spaceKey (s : State) (c sp a : Nat) : Nat :=
  if sp = 1 then sharedKey c a
  else if sp = 2 then nearKey (4 * c + a / 0x10000) (a % 0x10000)
  else if sp = 3 then s.liveKey a
  else bitKey (4 * c + a / 0x8000) (a % 0x8000)

/-- A byte read by a mover: the state, and the byte or the granule that stops the chain. -/
def State.moverRead (s : State) (c sp a : Nat) : State × Except Nat Byte :=
  if sp = 0 then (s, .ok (s.chipByte a))
  else
    let k := s.spaceKey c sp a
    match s.touchRead k 1 2 with
    | (s, some g) => (s, .error g)
    | (s, none) => (s, .ok (s.byteAt k))

/-- Up to `n` bytes read from `a` on: what came before an uncorrectable granule, and the granule. -/
def State.moverGather (s : State) (c sp : Nat) : Nat → Nat → List Byte → State × List Byte × Option Nat
  | 0, _, acc => (s, acc.reverse, none)
  | n + 1, a, acc =>
    match s.moverRead c sp a with
    | (s, .error g) => (s, acc.reverse, some g)
    | (s, .ok b) => s.moverGather c sp n (a + 1) (b :: acc)

/-- Bytes written from `a` on. -/
def State.moverPut (s : State) (c sp a : Nat) (bs : List Byte) : State :=
  if sp = 0 then (bs.foldl (fun (p : State × Nat) b => (p.1.setChip p.2 b, p.2 + 1)) (s, a)).1
  else s.memWrite (s.spaceKey c sp a) bs

/-- What ends the copying of a descriptor early. -/
inductive MoverEnd where
  | ok | space | ue (g : Nat)
deriving DecidableEq, Repr

/-- `n` bytes copied in ascending order, a destination granule at a time; `fuel` bounds the pieces. -/
def State.moverCopy (s : State) (c ssp dsp : Nat) : Nat → Nat → Nat → Nat → State × MoverEnd
  | 0, _, _, _ => (s, .ok)
  | fuel + 1, n, src, dst =>
    if n = 0 then (s, .ok)
    else
      let piece := min n (8 - dst % 8)
      let room := min (spaceSize ssp - src) (spaceSize dsp - dst)
      let m := min piece room
      if m = 0 then (s, .space)
      else
        let (s, bs, bad) := s.moverGather c ssp m src []
        let s := if bs.isEmpty then s else s.moverPut c dsp dst bs
        match bad with
        | some g => (s, .ue g)
        | none => s.moverCopy c ssp dsp fuel (n - m) (src + m) (dst + m)

/-- The first word of a descriptor that holds a reserved encoding (Table 64). -/
def descBad (w0 w3 : Word) : Option Nat :=
  if mdescBad w0 then some 0
  else
    let dsp := fld w3 30 28
    if dsp = 3 ∨ dsp > 4 ∨ fld w3 27 25 > 4 ∨ fld w3 24 20 ≠ 0 ∨ fld w3 19 0 = 0 then some 3 else none

/-- A chain in progress goes on: in REHEARSE and RUN, to the end of its descriptor in HOLD, and to its end after an entry to
CONFIGURE (Table 11, "in flight"). -/
def State.moverRuns (s : State) : Bool := s.active || s.mode == .hold || s.mode == .configure

/-- The mover finishes its present descriptor and takes the next (R186, R188). -/
def State.moverStep (s : State) (m : Nat) : State :=
  let c := moverCl m
  let d := (s.mover m).desc
  let k := sharedKey c d
  match s.touchRead k 16 2 with
  | (s, some g) => s.moverStop m 0x41 (ueWord g)
  | (s, none) =>
    let w0 := s.word k
    let w3 := s.word (k + 12)
    match descBad w0 w3 with
    | some w => s.moverStop m 0x60 (BitVec.ofNat 32 (d + 4 * w))
    | none =>
      let n := fld w3 19 0
      match s.moverCopy c (fld w3 27 25) (fld w3 30 28) (n + 1) n (s.word (k + 4)).toNat (s.word (k + 8)).toNat with
      | (s, .space) => s.moverStop m 0x04 (BitVec.ofNat 32 d)
      | (s, .ue g) => s.moverStop m 0x41 (ueWord g)
      | (s, .ok) =>
        let mv := s.mover m
        s.setMover m { mv with last := bit w3 31, desc := if bit w3 31 then d else fld w0 18 0, held := s.mode == .hold }

/-- MOVER_DESCRIPTOR_DONE (R186). In HOLD only the descriptor in progress is finished (R185). -/
def execMoverDescriptorDone (m : BitVec 5) (s : State) : Host.Outcome State Fault Refusal :=
  let mv := s.mover m.toNat
  if mv.on ∧ ¬ mv.last ∧ ¬ mv.held ∧ s.moverRuns then .next (s.moverStep m.toNat) else .next s

/-- The return from HOLD: the movers go on with the next descriptor (R185). -/
def State.moversReturn (s : State) : State :=
  s.each (s.movers.map Prod.fst) fun s m => s.setMover m { s.mover m with held := false }

/-- Entry to CONFIGURE: a chain that HOLD stopped between descriptors is dropped, and no member is checked (Table 12). -/
def State.moversConfigure (s : State) : State :=
  s.each (s.movers.map Prod.fst) fun s m =>
    let mv := s.mover m
    let s := s.setMover m { mv with fin := false, done := false, chk := false }
    if mv.on ∧ mv.held then (s.setMover m { s.mover m with on := false, last := false, held := false }).moverStat m false 0
    else s

/-- MOVER_CHAIN_COMPLETE (R187): MDONE, BUSY and DFLAG; for the ledger, the mover's finish. -/
def execMoverChainComplete (m : BitVec 5) (s : State) : Host.Outcome State Fault Refusal :=
  let m := m.toNat
  let mv := s.mover m
  if mv.on ∧ mv.last ∧ s.moverRuns then
    let kd := sharedKey (moverCl m) (moverBlk m 3)
    let s := s.setWord kd (s.word kd + 1)
    let s := s.moverStat m false 0
    let s := s.setMover m { s.mover m with on := false, last := false, held := false, fin := true }
    let w := s.mctl m
    .next (if bit w 24 then s.setFlag (moverCl m) (fld w 23 16) else s)
  else .next s

end Sys2Proof.Machine
end

