-- ==== Sys2Proof/Machine/Gleaner.lean ====
section
/-! DEFINITION. Scrub writes (R190), the Gleaner (R193 to R197) and the secure wipe (R198). -/
namespace Sys2Proof.Machine

/-- SCRUB_WRITE (R190): the bank writes the oldest corrected granule back. -/
def execScrubWrite (s : State) : Host.Outcome State Fault Refusal :=
  match s.scrubs with
  | [] => .next s
  | g :: r =>
    if s.mode = .off ∨ s.mode = .retain then .next s
    else
      let s := if s.mark g = .fixable then s.setMark g .clean else s
      .next { s with scrubs := r }

/-! ### The Gleaner -/

/-- The Gleaner runs (R193). -/
def State.gleanRuns (s : State) : Bool := s.active || s.mode == .configure
/-- The region is enabled in CPX_GCTL. -/
def State.gleanEn (s : State) (r : Nat) : Bool := s.rb .cpxGctl r

/-- The window after the present one: the next of its region, else the first of the next enabled region; past the last, a new
pass begins (R193). -/
def State.gleanAdvance (s : State) : State :=
  let g := s.gleaner
  let g' := { g with ph := .idle, yielded := false }
  if s.gleanEn g.reg ∧ g.win + 1 < (regionSpan g.reg).2 / 256 then { s with gleaner := { g' with win := g.win + 1 } }
  else
    match (upto 7).find? fun r => decide (g.reg < r) && s.gleanEn r with
    | some r => { s with gleaner := { g' with reg := r, win := 0 } }
    | none =>
      let s := s.bumpRf .cpxGstat 31 20 1
      { s with gleaner := { g' with reg := ((upto 7).find? s.gleanEn).getD g.reg, win := 0 } }

/-- The Gleaner begins the present window, or the first of the next enabled region where its own is not enabled. -/
def State.gleanSeek (s : State) : State :=
  let g := s.gleaner
  if s.gleanEn g.reg then s
  else
    match (upto 7).find? fun r => decide (g.reg < r) && s.gleanEn r with
    | some r => { s with gleaner := { g with reg := r, win := 0 } }
    | none => match (upto 7).find? s.gleanEn with
      | some r => { s with gleaner := { g with reg := r, win := 0 } }
      | none => s

/-- COPY (R193): the window goes into the shadow, corrected; an uncorrectable error ends it untested (R191). -/
def State.gleanCopy (s : State) : State :=
  if (upto 7).any s.gleanEn then
    let s := s.gleanSeek
    let b := s.gleanBase
    match s.touchRead b 256 4 with
    | (s, some g) =>
      let r := s.gleaner.reg
      let s := s.report 0x41 8 r (setFld (BitVec.ofNat 32 (g - (regionSpan r).1)) 30 28 r) 4
      s.gleanAdvance
    | (s, none) =>
      let s := s.each (upto 256) fun s i => s.setCell (gshadowKey i) (s.cell (b + i))
      { s with gleaner := { s.gleaner with ph := .copy, yielded := false } }
  else s

/-- GLEANER_COPY (R193). -/
def execGleanerCopy (s : State) : Host.Outcome State Fault Refusal :=
  .next (if s.gleanRuns ∧ s.gleaner.ph = .idle then s.gleanCopy else s)

/-- The record of a failing bit (CPX_GFAIL) and its report (R196). -/
def State.gleanFail (s : State) (addr bit : Nat) (chk : Bool) : State :=
  let r := s.gleaner.reg
  let s := if s.rb .cpxGfail 31 then s
    else s.setReg .cpxGfail
      (BitVec.ofNat 32 (1 <<< 31 ||| r <<< 28 ||| b2n chk <<< 27 ||| (if chk then 0 else bit) <<< 24 ||| addr))
  let s := s.report 0x42 8 r (BitVec.ofNat 32 addr) (BitVec.ofNat 32 (b2n chk <<< 3 ||| (if chk then 0 else bit)))
  { s with gleaner := { s.gleaner with ph := .restore } }

/-- GLEANER_TEST (R193, R196): the patterns are written to every granule and read back; `bad` is a read that mismatches. An
armed injection meets the test's own write of its granule and shows as a failing bit 0. -/
def execGleanerTest (bad : Option BadBit) (s : State) : Host.Outcome State Fault Refusal :=
  if s.gleanRuns ∧ s.gleaner.ph = .copy then
    let b := s.gleanBase
    let base := (regionSpan s.gleaner.reg).1
    let k := granOf s.injectKey
    let s : State := { s with gleaner := { s.gleaner with ph := .test } }
    if s.rb .cpxEinj 31 ∧ s.inWindow k then .next ((s.setRb .cpxEinj 31 false).gleanFail (k - base) 0 false)
    else
      match bad with
      | none => .next s
      | some x =>
        let a := b + x.byte.toNat
        .next (s.gleanFail ((if x.chk then granOf a else a) - base) x.bit.toNat x.chk)
  else .next s

/-- GLEANER_RESTORE (R193, R195): the shadow is written back with fresh check bits; a window that yielded waits 1,024 cycles
for its retry, and in HOLD for the return. -/
def execGleanerRestore (s : State) : Host.Outcome State Fault Refusal :=
  let g := s.gleaner
  if (g.ph = .test ∨ g.ph = .restore) ∧ s.mode ≠ .off ∧ s.mode ≠ .retain then
    let b := s.gleanBase
    let s := s.each (upto 256) fun s i => s.setCell (b + i) (s.cell (gshadowKey i))
    let s := s.each (granules b 256) fun s k => s.setMark k .clean
    let s : State := { s with scrubs := s.scrubs.filter fun k => !s.inWindow k }
    if g.yielded then
      let ph : GPhase := if s.mode = .hold then .idle else .wait
      .next { s with gleaner := { s.gleaner with ph := ph, retry := s.cycle + 1024, yielded := false } }
    else .next s.gleanAdvance
  else .next s

/-- GLEANER_RETRY (R195): the window begins again from COPY. -/
def execGleanerRetry (s : State) : Host.Outcome State Fault Refusal :=
  if s.gleanRuns ∧ s.gleaner.ph = .wait ∧ s.gleaner.retry ≤ s.cycle then
    .next ({ s with gleaner := { s.gleaner with ph := .idle } }).gleanCopy
  else .next s

/-- Entry to HOLD or RETAIN stops the Gleaner (R193, R197): a COPY ends untested, a TEST goes to its restore. -/
def State.gleanStop (s : State) : State :=
  let g := s.gleaner
  match g.ph with
  | .copy => { s with gleaner := { g with ph := .idle } }
  | .test => { s with gleaner := { g with ph := .restore, yielded := true } }
  | .wait => { s with gleaner := { g with ph := .idle } }
  | _ => s

/-- CPX_GSTAT. -/
def State.gstatWord (s : State) : Word :=
  let g := s.gleaner
  let act := decide (g.ph = .copy ∨ g.ph = .test ∨ g.ph = .restore)
  (s.reg .cpxGstat &&& 0xFFF00000) ||| BitVec.ofNat 32 (b2n act <<< 19 ||| g.reg <<< 16 ||| g.win)

/-! ### The secure wipe (R198) -/

/-- A key of secure RAM. -/
def isSecureKey (k : Nat) : Bool := decide (0x580000 ≤ k) && decide (k < 0x590000)

/-- Secure RAM is written to zero with valid check bits, the Gleaner's shadow of a secure window with it. -/
def State.zeroSecure (s : State) : State :=
  let hidden := decide (s.gleaner.reg = 6 ∧ s.gleaner.ph ≠ .idle)
  let s := if s.gleaner.reg = 6 then s.yield s.gleanBase 1 else s
  let s := { s with ram := s.ram.filter (fun e => !isSecureKey e.1 &&
                      !(hidden && decide (0x1010000 ≤ e.1) && decide (e.1 < 0x1010100))),
                    ecc := s.ecc.filter fun e => !isSecureKey e.1,
                    scrubs := s.scrubs.filter fun k => !isSecureKey k }
  if s.rb .cpxEinj 31 ∧ isSecureKey s.injectKey then s.writeMarks s.injectKey 8 else s

/-- A cause of a wipe: it starts, or starts again; in OFF by power removal there is nothing to wipe. -/
def State.startWipe (s : State) (cause : Nat) : State :=
  if s.off = .unpowered then s else (s.setRb .cpxSwipe 30 true).setRf .cpxSwipe 1 0 cause

/-- TAMPER_INPUT (R198). -/
def execTamperInput (s : State) : Host.Outcome State Fault Refusal := .next (s.startWipe 1)
/-- LIFECYCLE_CHANGE (R198). -/
def execLifecycleChange (s : State) : Host.Outcome State Fault Refusal := .next (s.startWipe 2)
/-- WIPE_COMPLETE (R198): the contents are zero; the report is made in every mode but OFF. -/
def execWipeComplete (s : State) : Host.Outcome State Fault Refusal :=
  if s.rb .cpxSwipe 30 then
    let s := s.zeroSecure
    let s := (s.setRb .cpxSwipe 30 false).setRb .cpxSwipe 31 true
    .next (s.report 0x72 13 0 (BitVec.ofNat 32 (s.rf .cpxSwipe 1 0)) 0)
  else .next s

end Sys2Proof.Machine
end

