-- ==== Sys2Proof/Machine/Swath.lean ====
section
/-! DEFINITION. Swath domains and the ledger (02): boundaries, releases, budgets, misses, grace. -/
namespace Sys2Proof.Machine

/-! ### Domains (R31 to R36) -/

/-- The period in force, in Commons units (R31). -/
def State.periodUnits (s : State) (d : Nat) : Nat := 16 * s.ff (.swdPeriod d) 24 0
/-- The domain is enabled. -/
def State.domEn (s : State) (d : Nat) : Bool := s.rb (.swdCtl d) 0

/-- EN goes from 0 to 1 (R32): the first boundary time later than the time of the next cycle, and its swath number. -/
def State.enableDom (s : State) (d : Nat) : State :=
  let st := s.reg64 (.swdStart d)
  let t := s.nextTime
  let p := 16 * s.rf (.swdPeriod d) 24 0
  let k := if after st t then 0 else (t - st).toNat / p + 1
  s.setDom d { s.dom d with next := st + BitVec.ofNat 64 (k * p), nextNum := s.reg (.swdNumbase d) + BitVec.ofNat 32 k }

/-- EN goes from 1 to 0 (R36): TICKING ends, SWD_NUM stays. -/
def State.disableDom (s : State) (d : Nat) : State := (s.setRb (.swdStat d) 0 false).setHeld (.swdPeriod d) none

/-- The domain's boundary falls in this cycle (R33). -/
def State.boundaryDue (s : State) (d : Nat) : Bool :=
  s.domEn d && s.mode != .off && s.mode != .retain && atOrAfter s.now (s.dom d).next

/-! ### The ledger's records (R48) -/

/-- The LATE record of a domain takes a late thread. -/
def State.lateRecord (s : State) (d g : Nat) (n : Word) (kind : Nat) : State :=
  let st := s.reg (.ldgLstat d)
  let s := s.bump (.ldgLatecnt d) 1
  if s.reg (.ldgLswn d) = n ∧ bit st 31 then
    (s.setReg (.ldgLstat d) (satFld st 18 9 1)).setRb (.ldgLmap d (g / 32)) (g % 32) true
  else
    let reh := b2n (s.mode == .rehearse)
    let w := 1 <<< 31 ||| b2n (bit st 31 || bit st 30) <<< 30 ||| reh <<< 29 ||| kind <<< 28 ||| 1 <<< 9 ||| g
    let s := (s.setReg (.ldgLstat d) (BitVec.ofNat 32 w)).setReg (.ldgLswn d) n
    let s := s.each (upto 16) fun s w => s.setReg (.ldgLmap d w) 0
    s.setRb (.ldgLmap d (g / 32)) (g % 32) true

/-- DB of LATE and MOVER_STARVED (Table 112). -/
def lateDb (kind d : Nat) : Word := BitVec.ofNat 32 (kind <<< 4 ||| d)

/-- LATE of thread `g` (R46, R48, R49): its sheaves that are due at the end of the swath abort. -/
def State.late (s : State) (g : Nat) (p : Part) (kind : Nat) : State :=
  let s := s.each s.ctxList fun s x =>
    let c := s.ctx x
    if ¬ s.isFault x ∧ s.ctxDom x = p.dom ∧ c.members.contains g ∧ (c.st = .opened ∨ c.st = .complete) then s.abort x 3 0 else s
  (s.lateRecord p.dom g p.swath kind).report 0x10 0 g p.swath (lateDb kind p.dom) (s.mode == .rehearse)

/-- The ledger checks a thread that has not finished (R45, R51): it is exempt by grace, or it is late. -/
def State.checkThread (s : State) (g : Nat) (p : Part) (kind : Nat) : State :=
  let s := s.setThr g { s.thr g with part := some { p with done := true } }
  if s.rb (.swdCtl p.dom) 1 ∧ p.halted then s.bump (.ldgGracecnt p.dom) 1 else s.late g p kind

/-- The ledger checks a registered mover that has not finished (R45). -/
def State.checkMover (s : State) (m d : Nat) (n : Word) (kind : Nat) : State :=
  (s.setMover m { s.mover m with done := true }).report 0x13 1 m n (lateDb kind d) (s.mode == .rehearse)

/-- The ledger runs (Table 12). -/
def State.ledgerOn (s : State) : Bool := s.active || s.mode == .hold

/-! ### Boundaries (R53) -/

/-- KIND = 1 checks of a boundary of domain `d`, and what the swath's end means for those who took part in it. -/
def State.boundaryThreads (s : State) (d : Nat) : State :=
  s.each s.threadList fun s g =>
    match (s.thr g).part with
    | none => s
    | some p =>
      if p.dom ≠ d ∨ p.start = s.cycle then s
      else
        let s := if p.passed = 0 ∧ ¬ p.done ∧ s.ledgerOn then s.checkThread g p 1 else s
        let t := s.thr g
        if t.st = .idle ∨ t.st = .faulted ∨ p.restarted then s.setThr g { t with part := none }
        else s.setThr g { t with part := some { p with done := true, passed := p.passed + 1, halted := t.st == .halted } }

/-- KIND = 1 checks of the movers of domain `d` (R45). -/
def State.boundaryMovers (s : State) (d : Nat) : State :=
  let n := s.reg (.swdNum d)
  s.each (upto 32) fun s m =>
    let mv := s.mover m
    if s.rb (.ldgMbud m) 31 ∧ s.rf (.ldgMbud m) 29 28 = d ∧ mv.chk ∧ ¬ mv.fin ∧ ¬ mv.done ∧ s.ledgerOn then s.checkMover m d n 1
    else s

/-- Threads in SWATH.WAIT are released (R39); a release that falls on a HALTED member counts, and a FAULTED one that R38 marked
takes part in the swath (R383). -/
def State.releaseThreads (s : State) (d : Nat) (n : Word) : State :=
  s.each s.threadList fun s g =>
    let t := s.thr g
    if s.memberDom g ≠ some d ∨ t.doze ≠ .swath then s
    else
      let p : Part := ⟨d, n, s.cycle, false, t.st == .halted, 0, false⟩
      match t.st with
      | .dozing => s.setThr g { t with st := .ready, doze := .none, part := some p, next := max t.next (s.cycle + 1) }
      | .halted => s.setThr g { t with doze := .none, part := some p }
      | .faulted => s.setThr g { t with doze := .none, part := some p }
      | _ => s

/-- Registered movers of the domain begin a swath, and start (R40, R44). -/
def State.startMovers (s : State) (d : Nat) : State :=
  s.each (upto 32) fun s m =>
    if s.rb (.ldgMbud m) 31 ∧ s.rf (.ldgMbud m) 29 28 = d then
      (s.setMover m { s.mover m with chk := s.ledgerOn, fin := false, done := false }).moverBoundary m
    else s

/-- The class-T settings of the domain come into force (R10): its period, the budgets of its entries, the slot enables of its
pins (R303). -/
def State.promoteDom (s : State) (d : Nat) : State :=
  let s := s.promote (.swdPeriod d)
  let keys := s.held.map Prod.fst
  let s := s.each (upto 32) fun s m =>
    if keys.contains (Reg.ldgMbud m).off ∧ s.rf (.ldgMbud m) 29 28 = d then s.promote (.ldgMbud m) else s
  let s := s.each (keys.filterMap fun o => if 0x1800 ≤ o ∧ o < 0x2000 then some ((o - 0x1800) / 4) else none) fun s g =>
    if s.rf (.ldgTbud g) 29 28 = d then s.promote (.ldgTbud g) else s
  s.each ((keys.filterMap fun o => if 0x5000 ≤ o ∧ o < 0x6000 then some ((o - 0x5000) / 16) else none).eraseDups) fun s p =>
    if s.rf (.hdgCfg p) 23 22 = d then (((s.promote (.hdgSlot p 0)).promote (.hdgSlot p 1)).pinChanged p s.cycle) else s

/-- A boundary of domain `d` is taken (R31, R35, R53): one boundary, however many boundary times have passed. -/
def State.boundary (s : State) (d : Nat) : State :=
  let x := s.dom d
  let s := s.promoteDom d
  let p := s.periodUnits d
  let m := (s.now - x.next).toNat / p
  let last := x.next + BitVec.ofNat 64 (m * p)
  let num := x.nextNum + BitVec.ofNat 32 m
  let s := s.boundaryThreads d
  let s := s.boundaryMovers d
  let s := s.setDom d { next := last + BitVec.ofNat 64 p, nextNum := num + 1, bcyc := s.cycle }
  let s := (s.setReg (.swdNum d) num).setReg64 (.swdBtime d) last
  let s := (s.bumpRf (.swdStat d) 31 16 m).setRb (.swdStat d) 0 true
  let s := s.commitDecision d num
  if s.mode = .configure then s
  else (s.releaseThreads d num).startMovers d

/-- SWATH_BOUNDARY (R53). -/
def execSwathBoundary (d : BitVec 2) (s : State) : Host.Outcome State Fault Refusal :=
  .next (if s.boundaryDue d.toNat then s.boundary d.toNat else s)

/-! ### Budgets (R41, R45) -/

/-- The cycle numbered BUDGET has come while a thread has not finished; a thread that CATCH releases after it is checked at the
boundary only (DEDUCED, log 61). -/
def State.budgetDue (s : State) (g : Nat) : Option Part :=
  match (s.thr g).part with
  | none => none
  | some p =>
    let b := s.ff (.ldgTbud g) 23 0
    if s.ledgerOn ∧ p.passed = 0 ∧ ¬ p.done ∧ b ≠ 0 ∧ b = s.cycle - p.start then some p else none

/-- The budget of a mover has come while it has not finished. -/
def State.moverBudgetDue (s : State) (m : Nat) : Bool :=
  let mv := s.mover m
  let b := s.ff (.ldgMbud m) 23 0
  let d := s.rf (.ldgMbud m) 29 28
  s.ledgerOn && s.rb (.ldgMbud m) 31 && mv.chk && !mv.fin && !mv.done && b != 0 && b == s.cycle - (s.dom d).bcyc

/-- BUDGET_EXPIRY (R45): the cycle numbered BUDGET arrives while the member has not finished. -/
def execBudgetExpiry (who : Member) (s : State) : Host.Outcome State Fault Refusal :=
  match who with
  | .thread g =>
    match s.budgetDue g.toNat with
    | some p => .next (s.checkThread g.toNat p 0)
    | none => .next s
  | .mover m =>
    if s.moverBudgetDue m.toNat then
      let d := s.rf (.ldgMbud m.toNat) 29 28
      .next (s.checkMover m.toNat d (s.reg (.swdNum d)) 0)
    else .next s

/-! ### SWATH.WAIT (R39, R41, R47) -/

/-- The highest finish cycle of an on-time thread (LDG_WORST). -/
def State.noteFinish (s : State) (g : Nat) (p : Part) : State :=
  let f := s.cycle - p.start
  let b := s.ff (.ldgTbud g) 23 0
  if p.done ∨ (b ≠ 0 ∧ b ≤ f) ∨ f ≤ s.rf (.ldgWorst p.dom) 23 0 then s
  else (s.setReg (.ldgWorst p.dom) (BitVec.ofNat 32 (min f 0xFFFFFF))).setReg (.ldgWorstt p.dom) (BitVec.ofNat 32 g)

/-- A member's SWATH.WAIT: its finish, or Table 17 where its swath has ended. -/
def State.swathWait (s : State) (g : Nat) : State :=
  let t := s.thr g
  let doze (s : State) : State := s.setThr g { s.thr g with st := .dozing, doze := .swath, part := none }
  match t.part with
  | none => doze s
  | some p =>
    if p.passed = 0 then doze (s.noteFinish g p)
    else if p.restarted then doze s
    else if s.rb (.ldgTbud g) 30 then
      let s := s.bump (.ldgSkipcnt p.dom) (p.passed - 1)
      s.setThr g { t with part := some ⟨p.dom, s.reg (.swdNum p.dom), (s.dom p.dom).bcyc, false, p.halted, 0, false⟩ }
    else doze (s.bump (.ldgSkipcnt p.dom) p.passed)

/-- A change of EN or DOM of a thread's entry (R44): it is not checked in a swath that began before. -/
def State.reregister (s : State) (g : Nat) : State := s.setThr g { s.thr g with part := none }
/-- A change of EN or DOM of a mover's entry (R44). -/
def State.reregisterMover (s : State) (m : Nat) : State :=
  s.setMover m { s.mover m with chk := false, fin := false, done := false }

end Sys2Proof.Machine
end

