-- ==== Sys2Proof/Machine/Orders.lean ====
section
/-! DEFINITION. The fault unit (15): records, the log, standing orders. -/
namespace Sys2Proof.Machine

/-! ### Records (R351 to R358) -/

/-- The codes of Table 112. -/
def faultCodes : List Nat :=
  [0x01, 0x02, 0x03, 0x04, 0x05, 0x10, 0x11, 0x12, 0x13, 0x20, 0x21, 0x30, 0x31, 0x32, 0x41, 0x42, 0x50, 0x51, 0x60, 0x61,
   0x70, 0x71, 0x72]

/-- Report `a` is recorded before report `b`: the earlier one, then by CODE, SKIND and SIDX (R351). -/
def Report.before (a b : Report) : Bool :=
  if a.cyc ≠ b.cyc then decide (a.cyc < b.cyc)
  else if a.code ≠ b.code then decide (a.code < b.code)
  else if a.skind ≠ b.skind then decide (a.skind < b.skind)
  else decide (a.sidx < b.sidx)

/-- The report to record next, of those the fault unit has received. -/
def State.nextReport (s : State) : Option Report :=
  s.reports.foldl (fun (m : Option Report) r =>
    if r.cyc < s.cycle then
      match m with
      | some b => if r.before b then some r else m
      | none => some r
    else m) none

/-- A record triggers order `o` (R360). -/
def State.triggers (s : State) (r : Report) (o : Nat) : Bool :=
  let c := s.reg (.sorCtl o)
  let src := s.reg (.sorSrc o)
  bit c 31 && fld c 7 0 == r.code && (fld c 23 20 == 15 || fld c 23 20 == r.skind) &&
  r.sidx &&& fld src 27 16 == fld src 11 0 &&& fld src 27 16

/-- Order `o` is pending. -/
def State.orderPending (s : State) (o : Nat) : Bool := s.orders.any fun p => p.ord == o

/-- What a trigger does in the mode of the record cycle (R361): the state, and whether the order became newly pending. -/
def State.trigger (s : State) (r : Report) (o : Nat) : State × Bool :=
  if s.mode = .run then
    let s := if s.rb (.sorCtl o) 30 then s.setRb (.sorCtl o) 31 false else s
    if s.orderPending o then (s, false) else ({ s with orders := s.orders ++ [⟨o, r.skind, r.sidx, s.cycle⟩] }, true)
  else if s.mode = .rehearse then (s.bumpRf (.sorStat o) 15 8 1, false)
  else (s, false)

/-- The log takes a record; with 128 unread, the oldest is replaced (R355). -/
def State.logRecord (s : State) (r : Record) : State :=
  let s : State := { s with seq := s.seq + 1 }
  if s.log.length < 128 then { s with log := s.log ++ [r] }
  else { (s.setRb .fltStat 31 true).bumpRf .fltStat 23 16 1 with log := s.log.drop 1 ++ [r] }

/-- A report is recorded (R351, R353 to R358, R360, R361). -/
def State.record (s : State) (r : Report) : State :=
  let s : State := { s with reports := s.reports.erase r }
  let s := s.bump (.fltCnt r.code) 1
  let hits := (upto 32).filter fun o => s.triggers r o
  let (s, queued) := hits.foldl (fun (a : State × Bool) o => let (s, q) := a.1.trigger r o; (s, a.2 || q)) (s, false)
  let s := s.logRecord
    { code := r.code, reh := r.reh || s.mode == .rehearse, ord := !hits.isEmpty, queued := queued, ordnum := hits.headD 0,
      skind := r.skind, sidx := r.sidx, da := r.da, db := r.db, time := s.now, seq := s.seq }
  if r.code = 0x60 ∧ ¬ s.rb .fltCfgrej 31 then
    (s.setReg .fltCfgrej (BitVec.ofNat 32 (1 <<< 31 ||| r.skind <<< 12 ||| r.sidx))).setReg .fltCfgadr r.da
  else s

/-- FAULT_REPORT (R351): the fault unit records, in the cycle after it received it, the first report by code and source. -/
def execFaultReport (s : State) : Host.Outcome State Fault Refusal :=
  match s.nextReport with
  | none => .next s
  | some r => .next (s.record r)

/-- The words of a record: REC0, RDA, RDB, RTIME, RSEQ (R356). -/
def Record.word0 (r : Record) : Word :=
  BitVec.ofNat 32 (r.code <<< 24 ||| b2n r.reh <<< 23 ||| b2n r.ord <<< 22 ||| b2n r.queued <<< 21 ||| r.ordnum <<< 16
    ||| r.skind <<< 12 ||| r.sidx)

/-- A write of FLT_POP (R356): the head leaves if the SEQ is its own. -/
def State.popLog (s : State) (q : Half) : State :=
  match s.log with
  | r :: rest => if r.seq = q then { s with log := rest } else s
  | [] => s

/-! ### Standing orders (R359 to R364) -/

/-- SOR_ACT names a step. -/
def actNames (w : Word) : Bool := bit w 31 || bit w 30 || bit w 29 || bit w 28 || fld w 27 26 != 0 || bit w 25

/-- ARM may be set for order `o` with the CODE and SKIND of `ctl` (R359). -/
def State.armable (s : State) (o : Nat) (ctl : Word) : Bool :=
  let own := s.rf (.sorPmov o) 31 24
  faultCodes.contains (fld ctl 7 0) && fld ctl 23 20 != 14 && actNames (s.reg (.sorAct o)) && own != 0x21 && ownerListed own

/-- A clear of ARM cancels a pending execution (R359). -/
def State.cancelOrder (s : State) (o : Nat) : State := { s with orders := s.orders.filter fun p => p.ord != o }

/-- EN of slot `j` of pin `p`, in force and in the shadow. -/
def State.forceSlot (s : State) (p j : Nat) (b : Bool) : State :=
  (s.setRb (slotReg p j) (16 * (j % 2) + 15) b).setHeld (slotReg p j) none

/-- The pin move on one pin (R364): the state, and whether a slot was left disabled for a mismatch. -/
def State.movePin (s : State) (p own mask : Nat) : State × Bool :=
  if s.owner p = 0x21 then (s, false)
  else
    let s := s.setRf (.hdgCfg p) 31 24 own
    let bad := (upto 4).any fun j => mask.testBit j && !userMatches own (s.slotUser p j).1 (s.slotUser p j).2
    let s := s.each (upto 4) fun s j =>
      s.forceSlot p j (mask.testBit j && userMatches own (s.slotUser p j).1 (s.slotUser p j).2)
    (s.pinChanged p s.cycle, bad)

/-- The pin move of order `o` (R364). -/
def State.movePins (s : State) (o : Nat) : State :=
  let own := s.rf (.sorPmov o) 31 24
  let mask := s.rf (.sorPmov o) 23 20
  s.each ((upto 256).filter fun p => s.rb (.sorPins o (p / 32)) (p % 32)) fun s p =>
    let (s, bad) := s.movePin p own mask
    if bad then s.setRb (.sorStat o) 6 true else s

/-- The forwarding change of Table 113. -/
def State.moveForwarding (s : State) (pair m : Nat) : State :=
  (s.setRb (.mbuFwd (2 * pair)) 31 (m == 0 || m == 2)).setRb (.mbuFwd (2 * pair + 1)) 31 (m == 1 || m == 2)

/-- The thread stop of Table 113, on the record that made the order pending. -/
def State.orderStop (s : State) (o tact : Nat) (p : Pend) : State :=
  if tact = 0 then s
  else if p.skind ≠ 0 then s.setRb (.sorStat o) 5 true
  else if tact = 1 then s.stopThread p.sidx
  else s.haltThread p.sidx 5

/-- The thread start of Table 113. -/
def State.orderStart (s : State) (o g : Nat) : State :=
  if (s.thr g).st = .idle then s.startThread g else s.setRb (.sorStat o) 3 true

/-- The steps of an order in their order (R362, R363). -/
def State.runOrder (s : State) (p : Pend) : State :=
  let o := p.ord
  let a := s.reg (.sorAct o)
  let s : State := { s with orders := s.orders.erase p, ordered := some s.cycle }
  let s := if bit a 29 then
      (match s.execFault (fld a 15 8) with
       | (s, true) => s
       | (s, false) => s.setRb (.sorStat o) 4 true)
    else s
  let s := if bit a 30 then s.movePins o else s
  let s := if bit a 28 then s.moveForwarding (fld a 2 0) (fld a 4 3) else s
  let s := s.orderStop o (fld a 27 26) p
  let s := if bit a 25 then s.orderStart o (fld a 24 16) else s
  let s := (s.setReg64 (.sorXtime o) s.now).bumpRf (.sorStat o) 31 16 1
  if bit a 31 then { s with holdReq := some (.order, s.cycle + 1) } else s

/-- The pending order to execute: the earliest, then the lowest-numbered (R362). -/
def State.nextOrder (s : State) : Option Pend :=
  s.orders.foldl (fun (m : Option Pend) p =>
    if p.cyc < s.cycle then
      match m with
      | some b => if p.cyc < b.cyc ∨ (p.cyc = b.cyc ∧ p.ord < b.ord) then some p else m
      | none => some p
    else m) none

/-- STANDING_ORDER_EXECUTE (R362): in RUN, one pending order a cycle. -/
def execStandingOrderExecute (s : State) : Host.Outcome State Fault Refusal :=
  if s.mode = .run ∧ s.ordered ≠ some s.cycle then
    match s.nextOrder with
    | some p => .next (s.runOrder p)
    | none => .next s
  else .next s

/-- The complex leaves RUN: every pending order is dropped (R362). -/
def State.dropOrders (s : State) : State :=
  let s' := s.each s.orders fun s p => s.setRb (.sorStat p.ord) 7 true
  { s' with orders := [] }

end Sys2Proof.Machine
end

