-- ==== Sys2Proof/Machine/Mbu.lean ====
section
/-! DEFINITION. Medium boundary units (13): links, auto-negotiation, received frames, flow queues, forwarding and splices. -/
namespace Sys2Proof.Machine

/-! ### Rates (Tables 99, 104) -/

/-- IFU of MBU_LINK. -/
def State.ifu (s : State) (m : Nat) : Nat := s.rf (.mbuLink m) 30 28
/-- The link is up. -/
def State.linkUp (s : State) (m : Nat) : Bool := s.rb (.mbuLink m) 31
/-- The rate in use in Mb/s. -/
def State.rate (s : State) (m : Nat) : Nat :=
  match s.ifu m with
  | 4 => 1000
  | 5 => 2500
  | 6 => 10000
  | _ => let k := s.rf (.mbuLink m) 27 26; if k = 0 then 10 else if k = 1 then 100 else 1000
/-- The time of one octet in tenths of a unit. -/
def octetTenths (rate : Nat) : Nat := 1280000 / rate
/-- The launch granule in tenths of a unit (Table 104). -/
def State.granule (s : State) (m : Nat) : Nat :=
  match s.ifu m with
  | 4 => 2560
  | 5 => 1024
  | 6 => 512
  | i => let r := s.rate m; (if r = 10 then 64000 else if r = 100 then 6400 else 1280) / (if i = 1 then 2 else 1)
/-- FLAT limits in ns (Table 104). -/
def flatLimits (rate : Nat) : Nat × Nat :=
  if rate = 10 then (32000, 65535) else if rate = 100 then (3200, 65535) else if rate = 1000 then (320, 32768)
  else if rate = 2500 then (128, 13107) else (40, 3276)

/-- MBU m XOR 1 (R332). -/
def partner (m : Nat) : Nat := if m % 2 = 0 then m + 1 else m - 1
/-- The cluster of an MBU's rings. -/
def State.mbuCl (s : State) (m : Nat) : Nat := s.rf (.mbuCtl m) 18 16
/-- A shared offset of that cluster. -/
def State.mbuKey (s : State) (m off : Nat) : Nat := sharedKey (s.mbuCl m) off
/-- A count of MBU_CNT. -/
def State.mbuCount (s : State) (m k : Nat) : State := s.bump (.mbuCnt m k) 1

/-! ### The frame check sequence (IEEE 802.3; PRESUMED, log 20) -/

/-- One bit of the reflected CRC-32. -/
def crcBit (c : Word) : Word := if c.getLsbD 0 then (c >>> 1) ^^^ 0xEDB88320 else c >>> 1
/-- `n` bits of the CRC. -/
def crcBits : Nat → Word → Word
  | 0, c => c
  | n + 1, c => crcBits n (crcBit c)
/-- The CRC register after some octets. -/
def crcOver : List Byte → Word → Word
  | [], c => c
  | b :: r, c => crcOver r (crcBits 8 (c ^^^ b.setWidth 32))
/-- The FCS of some octets. -/
def fcs (l : List Byte) : Word := ~~~ (crcOver l 0xFFFFFFFF)
/-- The octets of an FCS, in the order they are sent. -/
def fcsOctets (w : Word) : List Byte := toBytes 4 w.toNat
/-- A received frame ends in its FCS. -/
def fcsGood (l : List Byte) : Bool := decide (4 ≤ l.length) && l.drop (l.length - 4) == fcsOctets (fcs (l.take (l.length - 4)))

/-! ### Links (R314, R317, R318) -/

/-- The link goes down: UP falls, LDOWN is set, and a probe begins again. -/
def State.linkFall (s : State) (m : Nat) : State :=
  if s.linkUp m then
    let s := (s.setRb (.mbuLink m) 31 false).setRb (.mbuLink m) 23 true
    let s := s.setRf (.mbuLink m) 30 28 (s.rf (.mbuCtl m) 30 28)
    s.setMbu m { s.mbu m with probe := 0 }
  else s

/-- RGMII at 1000 Mb/s needs CMN_INCI of at most 32 (R314). -/
def State.rgmiiBars (s : State) (ifu spu : Nat) : Bool := ifu == 2 && spu == 2 && decide (s.rf .cmnInci 6 0 > 32)

/-- The coding that PROBE tries: 10GBASE-R, 2.5GBASE-X, 1000BASE-X (R318). -/
def probeIf (k : Nat) : Nat := 6 - k % 3

/-- LINK_UP (R317, R318): the medium meets the conditions of the interface, at a coding and a rate that it can have. -/
def execLinkUp (m : BitVec 4) (ifu : BitVec 3) (spu : BitVec 2) (sdtx sdrx : Half) (s : State) :
    Host.Outcome State Fault Refusal :=
  let m := m.toNat
  let ctl := s.reg (.mbuCtl m)
  let i := fld ctl 30 28
  let spu := if ifu.toNat ≥ 4 then 0 else spu.toNat
  let ifOk := if i = 7 then ifu.toNat == probeIf (s.mbu m).probe else ifu.toNat == i
  let spOk := if i ≥ 4 then true else if i = 2 ∧ fld ctl 27 26 = 3 then decide (spu ≤ 2) else spu == fld ctl 27 26
  let anOk := ¬ s.rb (.mbuAn m) 31 ∨ (s.rb (.mbuLink m) 25 ∧ s.rb (.mbuLp m) 5)
  if bit ctl 31 ∧ ¬ s.linkUp m ∧ s.mode ≠ .off ∧ s.mode ≠ .retain ∧ ifOk ∧ spOk ∧ anOk ∧ ¬ s.rgmiiBars ifu.toNat spu then
    let s := ((s.setRb (.mbuLink m) 31 true).setRf (.mbuLink m) 30 28 ifu.toNat).setRf (.mbuLink m) 27 26 spu
    .next (if ifu.toNat ≥ 4 then s.setReg (.mbuSdlat m) (BitVec.ofNat 32 (sdtx.toNat <<< 16 ||| sdrx.toNat)) else s)
  else .next s

/-- LINK_DOWN (R317, R318). -/
def execLinkDown (m : BitVec 4) (s : State) : Host.Outcome State Fault Refusal :=
  let s := s.linkFall m.toNat
  .next (if s.rb (.mbuAn m.toNat) 31 then s.setRb (.mbuLink m.toNat) 25 false else s)

/-- PROBE_TIMEOUT (R318): the next coding is tried. -/
def execProbeTimeout (m : BitVec 4) (s : State) : Host.Outcome State Fault Refusal :=
  let m := m.toNat
  if s.rb (.mbuCtl m) 31 ∧ s.rf (.mbuCtl m) 30 28 = 7 ∧ ¬ s.linkUp m ∧ s.mode ≠ .off ∧ s.mode ≠ .retain then
    .next (s.setMbu m { s.mbu m with probe := ((s.mbu m).probe + 1) % 3 })
  else .next s

/-- AN_COMPLETE (R319): the partner's base page is recorded. -/
def execAnComplete (m : BitVec 4) (page : Half) (s : State) : Host.Outcome State Fault Refusal :=
  let m := m.toNat
  if s.rb (.mbuCtl m) 31 ∧ s.rb (.mbuAn m) 31 ∧ s.rf (.mbuCtl m) 30 28 = 4 ∧ ¬ s.rb (.mbuLink m) 25 ∧ s.mode ≠ .off ∧
      s.mode ≠ .retain then
    .next ((s.setRb (.mbuLink m) 25 true).setReg (.mbuLp m) (BitVec.ofNat 32 (1 <<< 31 ||| page.toNat)))
  else .next s

/-- Auto-negotiation starts again: the link waits for it (R318, R319). -/
def State.anRestart (s : State) (m : Nat) : State := (s.linkFall m).setRb (.mbuLink m) 25 false

/-! ### Splices (R336, R337) -/

/-- The 4 octets from an offset as a word, the first in bits [7:0]. -/
def octetWord (l : List Byte) (o : Nat) : Word := BitVec.ofNat 32 (ofBytes ((l.drop o).take 4))

/-- A splice entry's fields: LEN, OFS, MOFS. -/
def splLen (w : Word) : Nat := fld w 27 22 + 1
def splOfs (w : Word) : Nat := fld w 21 11
def splMofs (w : Word) : Nat := fld w 10 0

/-- An entry applies to a frame (R336). -/
def State.spliceApplies (s : State) (m e : Nat) (l : List Byte) : Bool :=
  let w := s.reg (.mbuSplCtl m e)
  bit w 31 && decide (splOfs w + splLen w ≤ l.length) &&
  octetWord l (splMofs w) &&& s.reg (.mbuSplMmask m e) == s.reg (.mbuSplMval m e)

/-- The source bytes of an insert entry (R337). -/
def State.spliceSource (s : State) (m e : Nat) : List Byte :=
  let w := s.reg (.mbuSplCtl m e)
  let a := s.rf (.mbuSplAddr m e) 20 0
  (upto (splLen w)).map fun i =>
    if bit w 29 then s.byteAt (s.liveKey ((a + i) % 0x200000)) else s.byteAt (s.mbuKey m ((a + i) % 0x80000))

/-- Octets of a list replaced from an offset on. -/
def replaceAt (l : List Byte) (o : Nat) (d : List Byte) : List Byte := l.take o ++ d ++ l.drop (o + d.length)

/-- The forwarded copy: inserts in ascending entry number; a fresh FCS if any applied, inverted after a bad one (R337). -/
def State.forwardCopy (s : State) (m : Nat) (f : Fwd) (l : List Byte) (good : Bool) : List Byte :=
  let hits := f.inserts.filter fun x => s.spliceApplies m x.1 l
  if hits.isEmpty then l
  else
    let l' := hits.foldl (fun l x => replaceAt l (splOfs (s.reg (.mbuSplCtl m x.1))) x.2) l
    let body := l'.take (l.length - 4)
    body ++ fcsOctets (if good then fcs body else ~~~ (fcs body))

/-- Extract entries write their octets of a good frame and set their flags (R337). -/
def State.extracts (s : State) (m : Nat) (l : List Byte) : State :=
  s.each (upto 8) fun s e =>
    let w := s.reg (.mbuSplCtl m e)
    if ¬ bit w 30 ∧ s.spliceApplies m e l then
      let a := s.rf (.mbuSplAddr m e) 18 0
      let bs := ((l.drop (splOfs w)).take (splLen w)).take (0x80000 - a)
      let s := s.memWrite (s.mbuKey m a) bs
      if s.rb (.mbuSplAddr m e) 31 then s.setFlag (s.mbuCl m) (s.rf (.mbuSplAddr m e) 28 21) else s
    else s

/-! ### Forwarding (R332 to R335) -/

/-- The frame may be forwarded now (R333). -/
def State.mayForward (s : State) (m : Nat) : Bool :=
  let n := partner m
  let r := s.rate m
  let flat := s.rf (.mbuFwd m) 15 0
  s.linkUp n && s.rate n == r && decide ((flatLimits r).1 ≤ flat) && decide (flat ≤ (flatLimits r).2)

/-- FORWARD_LAUNCH (R332): the partner begins to send the frame that MBU `m` is receiving, its time-stamp point leaving at the
raw stamp `raw`. FWDSTOP shows a frame that R333 does not let pass. -/
def execForwardLaunch (m : BitVec 4) (raw : DWord) (s : State) : Host.Outcome State Fault Refusal :=
  let m := m.toNat
  if s.mode = .off ∨ s.mode = .retain ∨ ¬ s.linkUp m ∨ ¬ s.rb (.mbuFwd m) 31 ∨ (s.mbu m).fwd.isSome then .next s
  else if s.mayForward m then
    let ins := if s.active then
        ((upto 8).filter fun e => s.rb (.mbuSplCtl m e) 31 && s.rb (.mbuSplCtl m e) 30).map fun e => (e, s.spliceSource m e)
      else []
    let f : Fwd := ⟨raw, raw + BitVec.ofNat 64 (s.rf (.mbuElat (partner m)) 19 0), s.active, ins⟩
    let s := s.setRb (.mbuLink m) 24 false
    .next (s.setMbu m { s.mbu m with fwd := some f })
  else .next (s.setRb (.mbuLink m) 24 true)

/-- The end of a transmission that leaves `n` octets after the time-stamp point `raw`, with its gap. -/
def lineEnd (raw : DWord) (n rate : Nat) : DWord := raw + BitVec.ofNat 64 (((n + 12) * octetTenths rate + 9) / 10)

/-- The forwarded copy leaves the partner whole, delayed, or cut (R332, R334). -/
def State.forwardDone (s : State) (m : Nat) (f : Fwd) (fr : Frame) (good : Bool) : State :=
  let n := partner m
  let copy := s.forwardCopy m f fr.octets good
  let through := (f.raw - fr.raw).toNat
  let late := decide (through * 10 > 160 * s.rf (.mbuFwd m) 15 0 + s.granule n)
  let cut := decide (copy.length * 8 > 32768) && decide (through * s.rate m / 16000 > 32768)
  let copy := if cut then (let b := copy.take 4096; b ++ fcsOctets (~~~ (fcs b))) else copy
  let s := s.mbuCount m 13
  let s := if late then s.mbuCount m 14 else s
  let s := if cut then s.mbuCount m 15 else s
  let s := s.setMbu m { s.mbu m with fwd := none }
  s.setMbu n { s.mbu n with sent := some ⟨copy, f.raw⟩, busy := some (lineEnd f.raw copy.length (s.rate n)) }

/-! ### Receiving (R320 to R324) -/

/-- The ingress stamp (R321). -/
def State.ingress (s : State) (m : Nat) (raw : DWord) : DWord :=
  raw - BitVec.ofNat 64 (s.rf (.mbuIlat m) 19 0) - (s.reg (.mbuAsym m)).signExtend 64

/-- The size of a receive slot (R322). -/
def State.slotBytes (s : State) (m : Nat) : Nat := 256 * 2 ^ s.rf (.mbuRxcfg m) 10 8

/-- The frame is written into the slot at RXHEAD, header last, or dropped where the slot is full (R323). -/
def State.ringWrite (s : State) (m : Nat) (fr : Frame) (good : Bool) (fwd : Option Fwd) : State :=
  let size := s.slotBytes m
  let head := s.rf (.mbuRxhead m) 9 0
  let base := s.rf (.mbuRxbase m) 18 0 + head * size
  if bit (s.word (s.mbuKey m base)) 31 then s.mbuCount m 6
  else
    let n := fr.octets.length
    let trunc := decide (n > size - 32)
    let kept := min (min n (size - 32)) (fr.ovf.getD n)
    let s := s.memWrite (s.mbuKey m (base + 32)) (fr.octets.take kept)
    let ist := s.ingress m fr.raw
    let est : DWord := match fwd with | some f => f.stamp | none => 0
    let s := s.memWrite (s.mbuKey m (base + 4))
      (toBytes 4 (s.mbu m).seq.toNat ++ toBytes 8 ist.toNat ++ toBytes 8 est.toNat ++ toBytes 8 0)
    let w0 := 1 <<< 31 ||| b2n (!good) <<< 30 ||| b2n fr.codeErr <<< 29 ||| b2n (decide (n < 64)) <<< 28 |||
      b2n trunc <<< 27 ||| b2n fr.ovf.isSome <<< 26 ||| b2n fwd.isSome <<< 25 ||| min n 8191
    let s := s.setWord (s.mbuKey m base) (BitVec.ofNat 32 w0)
    let s := s.setRf (.mbuRxhead m) 9 0 ((head + 1) % 2 ^ s.rf (.mbuRxcfg m) 27 24)
    let s := s.mbuCount m 0
    let s := if trunc then s.mbuCount m 4 else s
    if s.rb (.mbuRxcfg m) 30 then s.setFlag (s.mbuCl m) (s.rf (.mbuRxcfg m) 23 16) else s

/-- FRAME_RECEIVE (R323): the last octet of a frame is in. Its forwarded copy is complete, extracts are written, and the frame
goes to the ring or is dropped. -/
def execFrameReceive (m : BitVec 4) (fr : Frame) (s : State) : Host.Outcome State Fault Refusal :=
  let m := m.toNat
  if s.mode = .off ∨ s.mode = .retain ∨ ¬ s.rb (.mbuCtl m) 31 ∨ ¬ s.linkUp m then .next s
  else
    let good := fcsGood fr.octets
    let fwd := (s.mbu m).fwd
    let s := s.setMbu m { s.mbu m with seq := (s.mbu m).seq + 1 }
    let s := match fwd with | some f => s.forwardDone m f fr good | none => s
    if s.mode = .configure then .next (s.mbuCount m 7)
    else
      let s := if good then s else s.mbuCount m 1
      let s := if fr.codeErr then s.mbuCount m 2 else s
      let s := if fr.octets.length < 64 then s.mbuCount m 3 else s
      let s := if fr.ovf.isSome then s.mbuCount m 5 else s
      let s := match fwd with
        | some f => if good ∧ f.splice ∧ s.active then s.extracts m fr.octets else s
        | none => s
      let drop : Bool := (fwd.isSome && !s.rb (.mbuFwd m) 30) || (!good && !s.rb (.mbuRxcfg m) 31)
      .next (if drop then s else s.ringWrite m fr good fwd)

/-! ### Flow queues (R325 to R331) -/

/-- The shared offset of the head descriptor of queue `j` (R325). -/
def State.descOff (s : State) (m j : Nat) : Nat := 32 * s.rf (.mbuFqcfg m j) 13 0 + 32 * s.rf (.mbuFqst m j) 7 0
/-- The head index moves on. -/
def State.headNext (s : State) (m j : Nat) : State :=
  s.setRf (.mbuFqst m j) 7 0 ((s.rf (.mbuFqst m j) 7 0 + 1) % 2 ^ s.rf (.mbuFqcfg m j) 27 24)
/-- The global number of a queue (R325). -/
def queueNo (m j : Nat) : Nat := 64 * m + j

/-- The MBU reads the head descriptor of an enabled queue without a loaded head (R327): with OWN = 1 it is to be loaded. In a
mode that loads nothing the reading waits. -/
def State.readHead (s : State) (m j : Nat) : State :=
  let x := s.mbu m
  if ¬ s.rb (.mbuFqcfg m j) 31 ∨ (s.head m j).isSome ∨ x.want.contains j ∨ (x.fin.any fun d => d.queue == j) then s
  else if s.active ∧ ¬ bit (s.word (s.mbuKey m (s.descOff m j))) 31 then s
  else s.setMbu m { x with want := x.want ++ [j] }

/-- The doorbell of an MBU rings (R327). -/
def State.bellDue (s : State) (m : Nat) : Bool :=
  s.active && s.rb (.mbuCtl m) 31 && s.flagNow (s.mbuCl m) (s.rf (.mbuCtl m) 7 0)
/-- DOORBELL (R327): the flag is cleared and the heads are read. -/
def execDoorbell (m : BitVec 4) (s : State) : Host.Outcome State Fault Refusal :=
  let m := m.toNat
  if s.bellDue m then
    .next ((s.clrFlag (s.mbuCl m) (s.rf (.mbuCtl m) 7 0)).each (upto 64) fun s j => s.readHead m j)
  else .next s

/-- A descriptor is finished; its results wait to be written. -/
def State.txFinish (s : State) (m j : Nat) (stamp : DWord) (res : Nat) : State :=
  (s.setHead m j none).setMbu m { s.mbu m with fin := (s.mbu m).fin ++ [⟨j, stamp, res⟩] }

/-- Words of a descriptor with a reserved value (Table 102). -/
def txBad (w0 w1 w3 : Word) : Bool :=
  let len := fld w0 12 0
  fld w0 28 13 != 0 || len == 0 || decide (len > 4060) || fld w1 31 19 != 0 || decide (fld w1 18 0 + len > 0x80000) || w3 != 0

/-- DESCRIPTOR_LOAD (R327): the head descriptor is checked and its frame fetched; a reserved encoding or an uncorrectable error
finishes it (Table 103). -/
def execDescriptorLoad (m : BitVec 4) (j : BitVec 6) (s : State) : Host.Outcome State Fault Refusal :=
  let m := m.toNat; let j := j.toNat
  if ¬ s.active ∨ ¬ (s.mbu m).want.contains j then .next s
  else
    let s := s.setMbu m { s.mbu m with want := (s.mbu m).want.filter (· != j) }
    let off := s.descOff m j
    let k := s.mbuKey m off
    let w0 := s.word k
    if ¬ s.rb (.mbuFqcfg m j) 31 ∨ (s.head m j).isSome ∨ ¬ bit w0 31 then .next s
    else
      match s.touchRead k 16 6 with
      | (s, some g) => .next ((s.report 0x41 4 (queueNo m j) (ueWord g) 0).txFinish m j 0 5)
      | (s, none) =>
        let w1 := s.word (k + 4)
        if txBad w0 w1 (s.word (k + 12)) then
          .next ((s.report 0x60 4 (queueNo m j) (BitVec.ofNat 32 off) 0).txFinish m j 0 6)
        else
          let kb := s.mbuKey m (fld w1 18 0)
          match s.touchRead kb (fld w0 12 0) 6 with
          | (s, some g) => .next ((s.report 0x41 4 (queueNo m j) (ueWord g) 0).txFinish m j 0 5)
          | (s, none) => .next (s.setHead m j (some ⟨w0, s.word (k + 8), s.bytesAt kb (fld w0 12 0)⟩))

/-- The frame as it leaves: padding and FCS (R313). -/
def txOctets (h : FqHead) : List Byte :=
  if bit h.w0 29 then h.frame
  else
    let b := h.frame ++ List.replicate (60 - h.frame.length) 0
    b ++ fcsOctets (fcs b)

/-- A loaded head has a launch time. -/
def FqHead.timed (h : FqHead) : Bool := !bit h.w0 30

/-- The queues of an MBU with a loaded head, ascending. -/
def State.loaded (s : State) (m : Nat) : List (Nat × FqHead) :=
  (upto 64).filterMap fun j => (s.head m j).map fun h => (j, h)

/-- Timed head (`k`, `g`) goes before timed head (`j`, `h`) (R330). -/
def timedBefore (k : Nat) (g : FqHead) (j : Nat) (h : FqHead) : Bool :=
  if g.time = h.time then decide (k < j) else atOrAfter h.time g.time

/-- A NOW frame that leaves at `raw` ends, with its gap, before the preamble of a timed head (R330). -/
def nowFits (raw : DWord) (n rate : Nat) (g : FqHead) : Bool :=
  let fin := lo32 (lineEnd raw n rate)
  let pre := g.time - BitVec.ofNat 32 (8 * octetTenths rate / 10)
  atOrAfter pre fin

/-- The order of R330 lets head `j` start so that its time-stamp point leaves at `raw`. -/
def State.mayStart (s : State) (m j : Nat) (h : FqHead) (raw : DWord) : Bool :=
  let l := s.loaded m
  let free := match (s.mbu m).busy with
    | some b => atOrAfter (raw - BitVec.ofNat 64 (8 * octetTenths (s.rate m) / 10)) b
    | none => true
  let fwdFree := (s.mbu (partner m)).fwd.isNone
  free && fwdFree &&
  if h.timed then
    reached (lo32 raw) h.time && l.all fun x => !(x.2.timed && reached (lo32 raw) x.2.time && timedBefore x.1 x.2 j h)
  else
    l.all fun x => if x.2.timed then nowFits raw (txOctets h).length (s.rate m) x.2 else decide (j ≤ x.1)

/-- LAUNCH_LATE is reported (R329). -/
def State.launchLate (s : State) (m j : Nat) (h : FqHead) (gone : Bool) : State :=
  s.report 0x11 4 (queueNo m j) h.time (BitVec.ofNat 32 (b2n gone))

/-- FRAME_LAUNCH (R329 to R331): a loaded head that is due leaves at the raw stamp `raw`, or is discarded. -/
def execFrameLaunch (m : BitVec 4) (j : BitVec 6) (raw : DWord) (s : State) : Host.Outcome State Fault Refusal :=
  let m := m.toNat; let j := j.toNat
  match s.head m j with
  | none => .next s
  | some h =>
    if ¬ s.active then .next s
    else if ¬ s.linkUp m then
      if h.timed ∧ ¬ reached s.now32 h.time then .next s else .next ((s.mbuCount m 11).txFinish m j 0 4)
    else if ¬ s.mayStart m j h raw then .next s
    else
      let late := h.timed && decide ((lo32 raw - h.time).toNat * 10 > s.granule m)
      if late ∧ s.rb (.mbuFqcfg m j) 30 then .next (((s.launchLate m j h true).mbuCount m 10).txFinish m j 0 2)
      else
        let o := txOctets h
        let s := s.setMbu m { s.mbu m with sent := some ⟨o, raw⟩, busy := some (lineEnd raw o.length (s.rate m)) }
        let s := if late then (s.launchLate m j h false).mbuCount m 9 else s.mbuCount m 8
        .next (s.txFinish m j (raw + BitVec.ofNat 64 (s.rf (.mbuElat m) 19 0)) (b2n late))

/-- The results of a finished descriptor are written: words 4 to 6, then OWN = 0; HEAD moves on (R331). -/
def State.writeResult (s : State) (m j : Nat) (stamp : DWord) (res : Nat) : State :=
  let k := s.mbuKey m (s.descOff m j)
  let s := s.memWrite (k + 16) (toBytes 8 stamp.toNat ++ toBytes 4 res)
  (s.setWord k (setBit (s.word k) 31 false)).headNext m j

/-- The pending result of queue `j` is written, with its completion flag. -/
def State.complete (s : State) (m j : Nat) : State :=
  match (s.mbu m).fin.find? fun d => d.queue == j with
  | none => s
  | some d =>
    let s := s.setMbu m { s.mbu m with fin := (s.mbu m).fin.filter fun e => e.queue != j }
    let s := s.writeResult m j d.stamp d.res
    if s.rb (.mbuFqcfg m j) 29 then s.setFlag (s.mbuCl m) (s.rf (.mbuFqcfg m j) 23 16) else s

/-- TRANSMIT_COMPLETE (R331): the descriptor is finished, and the next head is read (R327). -/
def execTransmitComplete (m : BitVec 4) (j : BitVec 6) (s : State) : Host.Outcome State Fault Refusal :=
  let m := m.toNat; let j := j.toNat
  if s.mode = .off ∨ s.mode = .retain ∨ ¬ ((s.mbu m).fin.any fun d => d.queue == j) then .next s
  else
    let s := s.complete m j
    .next (s.readHead m j)

/-- Descriptors from HEAD on that have OWN = 1 are discarded, at most a ring of them (R328). -/
def State.discardOwned (s : State) (m j : Nat) : Nat → State
  | 0 => s
  | n + 1 =>
    if bit (s.word (s.mbuKey m (s.descOff m j))) 31 then
      (((s.writeResult m j 0 3).mbuCount m 12)).discardOwned m j n
    else s

/-- A queue stops (R328). -/
def State.stopQueue (s : State) (m j : Nat) : State :=
  let s := s.complete m j
  let s := (s.setHead m j none).setMbu m { s.mbu m with want := (s.mbu m).want.filter (· != j) }
  s.discardOwned m j (2 ^ s.rf (.mbuFqcfg m j) 27 24)

/-- EN of a queue goes from 0 to 1 (R327). -/
def State.enableQueue (s : State) (m j : Nat) : State := (s.setRf (.mbuFqst m j) 7 0 0).readHead m j

/-- The queues that a register, a head or a result of some MBU shows in use. -/
def State.queueList (s : State) : List (Nat × Nat) :=
  (upto 16).flatMap fun m => ((upto 64).filter fun j =>
    (s.reg (.mbuFqcfg m j)) != 0 || (s.head m j).isSome || (s.mbu m).fin.any fun d => d.queue == j).map fun j => (m, j)

/-- Entry to CONFIGURE stops every queue (R328). -/
def State.mbusConfigure (s : State) : State := s.each s.queueList fun s q => s.stopQueue q.1 q.2
/-- Entry to REHEARSE or RUN from CONFIGURE: enabled queues read their heads (R327). -/
def State.mbusStart (s : State) : State := s.each s.queueList fun s q => s.readHead q.1 q.2
/-- RETAIN takes every link down (R338). -/
def State.mbusRetain (s : State) : State := s.each (upto 16) fun s m => s.linkFall m

/-! ### Enable and cable measurement (R339) -/

/-- EN of an MBU goes from 0 to 1: RXHEAD is 0, a measurement is abandoned. -/
def State.enableMbu (s : State) (m : Nat) : State :=
  let s := s.setReg (.mbuRxhead m) 0
  let s := s.setMbu m { s.mbu m with probe := 0 }
  if (s.mbu m).tdr then
    (s.setMbu m { s.mbu m with tdr := false }).setReg (.mbuTdrres m) (BitVec.ofNat 32 (3 <<< 30))
  else s

/-- MBU_TDR_COMPLETE (R339). -/
def execMbuTdrComplete (m : BitVec 4) (fail pol : Bool) (rt : BitVec 11) (s : State) : Host.Outcome State Fault Refusal :=
  let m := m.toNat
  if (s.mbu m).tdr ∧ s.mode ≠ .off ∧ s.mode ≠ .retain then
    .next ((s.setMbu m { s.mbu m with tdr := false }).setReg (.mbuTdrres m)
      (BitVec.ofNat 32 (1 <<< 31 ||| b2n fail <<< 30 ||| b2n pol <<< 29 ||| rt.toNat)))
  else .next s

end Sys2Proof.Machine
end

