-- ==== Sys2Proof/Machine/Power.lean ====
section
/-! DEFINITION. Core doze states and their planner, and the supply monitors (14). -/
namespace Sys2Proof.Machine

/-! ### Events of a thread (R75) -/

/-- Input `j` of a thread is pending. -/
def State.inputPending (s : State) (g j : Nat) : Bool :=
  s.rb (thrReg .coreEvcfg g) j && s.flagNow (clusterOf g) (s.rf (thrReg .coreEvsel g) (8 * j + 7) (8 * j))
/-- CORE_EVCFG.PEND. -/
def State.pendBits (s : State) (g : Nat) : Nat := (upto 4).foldl (fun n j => n + b2n (s.inputPending g j) * 2 ^ j) 0
/-- FLG.EE (R87). -/
def Thread.ee (t : Thread) : Bool := bit t.flg 8
/-- A thread DOZING in DOZE has an event to take (R79). -/
def State.dozeEvent (s : State) (g : Nat) : Bool :=
  let t := s.thr g
  t.st == .dozing && (match t.doze with | .til _ _ => true | _ => false) && t.ee && s.pendBits g != 0

/-! ### Known events (R343) -/

/-- The threads of core `n` that are listed. -/
def State.coreThreads (s : State) (n : Nat) : List Nat := s.threadList.filter fun g => coreOf g == n
/-- How far ahead a time lies, if it is at or after the present time (R6). -/
def State.ahead (s : State) (t : DWord) : Option Nat := if atOrAfter t s.now then some (t - s.now).toNat else none
/-- How far ahead a short time lies (R256). -/
def State.aheadShort (s : State) (x : Word) : Option Nat := if atOrAfter x s.now32 then some (x - s.now32).toNat else none

/-- The known events of core `n`, as distances from the present time. -/
def State.knownEvents (s : State) (n : Nat) : List Nat :=
  let c := clOf n
  let ts := s.coreThreads n
  let dozes := ts.filterMap fun g => match (s.thr g).st, (s.thr g).doze with | .dozing, .til w _ => s.ahead w | _, _ => none
  let waits := ts.filter fun g => (s.thr g).st == .dozing && (s.thr g).doze == .swath
  let doms := (upto 4).filterMap fun d =>
    if s.domEn d ∧ waits.any (fun g => s.memberDom g == some d) then s.ahead (s.dom d).next else none
  let acts := (upto 8).flatMap fun k => (s.psq (8 * c + k)).fifo.filterMap fun a => s.aheadShort (actTime a)
  let tmrs := (upto 32).filterMap fun ch =>
    let w := s.reg (.tmrCtl ch)
    if bit w 31 ∧ (s.timer ch).armed ∧ tmrMode w ≤ 1 ∧ bit w 19 ∧ fld w 18 16 = c ∧ (tmrLink w = 0 ∨ tmrLink w = 2) then
      s.ahead (s.timer ch).next
    else none
  let heads := s.heads.filterMap fun e => match e.2 with
    | some h => if s.mbuCl (e.1 / 64) = c ∧ h.timed then s.aheadShort h.time else none
    | none => none
  let k := sharedKey c (0x7FE80 + 8 * (n % 4))
  let hint := if s.rb (.pwrDzcfg n) 3 ∧ bit (s.word (k + 4)) 0 ∧ ¬ reached s.now32 (s.word k) then
      [(s.word k - s.now32).toNat] else []
  dozes ++ doms ++ acts ++ tmrs ++ heads ++ hint

/-- E − T: the distance of the earliest known event, 2^31 units where there is none. -/
def State.horizon (s : State) (n : Nat) : Nat := (s.knownEvents n).foldl min (2 ^ 31)

/-! ### The planner (R340 to R346) -/

/-- The wake delay of a doze state in units (Table 108). -/
def State.wakeDelay (s : State) (st : Nat) : Nat := if st = 1 then s.span else if st = 2 then 640 else 64000

/-- The core may leave RUN (R342). -/
def State.mayDoze (s : State) (n : Nat) : Bool :=
  s.active && ((s.coreThreads n).all fun g =>
    let t := s.thr g
    t.eff != .ready && t.eff != .waiting && t.sb.isEmpty && t.miss.isNone && !s.dozeEvent g) &&
  s.posted.all fun w => w.core != n

/-- The cap of GATE for threads that await events (R344). -/
def State.gateCap (s : State) (n : Nat) : Bool :=
  !s.rb (.pwrDzcfg n) 2 && (s.coreThreads n).any fun g =>
    let t := s.thr g
    t.st == .dozing && (match t.doze with | .til _ _ => true | _ => false) && t.ee && s.rf (thrReg .coreEvcfg g) 3 0 != 0

/-- The state that the planner chooses: 0 stays in RUN (R344). -/
def State.dozeChoice (s : State) (n : Nat) : Nat :=
  let e := s.horizon n
  let cap := if s.gateCap n then min 1 (s.rf (.pwrDzcfg n) 1 0) else s.rf (.pwrDzcfg n) 1 0
  ((upto 4).filter fun st => decide (1 ≤ st ∧ st ≤ cap) && decide (s.wakeDelay st + 1600 ≤ e)).foldl max 0

/-- DOZE_ENTER (R344): the core enters the deepest state that the conditions allow. -/
def execDozeEnter (n : BitVec 5) (s : State) : Host.Outcome State Fault Refusal :=
  let n := n.toNat
  let c := s.core n
  if c.dz = 0 ∧ s.mayDoze n ∧ s.dozeChoice n ≠ 0 then
    .next (s.setCore n { c with dz := s.dozeChoice n, wakeAt := none, slow := false, delayed := [] })
  else .next s

/-- A cause that the planner did not know calls the core (R345). -/
def State.calls (s : State) (n : Nat) : Bool :=
  (s.coreThreads n).any fun g => (s.thr g).eff == .ready || (s.thr g).eff == .waiting || s.dozeEvent g

/-- A known event calls for the core's wake (R344). -/
def State.wakePlanned (s : State) (n : Nat) : Bool :=
  let c := s.core n
  let e := s.horizon n
  if c.dz = 1 then decide (e ≤ 2 * s.span) else decide (e < s.wakeDelay c.dz + 1600 + s.span)

/-- A wake begins in this cycle. -/
def State.wakeDue (s : State) (n : Nat) : Bool :=
  let c := s.core n
  s.active && c.dz != 0 && c.wakeAt.isNone && (s.calls n || s.wakePlanned n)

/-- WAKE_START (R344, R345). From GATE a wake that R345 causes delays nothing. -/
def execWakeStart (n : BitVec 5) (s : State) : Host.Outcome State Fault Refusal :=
  let n := n.toNat
  let c := s.core n
  if s.wakeDue n then
    let slow := s.calls n || decide (c.dz ≠ 1 ∧ s.horizon n < s.wakeDelay c.dz + 1600)
    let at_ := if c.dz = 1 then (if s.calls n then s.cycle else s.cycle + 1) else s.now.toNat + s.wakeDelay c.dz
    .next (s.setCore n { c with wakeAt := some at_, slow := slow })
  else .next s

/-- The core's wake is at its end. -/
def State.wakeDone (s : State) (n : Nat) : Bool :=
  let c := s.core n
  match c.wakeAt with
  | none => false
  | some t => if c.dz = 1 then decide (t ≤ s.cycle) else atOrAfter s.now (BitVec.ofNat 64 t)

/-- The core is in RUN; after RETAIN its instruction cache and BTB are invalid (R341). -/
def State.wakeCore (s : State) (n : Nat) : State :=
  let c := s.core n
  let c := if c.dz = 3 then { c with cache := [], btb := [] } else c
  s.setCore n { c with dz := 0, wakeAt := none, slow := false }

/-- WAKE_COMPLETE (R340). -/
def execWakeComplete (n : BitVec 5) (s : State) : Host.Outcome State Fault Refusal :=
  .next (if (s.core n.toNat).dz ≠ 0 ∧ s.wakeDone n.toNat then s.wakeCore n.toNat else s)

/-- CONFIGURE and HOLD: every core is in GATE (R342). -/
def State.gateAll (s : State) : State :=
  s.each (upto 32) fun s n =>
    let c := s.core n
    let c := if c.dz = 3 then { c with cache := [], btb := [] } else c
    s.setCore n { c with dz := 1, wakeAt := none, slow := false, delayed := [] }
/-- REHEARSE and RUN: every core returns to RUN (R342). -/
def State.runAll (s : State) : State :=
  s.each (upto 32) fun s n => s.setCore n { s.core n with dz := 0, wakeAt := none, slow := false, delayed := [] }

/-- PWR_DZSTAT. -/
def State.dzstatWord (s : State) (n : Nat) : Word :=
  (s.reg (.pwrDzstat n) &&& 0xFFFF) ||| BitVec.ofNat 32 (b2n (s.core n).wakeAt.isSome <<< 31 ||| (s.core n).dz <<< 24)

/-! ### Supply monitors (R348, R349) -/

/-- A sample lies outside the window; in RETAIN, below RLO. -/
def State.outOfWindow (s : State) (r mv : Nat) : Bool :=
  if s.mode = .retain then decide (mv < s.rf (.pwrSmcfg r) 15 0)
  else decide (mv < s.rf (.pwrSmthr r) 15 0) || decide (s.rf (.pwrSmthr r) 31 16 < mv)

/-- A sample of an enabled monitor (R349). -/
def State.sample1 (s : State) (r mv : Nat) : State :=
  let s := s.setRf (.pwrSmval r) 15 0 mv
  let s := s.setReg (.pwrSmext r) (BitVec.ofNat 32 (max (s.rf (.pwrSmext r) 31 16) mv <<< 16 ||| min (s.rf (.pwrSmext r) 15 0) mv))
  let n := s.rf (.pwrSmcfg r) 27 26
  let c := s.sup r
  let out := s.outOfWindow r mv
  if s.rb (.pwrSmval r) 31 then
    if out then s.setSup r ⟨0, 0⟩
    else if c.good + 1 ≥ n then (s.setSup r ⟨0, 0⟩).setRb (.pwrSmval r) 31 false
    else s.setSup r ⟨0, c.good + 1⟩
  else if out then
    if c.bad + 1 ≥ n then
      let high := s.mode != .retain && decide (s.rf (.pwrSmthr r) 31 16 < mv)
      let s := ((s.setSup r ⟨0, 0⟩).setRb (.pwrSmval r) 31 true).setRb (.pwrSmval r) 30 high
      s.report 0x70 11 r (BitVec.ofNat 32 (b2n high <<< 16 ||| mv)) 0
    else s.setSup r ⟨c.bad + 1, 0⟩
  else s.setSup r ⟨0, 0⟩

/-- SUPPLY_SAMPLE (R348): in RETAIN only monitor 1 runs; Table 109 has ten monitors. -/
def execSupplySample (r : BitVec 4) (mv : Half) (s : State) : Host.Outcome State Fault Refusal :=
  let r := r.toNat
  if 10 ≤ r then .fault .noSuchMonitor
  else if s.mode = .off ∨ (s.mode = .retain ∧ r ≠ 1) ∨ ¬ s.rb (.pwrSmcfg r) 31 then .next s
  else .next (s.sample1 r mv.toNat)

end Sys2Proof.Machine
end

