-- ==== Sys2Proof/Machine/Mode.lean ====
section
/-! DEFINITION. Operating modes (R16 to R26), the completion of commits (R233), resets and initialisation (R366 to R368). -/
namespace Sys2Proof.Machine

/-! ### The completion of a commit (R227, R233) -/

/-- A commit completes: its held actions are delivered in order, the fast status page takes its swath number, SHF_WSWEEP
records the cycle. -/
def State.finishCommit (s : State) (c : Commit) : State :=
  let s := if c.deliver then s.each c.held fun s a => s.deliver a.1 a.2 else s.discardHeld c.held
  let s := match c.page with | some (d, n) => s.setReg (.fastLast d) n | none => s
  let w := min (s.cycle - c.start) 150
  if s.rf .shfWsweep 7 0 < w then s.setRf .shfWsweep 7 0 w else s

/-- Every commit in progress completes now (R21). -/
def State.finishCommits (s : State) : State :=
  let cs := s.commits
  ({ s with commits := [] }).each cs State.finishCommit

/-- COMMIT_COMPLETE (R233): the oldest commit in progress completes, after its instant. -/
def execCommitComplete (s : State) : Host.Outcome State Fault Refusal :=
  match s.commits with
  | [] => .next s
  | c :: r => if c.start < s.cycle ∧ s.mode ≠ .off then .next (({ s with commits := r }).finishCommit c) else .next s

/-! ### Requests (R17 to R19) -/

/-- The mode of a code of Table 10 that a request may carry. -/
def modeOf (k : Nat) : Option Mode :=
  match k with
  | 1 => some .retain
  | 2 => some .configure
  | 3 => some .rehearse
  | 4 => some .run
  | 5 => some .hold
  | _ => none

/-- A transition of Table 11 that takes effect later; `d0` those at a D0 boundary. -/
def Mode.later (frm dst held : Mode) : Option Bool :=
  match frm, dst with
  | .configure, .rehearse => some true
  | .configure, .run => some true
  | .configure, .retain => some false
  | .retain, .configure => some false
  | .rehearse, .run => some true
  | .run, .rehearse => some true
  | .rehearse, .configure => some true
  | .run, .configure => some true
  | .hold, .configure => some false
  | .hold, .rehearse => if held = .rehearse then some true else none
  | .hold, .run => if held = .run then some true else none
  | _, _ => none

/-- Posted writes keep their ready cycles under the phases of slot pointers set to 0 (R385). -/
def State.repost (s : State) : State :=
  { s with posted := s.posted.map fun w => { w with perf := s.perfAt w.core w.pi w.bank (max w.ready s.cycle) 0 } }

/-- HOLD comes into force (R22). -/
def State.enterHold (s : State) (src : HoldSrc) : State :=
  let s := s.freezePins
  let s := s.tdrAbandon
  let s := if s.mode = .run then s.dropOrders else s
  let s : State := { s with heldFrom := s.mode, mode := .hold, holdSrc := src, settled := false, pend := none,
                            commons := { s.commons with holdT := s.now } }
  let s := s.each s.threadList fun s g => (s.setThr g { s.thr g with step := false }).haltThread g 4
  let s := s.each s.psqList State.psqHold
  s.gleanStop.gateAll

/-- The source that a HOLD request by an access path shows. -/
def holdSrcOf : Path → HoldSrc
  | .camin => .camin
  | _ => .cpxCtl

/-- A mode request on an access path: the state, and whether it was accepted (R17 to R19). -/
def State.modeRequest (s : State) (path : Path) (code : Nat) : State × Bool :=
  match modeOf code with
  | none => (s, false)
  | some m =>
    let ok (s : State) : State × Bool := (s.setRf .cpxCtl 2 0 code, true)
    if m = .hold ∧ s.active then ok (s.enterHold (holdSrcOf path))
    else if s.pend.isSome then (s, false)
    else if m = s.mode then ok s
    else
      match Mode.later s.mode m s.heldFrom with
      | none => (s, false)
      | some d0 => if d0 ∧ ¬ s.domEn 0 then (s, false) else ok { s with pend := some m, pendCyc := s.cycle }

/-- A request pending for a mode takes effect at a D0 boundary of this cycle. -/
def State.atBoundary (s : State) : Bool := decide (s.pendCyc < s.cycle) && s.boundaryDue 0

/-- HOLD_SETTLED (R22). -/
def execHoldSettled (s : State) : Host.Outcome State Fault Refusal :=
  if s.mode = .hold ∧ ¬ s.settled ∧
      (s.threadList.all fun g => (s.thr g).st == .idle || (s.thr g).st == .halted) ∧
      (s.psqList.all fun q => (s.psq q).st == .stopped || (s.psq q).st == .held) then
    .next { s with settled := true }
  else .next s

/-- What ends with HOLD whatever mode follows. -/
def State.clearHold (s : State) : State := { s with heldFrom := .off, holdSrc := .none, settled := false }

/-- The return from HOLD (R23, R54, R265, R271, R308, R375). -/
def State.returnHold (s : State) : State :=
  let s := ({ s with mode := s.heldFrom, pend := none, sptr := 0 }).clearHold.repost
  let s := s.each s.threadList fun s g =>
    let t := s.thr g
    if t.st = .halted ∧ t.cause = 4 then s.resume g s.cycle
    else match t.haltReq with
      | some (4, _) => s.setThr g { t with haltReq := none }
      | _ => s
  let s := s.thawPins.tmrReturn
  let s := s.each s.psqList State.psqReturn
  s.moversReturn.runAll

/-- RETURN_FROM_HOLD (R23). -/
def execReturnFromHold (s : State) : Host.Outcome State Fault Refusal :=
  .next (if s.mode = .hold ∧ s.pend = some s.heldFrom ∧ s.atBoundary then s.returnHold else s)

/-- Entry to CONFIGURE (R21): the boundary of entry commits first, then everything stops. -/
def State.enterConfigure (s : State) : State :=
  let fromHold := s.mode == .hold
  let s := if s.mode = .run then s.dropOrders else s
  let s := ({ s with mode := .configure, pend := none }).clearHold
  let s := if fromHold then s.thawPins.tmrReturn else s
  let s := s.each (upto 4) fun s d => if ¬ fromHold ∧ s.boundaryDue d then s.boundary d else s
  let s := s.finishCommits.configureSheaves
  let s := s.each s.threadList fun s g =>
    (s.setThr g { s.thr g with part := none, step := false }).haltThread g 6
  let s := s.each s.psqList State.psqConfigure
  s.mbusConfigure.moversConfigure.gateAll

/-- ENTER_CONFIGURE (R21, Table 11): at a D0 boundary, and from HOLD in the cycle after the request. -/
def execEnterConfigure (s : State) : Host.Outcome State Fault Refusal :=
  if s.pend = some .configure ∧ ((s.active ∧ s.atBoundary) ∨ (s.mode = .hold ∧ s.pendCyc < s.cycle)) then .next s.enterConfigure
  else .next s

/-- A thread's place on the entry to REHEARSE or RUN from CONFIGURE (R38, R62). -/
def State.placeThread (s : State) (g : Nat) : State :=
  let s := if (s.thr g).stopReq.isSome ∨ (s.thr g).haltReq.isSome then s.stopNow g else s
  let t := { s.thr g with part := none }
  let s := s.setThr g t
  if (s.memberDom g).isSome then
    match t.st with
    | .idle => s.setThr g { t with st := .dozing, doze := .swath }
    | .ready => s.setThr g { t with st := .dozing, doze := .swath }
    | .faulted => s.setThr g { t with doze := .swath }
    | .halted =>
      if t.cause = 6 then s.setThr g { t with st := .dozing, doze := .swath, prior := .idle, cause := 0, waitOn := none }
      else s.setThr g { t with prior := .dozing, doze := .swath }
    | _ => s
  else if t.st = .idle ∧ bit (s.tcb g) 4 then s.setThr g { t with st := .ready, next := max t.next s.cycle }
  else if t.st = .halted ∧ t.cause = 6 then s.resume g s.cycle
  else s

/-- Every instruction-cache line and BTB entry is invalidated (R369, R197). -/
def State.flushCaches (s : State) : State :=
  s.each (s.cores.map Prod.fst) fun s n => s.setCore n { s.core n with cache := [], btb := [] }

/-- The threads that entry from CONFIGURE places: those listed, members, and AUTO threads. -/
def State.entryThreads (s : State) : List Nat :=
  (upto 512).filter fun g => s.threadList.contains g || (s.memberDom g).isSome || bit (s.tcb g) 4

/-- The sequencers that start by themselves (R271). -/
def State.autoPsqs (s : State) : List Nat := (upto 64).filter fun q => s.rb (.psqCtl q) 31

/-- REHEARSE or RUN takes effect on entry from CONFIGURE (R54, R62, R271, R327, R342, R369, R385). -/
def State.leaveConfigure (s : State) (m : Mode) : State :=
  let s := if m = .rehearse then s.rehearsePins else s.runPins
  let s := ({ s with mode := m, pend := none, sptr := 0 }).repost.flushCaches.runAll
  let s := s.each s.entryThreads State.placeThread
  let s := s.each s.autoPsqs fun s q => if (s.psq q).st = .stopped then s.psqStart q none else s
  s.mbusStart

/-- LEAVE_CONFIGURE (R62). -/
def execLeaveConfigure (s : State) : Host.Outcome State Fault Refusal :=
  match s.pend with
  | some m =>
    if s.mode = .configure ∧ (m = .rehearse ∨ m = .run) ∧ s.atBoundary then .next (s.leaveConfigure m) else .next s
  | none => .next s

/-- REHEARSE_RUN_SWITCH (R20, R26, R275, R362). -/
def execRehearseRunSwitch (s : State) : Host.Outcome State Fault Refusal :=
  if s.mode = .rehearse ∧ s.pend = some .run ∧ s.atBoundary then .next { s.runPins with mode := .run, pend := none }
  else if s.mode = .run ∧ s.pend = some .rehearse ∧ s.atBoundary then
    .next { s.rehearsePins.dropOrders with mode := .rehearse, pend := none }
  else .next s

/-- Accesses in flight have completed (Table 11, R178). -/
def State.quiet (s : State) : Bool :=
  (s.movers.all fun e => !e.2.on) && s.posted.isEmpty && (s.threads.all fun e => e.2.sb.isEmpty) && s.commits.isEmpty

/-- ENTER_RETAIN (R347, R24, R197): clocks stop, links go down, outputs hold. -/
def execEnterRetain (s : State) : Host.Outcome State Fault Refusal :=
  if s.mode = .configure ∧ s.pend = some .retain ∧ s.quiet then
    let s := s.freezePins.gleanStop.mbusRetain
    .next { s with mode := .retain, pend := none }
  else .next s

/-- The Commons units of a number of cycles at the present rate. -/
def State.unitsOf (s : State) (cycles : Nat) : Nat := cycles * s.span

/-- RETAIN_EXIT (R24): 64,000 units after the request. -/
def execRetainExit (s : State) : Host.Outcome State Fault Refusal :=
  if s.mode = .retain ∧ s.pend = some .configure ∧ 64000 ≤ s.unitsOf (s.cycle - s.pendCyc) then
    let s : State := { s with mode := .configure, pend := none }
    .next (s.thawPins.flushCaches.syncLost 1)
  else .next s

/-! ### OFF (R366 to R368) -/

/-- The block in OFF: every register at its reset value; the cycle count, chip memory and the waiting commands are outside it. -/
def State.toOff (s : State) (p : OffPhase) : State :=
  { State.reset with mode := .off, off := p, cycle := s.cycle, chip := s.chip, pending := s.pending, half := s.half }

/-- POWER_ON_RESET (R366): OFF; the memories are written to zero. -/
def execPowerOnReset (s : State) : Host.Outcome State Fault Refusal := .next (s.toOff .heldCold)
/-- POWER_REMOVAL (R17): OFF at once; contents are lost. -/
def execPowerRemoval (s : State) : Host.Outcome State Fault Refusal := .next (s.toOff .unpowered)

/-- The window that the Gleaner tests holds what its shadow holds (R194). -/
def State.settleWindow (s : State) : State :=
  if s.gleaner.ph = .test ∨ s.gleaner.ph = .restore then
    s.each (upto 256) fun s i => s.setCell (s.gleanBase + i) (s.cell (gshadowKey i))
  else s

/-- WARM_RESET (R366): OFF; memories and check bits are kept. A block without power stays so. -/
def execWarmReset (s : State) : Host.Outcome State Fault Refusal :=
  if s.off = .unpowered then .next s
  else
    let cold := s.off == .heldCold || s.off == .initCold
    let w := s.settleWindow
    .next { s.toOff (if cold then .heldCold else .heldWarm) with ram := w.ram, ecc := w.ecc }

/-- RESET_RELEASE (R366, R367): initialisation begins, or the conditions of R367 fail and ready needs a further reset. -/
def execResetRelease (good : Bool) (s : State) : Host.Outcome State Fault Refusal :=
  if s.off = .heldCold then .next { s with off := if good then .initCold else .failed }
  else if s.off = .heldWarm then .next { s with off := if good then .initWarm else .failed }
  else .next s

/-- INIT_COMPLETE (R368): ready, in CONFIGURE; secure RAM is zero after either reset. -/
def execInitComplete (s : State) : Host.Outcome State Fault Refusal :=
  let base : State := { State.reset with cycle := s.cycle, chip := s.chip, pending := s.pending, half := s.half }
  if s.off = .initCold then .next base
  else if s.off = .initWarm then
    .next { base with ram := s.ram.filter fun e => !isSecureKey e.1, ecc := s.ecc.filter fun e => !isSecureKey e.1 }
  else .next s

end Sys2Proof.Machine
end

