-- ==== Sys2Proof/Machine/Special.lean ====
section
/-! DEFINITION. The special registers of Table 28: widths, reads, writes, reserved encodings (R107, R108, R379). -/
namespace Sys2Proof.Machine

/-- The width of a special register; none for a number that Table 28 does not list. -/
def spWidth (n : Nat) : Option Nat :=
  if n = 0x08 ∨ n = 0x0C ∨ n = 0x0E ∨ n = 0x0F then some 64
  else if n = 0x0D then some 16
  else if n ≤ 0x05 ∨ n = 0x09 ∨ n = 0x0A ∨ n = 0x10 ∨ n = 0x11 ∨ (0x20 ≤ n ∧ n ≤ 0x2B) then some 32
  else none

/-- The special register `n` of thread `g`, zero-extended. -/
def State.spRead (s : State) (g n : Nat) : DWord :=
  let t := s.thr g
  let w (x : Word) : DWord := x.setWidth 64
  if n = 0x00 then w t.pc
  else if n = 0x01 then w t.flg
  else if n = 0x02 then w (s.reg (thrReg .coreWin g))
  else if n = 0x03 then w (s.reg (thrReg .coreEvv g))
  else if n = 0x04 then w (s.tcb g)
  else if n = 0x05 then w t.plb
  else if n = 0x08 then t.p
  else if n = 0x09 then w (hi32 t.p)
  else if n = 0x0A then w (lo32 t.p)
  else if n = 0x0C then t.acc.setWidth 64
  else if n = 0x0D then (t.acc >>> 64).setWidth 64
  else if n = 0x0E then t.q
  else if n = 0x0F then t.rem
  else if n = 0x10 then w t.fpc
  else if n = 0x11 then w t.fps
  else if n < 0x24 then w (t.loop (n - 0x20)).ls
  else if n < 0x28 then w (t.loop (n - 0x24)).le
  else w (t.loop (n - 0x28)).lc

/-- The value would put a reserved encoding into the register (R108). -/
def spBad (n : Nat) (v : DWord) : Bool :=
  let f := natFld v.toNat
  (n == 0x02 && decide (f 15 8 + f 23 16 > 0xFF)) || (n == 0x03 && f 4 0 != 0)

/-- The setting of R71 that a special register is. -/
def spLag (g n : Nat) : Option LagKey :=
  if n = 0x02 then some (.win g) else if n = 0x03 then some (.evv g) else if n = 0x04 then some (.tcb g)
  else if n = 0x10 then some (.fpc g) else none

/-- The special register takes a whole value; its reserved bits are ignored (R108). -/
def State.spSet (s : State) (g n : Nat) (v : DWord) : State :=
  let t := s.thr g
  let w := lo32 v
  if n = 0x01 then s.setThr g { t with flg := w &&& 0x11F }
  else if n = 0x02 then s.setReg (thrReg .coreWin g) (w &&& 0x00FFFF00)
  else if n = 0x03 then s.setReg (thrReg .coreEvv g) w
  else if n = 0x04 then s.setReg (thrReg .coreTctl g) (w &&& 0xF1F)
  else if n = 0x05 then s.setThr g { t with plb := w &&& 0x7FFF }
  else if n = 0x08 then s.setThr g { t with p := v }
  else if n = 0x09 then s.setThr g { t with p := mk64 w (lo32 t.p) }
  else if n = 0x0A then s.setThr g { t with p := mk64 (hi32 t.p) w }
  else if n = 0x0C then s.setThr g { t with acc := (t.acc >>> 64 <<< 64) ||| v.setWidth 80 }
  else if n = 0x0D then s.setThr g { t with acc := (v.setWidth 80 <<< 64) ||| (t.acc.setWidth 64).setWidth 80 }
  else if n = 0x0E then s.setThr g { t with q := v }
  else if n = 0x0F then s.setThr g { t with rem := v }
  else if n = 0x10 then s.setThr g { t with fpc := w &&& 0x3 }
  else if n = 0x11 then s.setThr g { t with fps := w &&& 0x1F }
  else if 0x20 ≤ n ∧ n < 0x24 then s.setThr g (t.setLoop (n - 0x20) { t.loop (n - 0x20) with ls := w })
  else if 0x24 ≤ n ∧ n < 0x28 then s.setThr g (t.setLoop (n - 0x24) { t.loop (n - 0x24) with le := w })
  else if 0x28 ≤ n ∧ n < 0x2C then s.setThr g (t.setLoop (n - 0x28) { t.loop (n - 0x28) with lc := w })
  else s

/-- A setting comes into force at once: no old value lags behind it (R379). -/
def State.dropLag (s : State) (k : LagKey) : State := { s with lags := s.lags.filter fun l => l.key != k }

/-- A debug commit (R379): in force for the thread's next issue. -/
def State.spCommit (s : State) (g n : Nat) (v : DWord) : State :=
  let s := s.spSet g n v
  match spLag g n with
  | some k => s.dropLag k
  | none => s

/-- A TCB write by a thread that would change DET, SLW or AUTO (R74). -/
def State.tcbBars (s : State) (g : Nat) (v : DWord) : Bool := ((lo32 v ^^^ s.tcb g) &&& 0x19) != 0

/-- A whole value that a thread's instruction writes (R72, R74, R108): refused with CFG_REJECT, or written, the old value of a
setting of R71 staying in use for 5 cycles. -/
def State.spWrite (s : State) (g n : Nat) (v : DWord) : State :=
  if spBad n v ∨ (n = 0x04 ∧ s.tcbBars g v) then s.report 0x60 0 g (s.thr g).pc (BitVec.ofNat 32 n)
  else
    match spLag g n with
    | some k => (s.lag k (lo32 (s.spRead g n))).spSet g n v
    | none => s.spSet g n v

end Sys2Proof.Machine
end

