-- ==== Sys2Proof/Machine/Reads.lean ====
section
/-! DEFINITION. Reads of the register window (R7, R13, R25, R27, R30, R245): what each register shows, the wide-read latches,
the reads that pop a FIFO. -/
namespace Sys2Proof.Machine

/-! ### Refusals -/

/-- The source kind of an access path (Table 111). -/
def pathSkind : Path → Nat
  | .host => 5
  | .camin => 6
  | .mailbox => 7
/-- The source index of an access path (Table 111). -/
def State.pathSidx (s : State) (p : Path) : Nat := if p = .mailbox then s.rf .cmnSrv 26 24 else 0
/-- An access to a window offset is refused: the report, and its code (R9, R12, R27, R353). -/
def State.refuse (s : State) (acc : Acc) (code off : Nat) : State × Nat :=
  (s.report code (pathSkind acc.path) (s.pathSidx acc.path) (BitVec.ofNat 32 off) 0, code)

/-! ### Computed registers -/

/-- CPX_STAT. -/
def State.cpxStatWord (s : State) : Word :=
  let src := match s.holdSrc with | .none => 0 | .cpxCtl => 1 | .camin => 2 | .order => 3
  let held := if s.mode = .hold then s.heldFrom.code else 0
  BitVec.ofNat 32 (b2n s.settled <<< 13 ||| src <<< 11 ||| held <<< 8 ||| ((s.pend.map Mode.code).getD 0) <<< 4
    ||| b2n s.pend.isSome <<< 3 ||| s.mode.code)

/-- CPX_ID. -/
def cpxIdWord : Word :=
  BitVec.ofNat 32 (Config.chip.code.toNat <<< 16 ||| 0x21 <<< 8 ||| Config.stepping.code.toNat)

/-- The level of a pin at the start of the cycle. -/
def State.pinBefore (s : State) (p : Nat) : Bool :=
  let x := s.pin p
  if x.lvlCyc = some s.cycle then !x.lvl else x.lvl

/-- HDG_IO (R302, R304, R309): LVL reads 0 to an access that is not secure where the pin is secure-owned (R299). -/
def State.hdgIoWord (s : State) (acc : Acc) (p : Nat) : Word :=
  let x := s.pin p
  let lvl := if s.owner p = 0x21 ∧ ¬ acc.secure then false else s.pinBefore p
  (s.reg (.hdgIo p) &&& 0x00C00003) ||| BitVec.ofNat 32 (b2n x.parkTil.isSome <<< 31 ||| s.enf p <<< 27
    ||| b2n x.user.isSome <<< 26 ||| x.slot <<< 24 ||| b2n (Config.bank18 (p / 32)) <<< 21 ||| b2n lvl <<< 20)

/-- SHF_STAT. -/
def State.shfStatWord (s : State) : Word :=
  BitVec.ofNat 32 ((s.ctxs.foldl (fun n e => n + e.2.held.length) 0) <<< 16 ||| s.side.length)

/-- CORE_STAT. -/
def State.coreStatWord (s : State) (n : Nat) : Word :=
  BitVec.ofNat 32 (b2n (s.coreStopped n) <<< 16 ||| (s.core n).rptr <<< 8 ||| s.sptr)

/-- The address of a thread's next instruction: after a DOZE in progress, that which follows it (CORE_PC). -/
def Thread.nextPc (t : Thread) : Word :=
  match t.doze with
  | .til _ nxt => nxt
  | _ => t.pc

/-- Flags of word `w` of cluster `c` (CLK_EVF). -/
def State.evfWord (s : State) (c w : Nat) : Word :=
  BitVec.ofNat 32 ((upto 32).foldl (fun n i => n + b2n (s.flagNow c (32 * w + i)) * 2 ^ i) 0)

/-- The fields of the head record; 0 where none is unread (R356). -/
def State.headRec (s : State) (f : Record → Word) : Word := (s.log.head?.map f).getD 0

/-- The latches and staging words of a path: one for each window offset (R245, R246). -/
def pathKey (p : Path) (o : Nat) : Nat := 0x100000 * pathIdx p + o

/-- A low-word read of a wide value: the path's latch takes the high word (R245). -/
def State.readLow (s : State) (p : Path) (o : Nat) (v : DWord) : State × Word := (s.setLatch (pathKey p o) (hi32 v), lo32 v)

/-- A low-word read of Commons time also latches the era (R245). -/
def State.readTimeLow (s : State) (p : Path) : State × Word :=
  (s.setLatch (pathKey p 0x200C) (s.commons.era.setWidth 32)).readLow p 0x2000 s.now

/-- The value that CORE_DSRD shows (R379). -/
def State.dsrdValue (s : State) (n : Nat) : DWord := s.spRead (16 * n + s.rf (.coreDsr n) 11 8) (s.rf (.coreDsr n) 7 0)

/-- The word at PSQ_PADDR; the address advances (R273). -/
def State.readProg (s : State) (q : Nat) : State × Word :=
  let a := s.rf (.psqPaddr q) 7 0
  (s.setReg (.psqPaddr q) (BitVec.ofNat 32 ((a + 1) % 256)), s.progWord q a)

/-- What a read of a register returns, and what it changes. -/
def State.readReg (s : State) (acc : Acc) (r : Reg) : State × Word :=
  let p := acc.path
  match r with
  | .cpxStat => (s, s.cpxStatWord)
  | .cpxId => (s, cpxIdWord)
  | .cpxGstat => (s, s.gstatWord)
  | .cpxTdrctl => (s, (s.reg r &&& 0xFF) ||| BitVec.ofNat 32 (b2n s.tdrPin.isSome <<< 30))
  | .cpxGchdata =>
    if p = .camin then (s, (s.chan (chanKey true 0 (s.rf .cpxGchsel 10 4))).word (s.rf .cpxGchsel 3 0))
    else ((s.refuse acc 0x05 0x414).1, 0)
  | .swdBtime d 0 => s.readLow p r.off (s.reg64 (.swdBtime d))
  | .swdBtime d _ => (s, s.latchAt (pathKey p (Reg.off (.swdBtime d 0))))
  | .cmnTime 0 => s.readTimeLow p
  | .cmnTime _ => (s, s.latchAt (pathKey p 0x2000))
  | .cmnEra => (s, s.commons.era.setWidth 32)
  | .cmnLera => (s, s.latchAt (pathKey p 0x200C))
  | .cmnStat => (s, (s.reg r &&& 0x60000000) ||| BitVec.ofNat 32 (b2n (s.reg .cmnSlew != 0) <<< 31))
  | .tmrStat ch => (s, s.tmrStatWord ch)
  | .tmrCmp ch 0 => s.readLow p r.off (s.tmrCmpRead ch)
  | .tmrCmp ch _ => (s, s.latchAt (pathKey p (Reg.off (.tmrCmp ch 0))))
  | .tmrIvl ch 0 => (s, lo32 (s.timer ch).ivl)
  | .tmrIvl ch _ => (s, hi32 (s.timer ch).ivl)
  | .tmrLast ch 0 => s.readLow p r.off (s.timer ch).last
  | .tmrLast ch _ => (s, s.latchAt (pathKey p (Reg.off (.tmrLast ch 0))))
  | .tmrCap ch 0 => let (s, v) := s.tmrPop ch; s.readLow p r.off v
  | .tmrCap ch _ => (s, s.latchAt (pathKey p (Reg.off (.tmrCap ch 0))))
  | .fltStat => (s, (s.reg r &&& 0x80FF0000) ||| BitVec.ofNat 32 s.log.length)
  | .fltRec0 => (s, s.headRec Record.word0)
  | .fltRda => (s, s.headRec Record.da)
  | .fltRdb => (s, s.headRec Record.db)
  | .fltRtime 0 => (s, s.headRec fun x => lo32 x.time)
  | .fltRtime _ => (s, s.headRec fun x => hi32 x.time)
  | .fltRseq => (s, s.headRec fun x => x.seq.setWidth 32)
  | .sorPend => (s, BitVec.ofNat 32 ((upto 32).foldl (fun n o => n + b2n (s.orderPending o) * 2 ^ o) 0))
  | .sorStat o => (s, (s.reg r &&& 0xFFFFFFF8) ||| BitVec.ofNat 32 (b2n (s.orderPending o) <<< 2))
  | .pwrDzstat n => (s, s.dzstatWord n)
  | .hdgSlot q _ => (s, if s.owner q = 0x21 ∧ ¬ acc.secure then 0 else s.reg r)
  | .hdgIo q => (s, s.hdgIoWord acc q)
  | .shfCst x => (s, s.cstWord x)
  | .shfStat => (s, s.shfStatWord)
  | .glkChstat ch => (s, s.chstat (chanKey true 0 ch))
  | .glkLock l => (s, s.lockWord (lockKey true 0 l))
  | .mbuTdrctl m => (s, BitVec.ofNat 32 (b2n (s.mbu m).tdr <<< 30))
  | .mbuFqst m j => (s, (s.reg r &&& 0xFF) ||| BitVec.ofNat 32 (b2n (s.head m j).isSome <<< 31))
  | .coreStat n => (s, s.coreStatWord n)
  | .coreTstat n t =>
    let th := s.thr (16 * n + t)
    (s, BitVec.ofNat 32 ((if th.st = .halted then th.prior.code else 0) <<< 4 ||| (if th.justReleased s.cycle then TState.dozing else th.st).code))
  | .corePc n t => (s, (s.thr (16 * n + t)).nextPc)
  | .coreEvcfg n t => (s, (s.reg r &&& 0xFF) ||| BitVec.ofNat 32 (s.pendBits (16 * n + t) <<< 8))
  | .coreDsrd n 0 => s.readLow p r.off (s.dsrdValue n)
  | .coreDsrd n _ => (s, s.latchAt (pathKey p (Reg.off (.coreDsrd n 0))))
  | .coreHcause n t =>
    let th := s.thr (16 * n + t)
    (s, BitVec.ofNat 32 (th.bp <<< 4 ||| th.cause))
  | .psqStat q => (s, s.psqStatWord q)
  | .psqPc q => (s, (s.psq q).pc.setWidth 32)
  | .psqTrig q => (s, (s.trigAll q).setWidth 32)
  | .psqPdata q => s.readProg q
  | .psqAst q => (s, BitVec.ofNat 32 ((s.psq q).rsvd <<< 16 ||| (s.psq q).fifo.length))
  | .psqCntv q => (s, s.cntv q)
  | .psqSh q k 0 => (s, lo32 (s.sh q k).data)
  | .psqSh q k _ => (s, hi32 (s.sh q k).data)
  | .psqCap q l 0 => let (s, v) := s.popCap q l; s.readLow p r.off v
  | .psqCap q l _ => (s, s.latchAt (pathKey p (Reg.off (.psqCap q l 0))))
  | .psqCapst q l => (s, (s.reg r &&& 0x8000FF00) ||| BitVec.ofNat 32 (s.lane q l).caps.length)
  | .clkEvf c w => (s, s.evfWord c w)
  | .clkChstat c ch => (s, s.chstat (chanKey false c ch))
  | .clkLock c l => (s, s.lockWord (lockKey false c l))
  | .clkChdata c ch w => (s, (s.chan (chanKey false c ch)).word w)
  | _ => (s, s.reg r)

/-! ### The fast status page (R30, Table 16) -/

/-- A word of the fast status page. -/
def State.readFast (s : State) (p : Path) (o : Nat) : State × Word :=
  if o = 0 then (s, s.cpxStatWord)
  else if o = 4 then
    (s, BitVec.ofNat 32 (s.log.length <<< 8 ||| (s.log.getLast?.map Record.code).getD 0))
  else if o = 8 then s.readTimeLow p
  else if o = 12 then (s, s.latchAt (pathKey p 0x2000))
  else if o % 4 ≠ 0 then (s, 0)
  else if 0x10 ≤ o ∧ o < 0x20 then (s, s.reg (.swdNum ((o - 0x10) / 4)))
  else if 0x20 ≤ o ∧ o < 0x30 then (s, s.reg (.fastLast ((o - 0x20) / 4)))
  else if o = 0x30 then (s, BitVec.ofNat 32 ((upto 4).foldl (fun n d => n + b2n (s.rb (.ldgLstat d) 31) * 2 ^ d) 0))
  else if 0x40 ≤ o ∧ o < 0x80 then (s, s.reg (.mbuLink ((o - 0x40) / 4)))
  else if 0x80 ≤ o ∧ o < 0x100 then (s, s.word (sharedKey 0 (o - 0x80)))
  else (s, 0)

/-! ### Accesses -/

/-- The accessible set of RETAIN (R25, Table 12). -/
def retainOpen (o : Nat) : Bool := decide (o < 0x100) || o == 0x100 || o == 0x104 || o == 0x108

/-- A 32-bit read at a window offset (R25, R27). -/
def State.read32 (s : State) (acc : Acc) (o : Nat) : State × Word :=
  if s.mode = .retain ∧ retainOpen o = false then (s, 0)
  else if o < 0x100 then s.readFast acc.path o
  else match regAt o with
    | none => (s, 0)
    | some r => s.readReg acc r

/-- A path reaches an offset: the mailbox only the Commons and timer pages, outside RETAIN (Table 80, R255). -/
def State.reaches (s : State) (p : Path) (o : Nat) : Bool :=
  p != .mailbox || (decide (0x2000 ≤ o) && decide (o < 0x3000) && s.mode != .retain)

/-- A read of the register window (R13): the data reach the path's read port. In OFF no access is answered (R25). -/
def State.busRead (s : State) (acc : Acc) (size : Size) (o : Nat) : State :=
  if s.mode = .off ∨ s.reaches acc.path o = false then s
  else
    match size with
    | .b32 => let (s, v) := s.read32 acc o; s.setRead acc.path (v.setWidth 64)
    | .b64 =>
      if o % 8 = 0 then
        let (s, lo) := s.read32 acc o
        let (s, hi) := s.read32 acc (o + 4)
        s.setRead acc.path (mk64 hi lo)
      else (s.refuse acc 0x04 o).1.setRead acc.path 0
    | _ => (s.refuse acc 0x04 o).1.setRead acc.path 0

/-- WIDE_READ_LOW (R245). -/
def execWideReadLow (acc : Acc) (size : Size) (off : BitVec 20) (s : State) : Host.Outcome State Fault Refusal :=
  .next (s.busRead acc size off.toNat)
/-- TIMER_CAPTURE_READ (R263). -/
def execTimerCaptureRead (acc : Acc) (size : Size) (ch : BitVec 5) (s : State) : Host.Outcome State Fault Refusal :=
  .next (s.busRead acc size (Reg.off (.tmrCap ch.toNat 0)))
/-- PROGRAM_RAM_READ (R273). -/
def execProgramRamRead (acc : Acc) (q : BitVec 6) (s : State) : Host.Outcome State Fault Refusal :=
  .next (s.busRead acc .b32 (Reg.off (.psqPdata q.toNat)))
/-- GLOBAL_CHANNEL_PEEK (R380). -/
def execGlobalChannelPeek (acc : Acc) (s : State) : Host.Outcome State Fault Refusal :=
  .next (s.busRead acc .b32 (Reg.off .cpxGchdata))

end Sys2Proof.Machine
end

