-- ==== Sys2Proof/Machine/Judge.lean ====
section
/-! DEFINITION. How a register write is judged (R7 to R12, R299, R301, R372): reserved encodings, class S, owners. -/
namespace Sys2Proof.Machine

/-! ### Fields -/

/-- The word that a write leaves by the access codes of its fields (Table 3). -/
def applyFields (fs : List Fld) (cur v : Word) : Word :=
  fs.foldl (fun w f => match f.acc with
    | .rw => setFld w f.hi f.lo (fld v f.hi f.lo)
    | .w1c => w &&& ~~~ (v &&& fldMask f.hi f.lo)
    | .w1s => w ||| (v &&& fldMask f.hi f.lo)
    | _ => w) cur

/-- A write would change a field of class S (R11). -/
def changesStopped (fs : List Fld) (cur v : Word) : Bool :=
  fs.any fun f => f.cls == .stopped && fld cur f.hi f.lo != fld v f.hi f.lo

/-- A register that has a field of class T. -/
def Reg.ticks (r : Reg) : Bool := r.fields.any fun f => f.cls == .tick

/-! ### Camin-only registers (R212, R372) -/

/-- The registers that only the Camin port writes. -/
def Reg.caminOnly : Reg → Bool
  | .cpxGchsel => true
  | .cpxGchdata => true
  | .coreDbgcmd _ => true
  | .coreDsr _ => true
  | .coreDsrd _ _ => true
  | .coreBpc _ _ => true
  | .coreBpa _ _ => true
  | _ => false

/-- FORCE_CLOSE and DISCARD, which only the Camin port may write (R212). -/
def Reg.caminCmd (r : Reg) (v : Word) : Bool :=
  match r with
  | .glkChcmd => fld v 9 8 == 1 || fld v 9 8 == 2
  | .clkChcmd _ => fld v 9 8 == 1 || fld v 9 8 == 2
  | _ => false

/-! ### Secure pins (R299) -/

/-- A write that only a secure access may make. -/
def State.secureBars (s : State) (acc : Acc) (r : Reg) (v : Word) : Bool :=
  !acc.secure && (match r with
    | .hdgCfg p => s.owner p == 0x21 || fld v 31 24 == 0x21
    | .hdgSlot p _ => s.owner p == 0x21
    | .hdgIo p => s.owner p == 0x21
    | _ => false)

/-! ### Class S -/

/-- The unit that owns a register's class-S fields counts as stopped (R9). -/
def State.stoppedFor (s : State) (r : Reg) : Bool :=
  s.mode == .configure || (match r with
    | .swdStart d _ => !s.domEn d
    | .swdNumbase d => !s.domEn d
    | .ldgMbud m => !(s.mover m).on
    | .ldgTbud g => (s.thr g).st == .idle || (s.thr g).st == .halted
    | .tmrCtl ch => !s.rb (.tmrCtl ch) 31
    | .sorCtl o => !s.rb (.sorCtl o) 31 && !s.orderPending o
    | .sorSrc o => !s.rb (.sorCtl o) 31 && !s.orderPending o
    | .sorAct o => !s.rb (.sorCtl o) 31 && !s.orderPending o
    | .sorPmov o => !s.rb (.sorCtl o) 31 && !s.orderPending o
    | .sorPins o _ => !s.rb (.sorCtl o) 31 && !s.orderPending o
    | .hdgCfg p => (upto 4).all fun j => !s.slotEn p j && !s.slotShadow p j
    | .shfCtx x => (s.ctx x).st == .free
    | .mbuCtl m => !s.rb (.mbuCtl m) 31
    | .mbuRxcfg m => !s.rb (.mbuCtl m) 31
    | .mbuRxbase m => !s.rb (.mbuCtl m) 31
    | .mbuSplCtl m e => !s.rb (.mbuSplCtl m e) 31
    | .mbuSplAddr m e => !s.rb (.mbuSplCtl m e) 31
    | .mbuSplMval m e => !s.rb (.mbuSplCtl m e) 31
    | .mbuSplMmask m e => !s.rb (.mbuSplCtl m e) 31
    | .mbuFqcfg m j => !s.rb (.mbuFqcfg m j) 31
    | .coreSlot n _ => s.coreStopped n
    | .coreIcbase n => s.coreStopped n
    | .coreTctl n _ => s.coreStopped n
    | .corePc n _ => s.coreStopped n
    | .coreWin n _ => s.coreStopped n
    | .coreEvv n _ => s.coreStopped n
    | .coreEvsel n _ => s.coreStopped n
    | .coreEvcfg n _ => s.coreStopped n
    | .psqCtl q => (s.psq q).st == .stopped
    | .psqCnt q _ => (s.psq q).st == .stopped
    | .psqShcfg q _ => (s.psq q).st == .stopped
    | .psqLcfg q _ => (s.psq q).st == .stopped
    | .psqPdata q => (s.psq q).st == .stopped
    | _ => false)

/-- A slot whose KIND or IDX a write would change while its EN is 1 in force or in the shadow (R301). -/
def State.slotLocked (s : State) (p h : Nat) (v : Word) : Bool :=
  s.mode != .configure && (upto 2).any fun i =>
    let old := slotHalf (s.reg (.hdgSlot p h)) i
    let new := slotHalf v i
    (fld old 13 12 != fld new 13 12 || fld old 8 0 != fld new 8 0) &&
      (s.slotEn p (2 * h + i) || s.slotShadow p (2 * h + i))

/-- A write that R9 refuses. -/
def State.stoppedBars (s : State) (r : Reg) (v : Word) : Bool :=
  match r with
  | .hdgSlot p h => s.slotLocked p h v
  | .swdCtl d => s.domEn d && !bit v 0 && s.mode != .configure
  | .corePc n t => (s.thr (16 * n + t)).pc != v && !s.stoppedFor r
  | _ => changesStopped r.fields (s.reg r) v && !s.stoppedFor r

/-! ### Reserved encodings (R12) -/

/-- A granule address that CPX_EINJ accepts: code, near, bit, shared, secure RAM or the live process image. -/
def einjOk (a : Nat) : Bool :=
  (decide (a < 0x500000) || (decide (0x580000 ≤ a) && decide (a < 0x590000)) || (decide (0x600000 ≤ a) && decide (a < 0xC00000)))
  && granOf a == a

/-- IF, SPEED and TXDLY of MBU `m` (Table 99, R316, R319). -/
def State.mbuCtlBad (s : State) (m : Nat) (v : Word) : Bool :=
  let i := fld v 30 28
  let sp := fld v 27 26
  (decide (4 ≤ i) && decide (m < 12)) ||
  (if i ≤ 1 then decide (1 < sp) else if i = 2 then false else if i = 3 then sp != 1 else sp != 0) ||
  (fld v 15 12 != 0 && i != 2) || (s.rb (.mbuAn m) 31 && i != 4)

/-- The receive ring, its slots of 256 × 2^SZ bytes from BASE on, lies in shared RAM. -/
def rxRingBad (cfg base : Word) : Bool :=
  decide (fld base 18 0 + 256 * 2 ^ fld cfg 10 8 * 2 ^ fld cfg 27 24 > 0x80000)

/-- The two words of a splice entry hold a reserved encoding together (R336, MBU_SPL_CTL, MBU_SPL_ADDR). -/
def spliceBad (ctl addr : Word) : Bool :=
  (bit ctl 29 && !bit ctl 30) || (bit addr 31 && bit ctl 30) || (!bit ctl 29 && fld addr 20 19 != 0)

/-- TMR_CTL holds a reserved encoding (R262, R264, Tables 81 to 83). -/
def State.tmrCtlBad (s : State) (ch : Nat) (v : Word) : Bool :=
  let mode := fld v 30 29
  let link := fld v 28 27
  mode == 3 || fld v 1 0 == 3 || fld v 21 20 == 3 || (mode == 2 && (bit v 19 || link != 0)) ||
  ((link != 0 || fld v 1 0 == 1) && decide (ch ≤ fld v 26 22)) || (link == 3 && hi32 (s.timer ch).ivl != 0)

/-- The counter counts edges of a lane that captures none (R289). -/
def edgeBad (cnt lcfg : Word) : Bool := fld cnt 30 29 == 2 && fld lcfg 30 29 == 0

/-- A channel command whose requirement is not met (Table 69). -/
def State.chcmdBad (s : State) (key : Nat) (v : Word) : Bool :=
  let os := s.ostate (s.chan key)
  let cmd := fld v 9 8
  cmd == 0 || ((cmd == 1 || cmd == 2) && !(os == 2 || os == 3)) || (cmd == 3 && s.mode != .configure)

/-- A value puts a reserved encoding into a field, or sets what R12 refuses. -/
def State.reservedIn (s : State) (r : Reg) (v : Word) : Bool :=
  match r with
  | .cpxAwin _ => decide (fld v 15 12 > 12) || fld v 11 0 % 2 ^ fld v 15 12 != 0
  | .cpxEinj => fld v 30 29 == 0 || fld v 30 29 == 3 || !einjOk (fld v 23 0)
  | .cpxTdrctl => bit v 31 && s.tdrRefused (fld v 7 0)
  | .swdPeriod _ => decide (fld v 24 0 < 2000) || decide (fld v 24 0 > 16777216)
  | .cmnIncf => v != 0 && s.rf .cmnInci 6 0 == 64
  | .cmnInci => decide (fld v 6 0 < 16) || decide (fld v 6 0 > 64) || (fld v 6 0 == 64 && s.reg .cmnIncf != 0)
  | .cmnRadj => decide (v.toInt.natAbs > 2 ^ 24)
  | .cmnSlew => v == 0x80000000
  | .cmnStep => v == 0x80000000
  | .cmnSlewper => decide (fld v 15 0 < 64)
  | .cmnSync => fld v 23 0 == 0
  | .cmnSrv => bit v 31 && fld v 7 0 == fld v 15 8
  | .tmrCtl ch => s.tmrCtlBad ch v
  | .sorCtl o => fld v 23 20 == 14 || (bit v 31 && !s.rb (.sorCtl o) 31 && !s.armable o v)
  | .sorAct _ => fld v 27 26 == 3
  | .sorPmov _ => fld v 31 24 == 0x21
  | .pwrSmcfg _ => fld v 27 26 == 0
  | .pwrSmthr _ => decide (fld v 31 16 ≤ fld v 15 0)
  | .hdgCfg _ => !ownerListed (fld v 31 24) || fld v 21 20 == 3
  | .hdgSlot _ _ => (upto 2).any fun i => let x := slotHalf v i; !userListed (fld x 13 12) (fld x 8 0)
  | .shfCtx _ => fld v 9 0 == 0 || decide (fld v 9 0 > 512)
  | .clkLkrel _ => decide (fld v 8 0 > 255)
  | .clkChcmd c => decide (fld v 6 0 > 31) || s.chcmdBad (chanKey false c (fld v 6 0)) v
  | .glkChcmd => s.chcmdBad (chanKey true 0 (fld v 6 0)) v
  | .mbuCtl m => s.mbuCtlBad m v
  | .mbuRxcfg m => decide (fld v 27 24 > 10) || decide (fld v 10 8 > 4) || rxRingBad v (s.reg (.mbuRxbase m))
  | .mbuRxbase m => fld v 7 0 != 0 || rxRingBad (s.reg (.mbuRxcfg m)) v
  | .mbuAsym _ => decide (v.toInt.natAbs > 2 ^ 20)
  | .mbuFwd _ => fld v 15 0 == 0
  | .mbuAn m => bit v 31 && s.rf (.mbuCtl m) 30 28 != 4
  | .mbuTdrctl m => bit v 31 && (s.rb (.mbuCtl m) 31 || (s.mbu m).tdr)
  | .mbuSplCtl m e => decide (splMofs v + 4 > splOfs v) || spliceBad v (s.reg (.mbuSplAddr m e))
  | .mbuSplAddr m e => spliceBad (s.reg (.mbuSplCtl m e)) v
  | .mbuFqcfg _ _ => decide (fld v 27 24 > 8) || decide (32 * fld v 13 0 + 32 * 2 ^ fld v 27 24 > 0x80000)
  | .coreSlot _ _ => decide (fld v 4 0 > 0x10)
  | .corePc _ _ => fld v 1 0 != 0
  | .coreWin _ _ => decide (fld v 15 8 + fld v 23 16 > 0xFF)
  | .coreEvv _ _ => fld v 4 0 != 0
  | .coreDsr _ => (spWidth (fld v 7 0)).isNone
  | .coreBpc _ _ => fld v 31 30 == 3
  | .coreBpa _ _ => fld v 1 0 != 0
  | .psqRfx _ _ => fld v 28 27 == 0
  | .psqCnt q _ => fld v 30 29 == 3 || edgeBad v (s.reg (.psqLcfg q (fld v 22 20)))
  | .psqLcfg q l => decide (fld v 26 24 > 4) ||
      (upto 2).any fun k => s.rf (.psqCnt q k) 22 20 == l && edgeBad (s.reg (.psqCnt q k)) v
  | .psqShcfg _ _ => fld v 6 0 == 0 || decide (fld v 6 0 > 64)
  | _ => false

/-! ### Owners (R301) -/

/-- The EN of slot `2 h + i` that a write of the slot register brings into force at once: with IMM = 1, while the domain of the
pin is disabled, or in CONFIGURE (R303). -/
def State.slotLive (s : State) (p : Nat) (v : Word) (i : Nat) : Bool :=
  bit (slotHalf v i) 14 || s.mode == .configure || !s.domEn (s.rf (.hdgCfg p) 23 22)

/-- A write that would leave an enabled slot with a user that does not match the owner (R301). -/
def State.ownerBars (s : State) (r : Reg) (v : Word) : Bool :=
  match r with
  | .hdgCfg p => (upto 4).any fun j =>
      (s.slotEn p j || s.slotShadow p j) && !userMatches (fld v 31 24) (s.slotUser p j).1 (s.slotUser p j).2
  | .hdgSlot p h => (upto 2).any fun i =>
      let x := slotHalf v i
      (bit x 15 || (s.slotEn p (2 * h + i) && !s.slotLive p v i)) && !userMatches (s.owner p) (fld x 13 12) (fld x 8 0)
  | _ => false

/-- The code that refuses a write of a register's fields; none where it is accepted. -/
def State.judge (s : State) (r : Reg) (v : Word) : Option Nat :=
  if s.reservedIn r v then some 0x60
  else if s.stoppedBars r v then some 0x60
  else if s.ownerBars r v then some 0x05
  else none

end Sys2Proof.Machine
end

