-- ==== Sys2Proof/Machine/Bus.lean ====
section
/-! DEFINITION. Writes of the register window (R7 to R14, R27, R246, R381): what each accepted write does, and the commands
that are register accesses. -/
namespace Sys2Proof.Machine

/-! ### What follows an accepted write -/

/-- RGMII links at 1000 Mb/s go down where the increment no longer permits them (R314). -/
def State.dropRgmii (s : State) : State :=
  s.each (upto 16) fun s m =>
    if s.linkUp m ∧ s.rgmiiBars (s.ifu m) (s.rf (.mbuLink m) 27 26) then s.linkFall m else s

/-- The enables of a slot register that a write brings into force at once (R303), and the choice of the pin's user. -/
def State.slotWritten (s : State) (p h : Nat) (v : Word) : State :=
  let r := Reg.hdgSlot p h
  let live (s : State) (i : Nat) : State :=
    if s.slotLive p v i then
      match s.heldAt r with
      | none => s
      | some x =>
        let f := setBit x.force (16 * i + 15) (bit v (16 * i + 15))
        let m := x.mid.map fun w => setBit w (16 * i + 15) (bit v (16 * i + 15))
        s.setHeld r (some { x with force := f, mid := m })
    else s
  let s := live (live s 0) 1
  let s := match s.heldAt r with
    | some x => if bit x.force 15 = bit (s.reg r) 15 ∧ bit x.force 31 = bit (s.reg r) 31 then s.setHeld r none else s
    | none => s
  s.pinChanged p (s.cycle + 1)

/-- The effects of an accepted write beside the fields it sets: `old` is the word before, `v` the word written. -/
def State.wrote (s : State) (r : Reg) (old v : Word) : State :=
  let rise (i : Nat) : Bool := !bit old i && bit v i
  let fall (i : Nat) : Bool := bit old i && !bit v i
  match r with
  | .cpxTdrctl => if bit v 31 then { s with tdrPin := some (fld v 7 0) } else s
  | .swdCtl d => if rise 0 then s.enableDom d else if fall 0 then s.disableDom d else s
  | .ldgMbud m => if bit old 31 ≠ bit v 31 ∨ fld old 29 28 ≠ fld v 29 28 then s.reregisterMover m else s
  | .ldgTbud g => if bit old 31 ≠ bit v 31 ∨ fld old 29 28 ≠ fld v 29 28 then s.reregister g else s
  | .cmnIncf => s.dropRgmii
  | .cmnInci => s.dropRgmii
  | .cmnRadj => s.touch
  | .cmnSlew => { s.touch with commons := { s.touch.commons with slewCnt := 0 } }
  | .cmnSync => if rise 30 then s.touch else s
  | .tmrCtl ch => if rise 31 then s.tmrEnable ch else s
  | .tmrTrig ch => if bit v 0 then s.tmrGo ch else s
  | .fltPop => s.popLog (v.setWidth 16)
  | .sorCtl o => if fall 31 then s.cancelOrder o else s
  | .hdgCfg p => s.pinChanged p (s.cycle + 1)
  | .hdgSlot p h => s.slotWritten p h v
  | .glkLkrel => s.setLock (lockKey true 0 (fld v 8 0)) none
  | .clkLkrel c => s.setLock (lockKey false c (fld v 8 0)) none
  | .glkChcmd =>
    let k := chanKey true 0 (fld v 6 0)
    s.setChan k ((fun c : Chan => if fld v 9 8 = 1 then c.forceClose else if fld v 9 8 = 2 then c.dropOpen else c.clear) (s.chan k))
  | .clkChcmd c =>
    let k := chanKey false c (fld v 6 0)
    s.setChan k ((fun c : Chan => if fld v 9 8 = 1 then c.forceClose else if fld v 9 8 = 2 then c.dropOpen else c.clear) (s.chan k))
  | .clkEvset c w => s.each (upto 32) fun s i => if bit v i then s.setFlag c (32 * w + i) else s
  | .clkEvclr c w => s.each (upto 32) fun s i => if bit v i then s.clrFlag c (32 * w + i) else s
  | .mbuCtl m =>
    let s := if fall 31 then s.linkFall m else if rise 31 then s.enableMbu m else s
    if fld old 30 26 ≠ fld v 30 26 then (s.linkFall m).setRf (.mbuLink m) 30 28 (fld v 30 28) else s
  | .mbuAn m => if bit v 30 ∨ bit old 31 ≠ bit v 31 then s.anRestart m else s
  | .mbuTdrctl m => if bit v 31 then s.setMbu m { s.mbu m with tdr := true } else s
  | .mbuFqcfg m j => if rise 31 then s.enableQueue m j else if fall 31 then s.stopQueue m j else s
  | .coreSlot n e => s.dropLag (.slot n e)
  | .coreTctl n t => s.dropLag (.tcb (16 * n + t))
  | .coreWin n t => s.dropLag (.win (16 * n + t))
  | .coreEvv n t => s.dropLag (.evv (16 * n + t))
  | .psqCnt q k => if rise 31 then s.setCnt q k { s.cnt q k with start := s.cycle + 1 } else s
  | _ => s

/-- SWD_PERIOD of a disabled domain comes into force at once; other class-T words go to the shadow (R9, R10, R32). -/
def State.putTick (s : State) (r : Reg) (w : Word) : State :=
  match r with
  | .swdPeriod d => if s.domEn d then s.setShadow r w else (s.setReg r w).setHeld r none
  | _ => s.setShadow r w

/-- A write that is judged and, where accepted, sets its fields and has its effects. -/
def State.putFields (s : State) (acc : Acc) (r : Reg) (v : Word) (da : Nat) : State × Nat :=
  match s.judge r v with
  | some code => s.refuse acc code da
  | none =>
    let old := s.reg r
    let w := applyFields r.fields old v
    let s := if r.ticks then s.putTick r w else s.setReg r w
    (s.wrote r old v, 0)

/-! ### Commits of wide values (R246, R252, R259, R282, R379) -/

/-- A committed CMN_TIME (R252). -/
def State.commitTime (s : State) (acc : Acc) (v : DWord) (da : Nat) : State × Nat :=
  if s.mode = .configure then
    (({ s with commons := { s.commons with set := some v } }).setRb .cmnSync 30 false, 0)
  else if v = s.now then (s, 0)
  else s.refuse acc 0x60 da

/-- A committed TMR_IVL (R259). -/
def State.commitIvl (s : State) (acc : Acc) (ch : Nat) (v : DWord) (da : Nat) : State × Nat :=
  if v = 0 ∨ v.msb ∨ (tmrLink (s.reg (.tmrCtl ch)) = 3 ∧ hi32 v ≠ 0) then s.refuse acc 0x60 da
  else (s.tmrSetIvl ch v, 0)

/-- An action offered through PSQ_ACT_HI (R282). -/
def State.offerAction (s : State) (acc : Acc) (q : Nat) (a : DWord) (da : Nat) : State × Nat :=
  if s.mode = .configure ∨ actBad a then s.refuse acc 0x60 da
  else if reached (lo32 s.nextTime) (actTime a) then (s.actionLate q a 0, 0)
  else ((s.queueAction q a).1, 0)

/-- A commit of CORE_DSRD (R379). -/
def State.commitDsrd (s : State) (acc : Acc) (n : Nat) (v : DWord) (da : Nat) : State × Nat :=
  let g := 16 * n + s.rf (.coreDsr n) 11 8
  let i := s.rf (.coreDsr n) 7 0
  let st := (s.thr g).st
  if i = 0 ∨ spBad i v ∨ ¬ (st = .idle ∨ st = .halted) then s.refuse acc 0x60 da
  else (s.spCommit g i v, 0)

/-- A write of PSQ_PDATA (R273). -/
def State.writeProg (s : State) (acc : Acc) (q : Nat) (v : Word) : State × Nat :=
  if s.stoppedFor (.psqPdata q) then
    let a := s.rf (.psqPaddr q) 7 0
    ((s.setWord (progKey q (4 * a)) v).setReg (.psqPaddr q) (BitVec.ofNat 32 ((a + 1) % 256)), 0)
  else (s.report 0x61 3 q (BitVec.ofNat 32 (pathIdx acc.path)) (s.reg (.psqPaddr q)), 0x61)

/-- A command register: accepted, or refused under R12. -/
def State.command (s : State) (acc : Acc) (da : Nat) (x : State × Bool) : State × Nat :=
  if x.2 then (x.1, 0) else s.refuse acc 0x60 da

/-- A write of PC (CORE_PC): a thread dozing in DOZE goes on at the written address. -/
def State.writePc (s : State) (g : Nat) (v : Word) : State :=
  let t := s.thr g
  s.setThr g { t with pc := v, doze := match t.doze with | .til w _ => .til w v | d => d }

/-- A write of a register; `da` is the offset that a refusal names. -/
def State.writeReg (s : State) (acc : Acc) (r : Reg) (v : Word) (da : Nat) : State × Nat :=
  if (r.caminOnly ∨ r.caminCmd v) ∧ acc.path ≠ .camin then s.refuse acc 0x05 da
  else if s.secureBars acc r v then s.refuse acc 0x05 da
  else
    let low := s.stageAt (pathKey acc.path (r.off - 4))
    match r with
    | .cpxCtl => s.command acc da (s.modeRequest acc.path (fld v 2 0))
    | .cmnTime 0 => (s.setStage (pathKey acc.path r.off) v, 0)
    | .cmnTime _ => s.commitTime acc (mk64 v low) da
    | .cmnEra =>
      if s.mode = .configure then ({ s with commons := { s.commons with era := v.setWidth 16 } }, 0)
      else if v.setWidth 16 = s.commons.era then (s, 0)
      else s.refuse acc 0x60 da
    | .cmnStep =>
      if s.reservedIn r v then s.refuse acc 0x60 da
      else match s.requestStep (pathIdx acc.path) v with
        | (s, true) => (s, 0)
        | (s, false) => (s, 0x50)
    | .tmrCmp _ 0 => (s.setStage (pathKey acc.path r.off) v, 0)
    | .tmrCmp ch _ => (s.tmrSetCmp ch (mk64 v low), 0)
    | .tmrIvl _ 0 => (s.setStage (pathKey acc.path r.off) v, 0)
    | .tmrIvl ch _ => s.commitIvl acc ch (mk64 v low) da
    | .coreTcmd n => s.command acc da (s.tcmdCmd n (fld v 9 8) (fld v 3 0))
    | .coreDbgcmd n => s.command acc da (s.debugCmd n (fld v 9 8) (fld v 3 0))
    | .coreDsrd n 0 => (s.setCore n { s.core n with dsrd := v.setWidth 64 }, 0)
    | .coreDsrd n _ => s.commitDsrd acc n (mk64 v (lo32 (s.core n).dsrd)) da
    | .corePc n t =>
      match s.judge r v with
      | some code => s.refuse acc code da
      | none => (s.writePc (16 * n + t) v, 0)
    | .psqCmd q => s.command acc da (s.psqCommand q (fld v 1 0))
    | .psqPdata q => s.writeProg acc q v
    | .psqActLo q => (s.setPsq q { s.psq q with actLo := v }, 0)
    | .psqActHi q => s.offerAction acc q (mk64 v (s.psq q).actLo) da
    | .psqTrig q => (s.setTrig q (v.setWidth 8), 0)
    | .psqV q n => (s.vwrite q 2 n (fld v 15 0), 0)
    | _ => s.putFields acc r v da

/-- A 32-bit write at a window offset (R25, R27, R30): the state, and the code of a refusal, 0 for none. `da` is the offset
that a refusal of an action names (R282). -/
def State.write32 (s : State) (acc : Acc) (o : Nat) (v : Word) (da : Nat) : State × Nat :=
  if s.mode = .retain ∧ retainOpen o = false then s.refuse acc 0x04 o
  else if o < 0x100 then s.refuse acc 0x04 o
  else match regAt o with
    | none => s.refuse acc 0x04 o
    | some r => s.writeReg acc r v da

/-- The offset that a refusal names for the second half of a 64-bit write: that of the 64-bit write for an action (R282). -/
def wideDa (o : Nat) : Nat :=
  match regAt (o + 4) with
  | some (.psqActHi _) => o
  | _ => o + 4

/-- A 64-bit write: two 32-bit writes, the lower address first, each judged on its own (R13). The code is that of the first
refusal. -/
def State.write64 (s : State) (acc : Acc) (o : Nat) (v : DWord) : State × Nat :=
  let (s, c1) := s.write32 acc o (lo32 v) o
  let (s, c2) := s.write32 acc (o + 4) (hi32 v) (wideDa o)
  (s, if c1 = 0 then c2 else c1)

/-- A write of the register window (R13). In OFF no access is answered (R25). -/
def State.busWrite (s : State) (acc : Acc) (size : Size) (o : Nat) (v : DWord) : State :=
  if s.mode = .off ∨ s.reaches acc.path o = false then s
  else
    match size with
    | .b32 => (s.write32 acc o (lo32 v) o).1
    | .b64 => if o % 8 = 0 then (s.write64 acc o v).1 else (s.refuse acc 0x04 o).1
    | _ => (s.refuse acc 0x04 o).1

/-- A 32-bit write of a named register. -/
def State.put (s : State) (acc : Acc) (r : Reg) (v : Nat) : State := s.busWrite acc .b32 r.off (BitVec.ofNat 64 v)

/-! ### The commands that write registers -/

/-- REGISTER_WRITE (R9). -/
def execRegisterWrite (acc : Acc) (size : Size) (off : BitVec 20) (val : DWord) (s : State) : Host.Outcome State Fault Refusal :=
  .next (s.busWrite acc size off.toNat val)
/-- MODE_REQ_CONFIGURE (R17). -/
def execModeReqConfigure (acc : Acc) (s : State) : Host.Outcome State Fault Refusal := .next (s.put acc .cpxCtl 2)
/-- MODE_REQ_REHEARSE (R17). -/
def execModeReqRehearse (acc : Acc) (s : State) : Host.Outcome State Fault Refusal := .next (s.put acc .cpxCtl 3)
/-- MODE_REQ_RUN (R17). -/
def execModeReqRun (acc : Acc) (s : State) : Host.Outcome State Fault Refusal := .next (s.put acc .cpxCtl 4)
/-- MODE_REQ_RETAIN (R17). -/
def execModeReqRetain (acc : Acc) (s : State) : Host.Outcome State Fault Refusal := .next (s.put acc .cpxCtl 1)
/-- DOMAIN_ENABLE (R32). -/
def execDomainEnable (acc : Acc) (d : BitVec 2) (grace : Bool) (s : State) : Host.Outcome State Fault Refusal :=
  .next (s.put acc (.swdCtl d.toNat) (2 * b2n grace + 1))
/-- DOMAIN_DISABLE (R36). -/
def execDomainDisable (acc : Acc) (d : BitVec 2) (grace : Bool) (s : State) : Host.Outcome State Fault Refusal :=
  .next (s.put acc (.swdCtl d.toNat) (2 * b2n grace))
/-- The word of a thread command (CORE_TCMD, CORE_DBGCMD). -/
def tcmdWord (cmd g : Nat) : Nat := 256 * cmd + locOf g
/-- CORE_TCMD_START (R61). -/
def execCoreTcmdStart (acc : Acc) (g : Tid) (s : State) : Host.Outcome State Fault Refusal :=
  .next (s.put acc (.coreTcmd (coreOf g.toNat)) (tcmdWord 1 g.toNat))
/-- CORE_TCMD_STOP (R61). -/
def execCoreTcmdStop (acc : Acc) (g : Tid) (s : State) : Host.Outcome State Fault Refusal :=
  .next (s.put acc (.coreTcmd (coreOf g.toNat)) (tcmdWord 2 g.toNat))
/-- CORE_TCMD_CLEAR (R61). -/
def execCoreTcmdClear (acc : Acc) (g : Tid) (s : State) : Host.Outcome State Fault Refusal :=
  .next (s.put acc (.coreTcmd (coreOf g.toNat)) (tcmdWord 3 g.toNat))
/-- DEBUG_HALT (R373). -/
def execDebugHalt (acc : Acc) (g : Tid) (s : State) : Host.Outcome State Fault Refusal :=
  .next (s.put acc (.coreDbgcmd (coreOf g.toNat)) (tcmdWord 1 g.toNat))
/-- DEBUG_RESUME (R373). -/
def execDebugResume (acc : Acc) (g : Tid) (s : State) : Host.Outcome State Fault Refusal :=
  .next (s.put acc (.coreDbgcmd (coreOf g.toNat)) (tcmdWord 2 g.toNat))
/-- DEBUG_STEP (R374). -/
def execDebugStep (acc : Acc) (g : Tid) (s : State) : Host.Outcome State Fault Refusal :=
  .next (s.put acc (.coreDbgcmd (coreOf g.toNat)) (tcmdWord 3 g.toNat))
/-- DEBUG_REGISTER_WRITE (R379). -/
def execDebugRegisterWrite (acc : Acc) (n : BitVec 5) (val : DWord) (s : State) : Host.Outcome State Fault Refusal :=
  .next (s.busWrite acc .b64 (Reg.off (.coreDsrd n.toNat 0)) val)
/-- COMMONS_TIME_WRITE (R252). -/
def execCommonsTimeWrite (acc : Acc) (val : DWord) (s : State) : Host.Outcome State Fault Refusal :=
  .next (s.busWrite acc .b64 (Reg.off (.cmnTime 0)) val)
/-- RATE_ADJUST_WRITE (R247). -/
def execRateAdjustWrite (acc : Acc) (val : Word) (s : State) : Host.Outcome State Fault Refusal :=
  .next (s.put acc .cmnRadj val.toNat)
/-- SLEW_WRITE (R248). -/
def execSlewWrite (acc : Acc) (val : Word) (s : State) : Host.Outcome State Fault Refusal :=
  .next (s.put acc .cmnSlew val.toNat)
/-- STEP_REQUEST (R249). -/
def execStepRequest (acc : Acc) (val : Word) (s : State) : Host.Outcome State Fault Refusal :=
  .next (s.put acc .cmnStep val.toNat)
/-- TIMER_ENABLE (R257): a write of TMR_CTL with EN = 1. -/
def execTimerEnable (acc : Acc) (ch : BitVec 5) (ctl : Word) (s : State) : Host.Outcome State Fault Refusal :=
  .next (s.put acc (.tmrCtl ch.toNat) (setBit ctl 31 true).toNat)
/-- TIMER_COMPARE_WRITE (R259). -/
def execTimerCompareWrite (acc : Acc) (ch : BitVec 5) (val : DWord) (s : State) : Host.Outcome State Fault Refusal :=
  .next (s.busWrite acc .b64 (Reg.off (.tmrCmp ch.toNat 0)) val)
/-- TIMER_INTERVAL_WRITE (R259). -/
def execTimerIntervalWrite (acc : Acc) (ch : BitVec 5) (val : DWord) (s : State) : Host.Outcome State Fault Refusal :=
  .next (s.busWrite acc .b64 (Reg.off (.tmrIvl ch.toNat 0)) val)
/-- TIMER_TRIGGER_GO (R262). -/
def execTimerTriggerGo (acc : Acc) (ch : BitVec 5) (s : State) : Host.Outcome State Fault Refusal :=
  .next (s.put acc (.tmrTrig ch.toNat) 1)
/-- PSQ_START (R271). -/
def execPsqStart (acc : Acc) (q : BitVec 6) (s : State) : Host.Outcome State Fault Refusal :=
  .next (s.put acc (.psqCmd q.toNat) 1)
/-- PSQ_STOP (R272). -/
def execPsqStop (acc : Acc) (q : BitVec 6) (s : State) : Host.Outcome State Fault Refusal :=
  .next (s.put acc (.psqCmd q.toNat) 2)
/-- PROGRAM_RAM_WRITE (R273). -/
def execProgramRamWrite (acc : Acc) (q : BitVec 6) (val : Word) (s : State) : Host.Outcome State Fault Refusal :=
  .next (s.put acc (.psqPdata q.toNat) val.toNat)
/-- ACTION_OFFER_HOST (R282). -/
def execActionOfferHost (acc : Acc) (q : BitVec 6) (act : DWord) (s : State) : Host.Outcome State Fault Refusal :=
  .next (s.busWrite acc .b64 (Reg.off (.psqActLo q.toNat)) act)
/-- LOCK_RELEASE_HOST (R203). -/
def execLockReleaseHost (acc : Acc) (u : LockUnit) (lock : BitVec 9) (s : State) : Host.Outcome State Fault Refusal :=
  .next (match u with
    | .cluster c => s.put acc (.clkLkrel c.toNat) lock.toNat
    | .complex => s.put acc .glkLkrel lock.toNat)
/-- EVENT_FLAG_SET_HOST (R205). -/
def execEventFlagSetHost (acc : Acc) (c w : BitVec 3) (mask : Word) (s : State) : Host.Outcome State Fault Refusal :=
  .next (s.put acc (.clkEvset c.toNat w.toNat) mask.toNat)
/-- EVENT_FLAG_CLEAR_HOST (R205). -/
def execEventFlagClearHost (acc : Acc) (c w : BitVec 3) (mask : Word) (s : State) : Host.Outcome State Fault Refusal :=
  .next (s.put acc (.clkEvclr c.toNat w.toNat) mask.toNat)
/-- A channel command to the register of a unit (R212). -/
def State.putChcmd (s : State) (acc : Acc) (u : LockUnit) (cmd ch : Nat) : State :=
  match u with
  | .cluster c => s.put acc (.clkChcmd c.toNat) (256 * cmd + ch)
  | .complex => s.put acc .glkChcmd (256 * cmd + ch)
/-- FORCE_CLOSE (R212). -/
def execForceClose (acc : Acc) (u : LockUnit) (ch : BitVec 7) (s : State) : Host.Outcome State Fault Refusal :=
  .next (s.putChcmd acc u 1 ch.toNat)
/-- DISCARD (R212). -/
def execDiscard (acc : Acc) (u : LockUnit) (ch : BitVec 7) (s : State) : Host.Outcome State Fault Refusal :=
  .next (s.putChcmd acc u 2 ch.toNat)
/-- CHANNEL_RESET (R212). -/
def execChannelReset (acc : Acc) (u : LockUnit) (ch : BitVec 7) (s : State) : Host.Outcome State Fault Refusal :=
  .next (s.putChcmd acc u 3 ch.toNat)
/-- PIN_CONFIG_WRITE (R301). -/
def execPinConfigWrite (acc : Acc) (p : Byte) (val : Word) (s : State) : Host.Outcome State Fault Refusal :=
  .next (s.put acc (.hdgCfg p.toNat) val.toNat)
/-- PIN_SLOT_WRITE (R303). -/
def execPinSlotWrite (acc : Acc) (p : Byte) (hi : Bool) (val : Word) (s : State) : Host.Outcome State Fault Refusal :=
  .next (s.put acc (.hdgSlot p.toNat (b2n hi)) val.toNat)
/-- TDR_START (R310). -/
def execTdrStart (acc : Acc) (p : Byte) (s : State) : Host.Outcome State Fault Refusal :=
  .next (s.put acc .cpxTdrctl (2 ^ 31 + p.toNat))
/-- AN_RESTART (R319): a write of MBU_AN with RESTART = 1. -/
def execAnRestart (acc : Acc) (m : BitVec 4) (anen : Bool) (adv : Half) (s : State) : Host.Outcome State Fault Refusal :=
  .next (s.put acc (.mbuAn m.toNat) (2 ^ 31 * b2n anen + 2 ^ 30 + adv.toNat))
/-- QUEUE_ENABLE (R327): a write of MBU_FQCFG with EN = 1. -/
def execQueueEnable (acc : Acc) (m : BitVec 4) (j : BitVec 6) (cfg : Word) (s : State) : Host.Outcome State Fault Refusal :=
  .next (s.put acc (.mbuFqcfg m.toNat j.toNat) (setBit cfg 31 true).toNat)
/-- QUEUE_STOP (R328): a write of MBU_FQCFG that clears EN and leaves the rest. -/
def execQueueStop (acc : Acc) (m : BitVec 4) (j : BitVec 6) (s : State) : Host.Outcome State Fault Refusal :=
  .next (s.put acc (.mbuFqcfg m.toNat j.toNat) (setBit (s.reg (.mbuFqcfg m.toNat j.toNat)) 31 false).toNat)
/-- MBU_ENABLE (R339): a write of MBU_CTL with EN = 1. -/
def execMbuEnable (acc : Acc) (m : BitVec 4) (ctl : Word) (s : State) : Host.Outcome State Fault Refusal :=
  .next (s.put acc (.mbuCtl m.toNat) (setBit ctl 31 true).toNat)
/-- MBU_TDR_START (R339). -/
def execMbuTdrStart (acc : Acc) (m : BitVec 4) (s : State) : Host.Outcome State Fault Refusal :=
  .next (s.put acc (.mbuTdrctl m.toNat) (2 ^ 31))
/-- ORDER_ARM (R359): a write of SOR_CTL with ARM = 1. -/
def execOrderArm (acc : Acc) (o : BitVec 5) (ctl : Word) (s : State) : Host.Outcome State Fault Refusal :=
  .next (s.put acc (.sorCtl o.toNat) (setBit ctl 31 true).toNat)
/-- ORDER_DISARM (R359): a write of SOR_CTL that clears ARM and leaves the rest. -/
def execOrderDisarm (acc : Acc) (o : BitVec 5) (s : State) : Host.Outcome State Fault Refusal :=
  .next (s.put acc (.sorCtl o.toNat) (setBit (s.reg (.sorCtl o.toNat)) 31 false).toNat)
/-- FAULT_LOG_POP (R356). -/
def execFaultLogPop (acc : Acc) (seq : Half) (s : State) : Host.Outcome State Fault Refusal :=
  .next (s.put acc .fltPop seq.toNat)

/-! ### HOLD requests (R19, R362, R377) -/

/-- MODE_REQ_HOLD (R19): a CPX_CTL request for HOLD. -/
def execModeReqHold (acc : Acc) (s : State) : Host.Outcome State Fault Refusal := .next (s.put acc .cpxCtl 5)

/-! ### Port accesses of threads and bus accesses of the same objects (R294, R295) -/

/-- A port of a sequencer is reached by the threads of its own cluster (R105), where units run. -/
def State.portReach (s : State) (g q : Nat) : Bool := s.active && clusterOf g == psqCl q

/-- A write of a sequencer port by a thread, refused in the manner of R108 (R294). -/
def State.portPut (s : State) (g q port : Nat) (v : DWord) : State :=
  match s.portWrite q port v with
  | (s, true) => s
  | (s, false) => s.report 0x60 0 g (s.thr g).pc 0x102

/-- SHIFT_REGISTER_WRITE (R285). -/
def execShiftRegisterWrite (g : Tid) (q : BitVec 6) (k : BitVec 1) (val : DWord) (s : State) :
    Host.Outcome State Fault Refusal :=
  .next (if s.portReach g.toNat q.toNat then s.portPut g.toNat q.toNat (4 + k.toNat) val else s)
/-- SHIFT_REGISTER_READ (R285). -/
def execShiftRegisterRead (g : Tid) (q : BitVec 6) (k : BitVec 1) (s : State) : Host.Outcome State Fault Refusal :=
  .next (if s.portReach g.toNat q.toNat then (s.readSh q.toNat k.toNat).1 else s)
/-- VALUE_SET_PORT (R290). -/
def execValueSetPort (g : Tid) (q : BitVec 6) (val : Word) (s : State) : Host.Outcome State Fault Refusal :=
  .next (if s.portReach g.toNat q.toNat then s.portPut g.toNat q.toNat 7 (val.setWidth 64) else s)
/-- TRIGGER_BITS_SET (R295). -/
def execTriggerBitsSet (src : PortSrc) (q : BitVec 6) (mask : Byte) (s : State) : Host.Outcome State Fault Refusal :=
  match src with
  | .thread g => .next (if s.portReach g.toNat q.toNat then s.portPut g.toNat q.toNat 3 (mask.setWidth 64) else s)
  | .bus acc => .next (s.put acc (.psqTrig q.toNat) mask.toNat)
/-- CAPTURE_FIFO_READ (R292): both words of one entry, by a port or a 64-bit read of PSQ_CAP_LO. -/
def execCaptureFifoRead (src : PortSrc) (q : BitVec 6) (l : BitVec 3) (s : State) : Host.Outcome State Fault Refusal :=
  match src with
  | .thread g => .next (if s.portReach g.toNat q.toNat then (s.popCap q.toNat l.toNat).1 else s)
  | .bus acc => .next (s.busRead acc .b64 (Reg.off (.psqCap q.toNat l.toNat 0)))

end Sys2Proof.Machine
end

