-- ==== Sys2Proof/Machine/Aperture.lean ====
section
/-! DEFINITION. The memory aperture (R28, R29, R371, R382, Table 15) and the servo mailbox (R254, R255). -/
namespace Sys2Proof.Machine

/-! ### The memory aperture -/

/-- Table 15 lets the region at an offset be accessed; secure RAM only a secure access, and none while a wipe runs (R198). -/
def State.regionOpen (s : State) (acc : Acc) (o : Nat) (write : Bool) : Bool :=
  let cfg := s.mode == .configure
  if o < 0x200000 then !write || cfg
  else if o < 0x500000 then true
  else if o < 0x580000 then !write && cfg
  else if o < 0x590000 then acc.secure && !s.rb .cpxSwipe 30
  else if o < 0x600000 then false
  else if o < 0xA00000 then true
  else if o < 0xC00000 then !write || cfg
  else if o < 0xE00000 then cfg
  else false

/-- An enabled window holds the access, and permits it if it is a write (R29). -/
def State.inAwin (s : State) (o n : Nat) (write : Bool) : Bool :=
  (upto 4).any fun w =>
    let v := s.reg (.cpxAwin w)
    let base := 0x1000 * fld v 11 0
    bit v 31 && (!write || bit v 30) && decide (base ≤ o) && decide (o + n ≤ base + 0x1000 * 2 ^ fld v 15 12)

/-- An access of `n` bytes is allowed (R29, R371, R382). -/
def State.apertureOk (s : State) (acc : Acc) (o n : Nat) (write : Bool) : Bool :=
  s.mode != .retain && o % n == 0 && s.regionOpen acc o write &&
  (s.mode == .configure || acc.path == .camin || s.inAwin o n write)

/-- The bytes of an access. -/
def sizeLen : Size → Nat
  | .b8 => 1
  | .b16 => 2
  | .b32 => 4
  | .b64 => 8

/-- The store key of an aperture offset: the live copy, and above it the other copy, of a process-image line. -/
def State.apertureKey (s : State) (o : Nat) : Nat :=
  if 0xA00000 ≤ o ∧ o < 0xC00000 then s.liveKey (o - 0xA00000)
  else if 0xC00000 ≤ o ∧ o < 0xE00000 then piKey (!s.live ((o - 0xC00000) / 64)) (o - 0xC00000)
  else o

/-- SPACE for a refused aperture access (R382). -/
def State.apertureRefuse (s : State) (acc : Acc) (o : Nat) : State :=
  s.report 0x04 (pathSkind acc.path) (s.pathSidx acc.path) (BitVec.ofNat 32 o) 1

/-- A host read that meets an uncorrectable error reports it and returns 0 (R191). -/
def State.apertureBad (s : State) (g : Nat) : State := s.report 0x41 8 ((regionOf g).elim 7 Prod.fst) (ueWord g) 3

/-- An aperture read: the data reach the path's read port. -/
def State.apertureRead (s : State) (acc : Acc) (n o : Nat) : State :=
  if s.apertureOk acc o n false then
    let k := s.apertureKey o
    match s.touchRead k n 3 with
    | (s, some g) => (s.apertureBad g).setRead acc.path 0
    | (s, none) => s.setRead acc.path (BitVec.ofNat 64 (ofBytes (s.bytesAt k n)))
  else (s.apertureRefuse acc o).setRead acc.path 0

/-- An aperture write. -/
def State.apertureWrite (s : State) (acc : Acc) (n o : Nat) (v : DWord) : State :=
  if s.apertureOk acc o n true then s.memWrite (s.apertureKey o) (toBytes n v.toNat) else s.apertureRefuse acc o

/-- A path that reaches the aperture, in a mode that answers (R25, R254). -/
def State.apertureOpen (s : State) (acc : Acc) : Bool := s.mode != .off && acc.path != .mailbox

/-- APERTURE_READ (R28). -/
def execApertureRead (acc : Acc) (size : Size) (off : BitVec 24) (s : State) : Host.Outcome State Fault Refusal :=
  .next (if s.apertureOpen acc then s.apertureRead acc (sizeLen size) off.toNat else s)
/-- APERTURE_WRITE (R29). -/
def execApertureWrite (acc : Acc) (size : Size) (off : BitVec 24) (val : DWord) (s : State) :
    Host.Outcome State Fault Refusal :=
  .next (if s.apertureOpen acc then s.apertureWrite acc (sizeLen size) off.toNat val else s)

/-! ### The servo mailbox -/

/-- The access of the mailbox. -/
def mailboxAcc : Acc := ⟨.mailbox, false⟩

/-- Word 0 of the mailbox is invalid (R255). -/
def mailboxBad (w : Word) : Bool := fld w 29 12 != 0 || fld w 1 0 != 0 || (bit w 30 && bit w 2)

/-- Data words that a mailbox read returns. -/
def State.mailboxRead (s : State) (w : Word) (k : Nat) : State :=
  let o := 0x2000 + fld w 11 0
  let (s, lo) := s.read32 mailboxAcc o
  if bit w 30 then
    let (s, hi) := s.read32 mailboxAcc (o + 4)
    (s.setWord (k + 8) lo).setWord (k + 12) hi
  else s.setWord (k + 8) lo

/-- The access that the mailbox words at key `k` ask for: the state, and CODE. -/
def State.mailboxAccess (s : State) (k : Nat) : State × Nat :=
  let w := s.word k
  let o := 0x2000 + fld w 11 0
  if mailboxBad w then s.refuse mailboxAcc 0x60 o
  else if bit w 31 then
    (if bit w 30 then s.write64 mailboxAcc o (mk64 (s.word (k + 12)) (s.word (k + 8))) else s.write32 mailboxAcc o (s.word (k + 8)) o)
  else (s.mailboxRead w k, 0)

/-- A mailbox command (R255): SFLAG is cleared, the words read, the access made, the result and its time written, DFLAG set.
The AGENT codes of CPX_UEREC and the sources of ECC_UE name no reader of this kind, so an uncorrectable word is taken as it
stands (DEDUCED). -/
def State.mailbox (s : State) : State :=
  let c := s.rf .cmnSrv 26 24
  let d := s.rf .cmnSrv 15 8
  let k := sharedKey c 0x7FE00
  let t := s.now
  let s := (s.clrFlag c (s.rf .cmnSrv 7 0)).passRead k 16
  let (s, code) := s.mailboxAccess k
  let s := (s.setWord (k + 16) (lo32 t)).setWord (k + 20) (hi32 t)
  (s.setWord (k + 4) (BitVec.ofNat 32 (2 ^ 31 + code))).setFlag c d

/-- SERVO_MAILBOX_COMMAND (R255). -/
def execServoMailboxCommand (s : State) : Host.Outcome State Fault Refusal :=
  if s.rb .cmnSrv 31 ∧ s.mode ≠ .off ∧ s.mode ≠ .retain ∧ s.flagNow (s.rf .cmnSrv 26 24) (s.rf .cmnSrv 7 0) then .next s.mailbox
  else .next s

end Sys2Proof.Machine
end

