-- ==== Sys2Proof/Machine/OpTable.lean ====
section
/-! DEFINITION. The opcode tables of the instruction reference (Tables 33 to 37, 39, 40, 42 to 45): for each defined opcode
the permitted N, SZ, S and use of XF (R84, R85, R112), the role and width of each operand (R113, R114), its base latency. -/
namespace Sys2Proof.Machine

/-- The uses of XF (Table 24, R118, R124, R126, R127, R131, R136, R138, R140, R144 to R146). -/
inductive XfUse where
  | zero | imm | bit | mask | width | field | cond | level | levelCount | shift | cvt | icvt | rmode | thread | lock | wait
  | flag | chan | ctx | act | pin
deriving DecidableEq, Repr

/-- The width of an operand: SZ, a fixed size code, one bit, the size that XF names (R118), the other FP format, the source
format of FCVTI (cvt) and the integer source size of ICVTF (icvt). -/
inductive Wid where
  | sz | code (c : Nat) | one | byXf | other | cvt | icvt
deriving DecidableEq, Repr

/-- How an immediate of the operand is read (R100). -/
inductive Kind where
  | int | fp | code
deriving DecidableEq, Repr

/-- The role of an operand: source, destination, destination that is also read, the address that LEA forms, a branch target
of every mode, one that is not mode 10 (RET), one that must be mode 10 (R125). -/
inductive Use where
  | src | dst | rmw | addr | target | targetAbs | targetRel
deriving DecidableEq, Repr

/-- An operand of an instruction. -/
structure Opd where
  use : Use
  wid : Wid
  kind : Kind
deriving DecidableEq, Repr

/-- Base latency: fixed, by format, local or global by G, and the data-dependent ones (R134, R154). -/
inductive Lat where
  | fix (n : Nat)
  | fp (n32 n64 : Nat)
  | glob
  | div
  | fdiv
  | fsqrt
deriving DecidableEq, Repr

/-- A row of an opcode table; N is the number of operands. -/
structure OpRow where
  op : Nat
  szs : List Nat
  ss : List Nat
  xf : XfUse
  opds : List Opd
  lat : Lat
deriving DecidableEq, Repr

/-- A source of width SZ. -/
def src : Opd := ⟨.src, .sz, .int⟩
/-- A destination of width SZ. -/
def dst : Opd := ⟨.dst, .sz, .int⟩
/-- A destination of width SZ that the instruction also reads. -/
def rmw : Opd := ⟨.rmw, .sz, .int⟩
/-- Single-bit operands (R123). -/
def srcBit : Opd := ⟨.src, .one, .int⟩
def dstBit : Opd := ⟨.dst, .one, .int⟩
/-- A source in an FP format. -/
def srcFp : Opd := ⟨.src, .sz, .fp⟩
/-- Branch targets (R125). -/
def target : Opd := ⟨.target, .code 2, .code⟩
def targetRel : Opd := ⟨.targetRel, .code 2, .code⟩

/-- SZ entries of the tables. -/
def szAny : List Nat := [0, 1, 2, 3]
def szNone : List Nat := [0]
def sz1632 : List Nat := [0, 1, 2]
def szFp : List Nat := [2, 3]
def sz16up : List Nat := [1, 2, 3]
def s01 : List Nat := [0, 1]

/-- A row with Lb 1. -/
def row1 (op : Nat) (szs ss : List Nat) (xf : XfUse) (opds : List Opd) : OpRow := ⟨op, szs, ss, xf, opds, .fix 1⟩

/-- Table 33. -/
def rowsMove : List OpRow := [
  row1 0x001 szAny s01 .zero [dst, src], row1 0x002 szAny s01 .imm [dst], row1 0x003 szAny [0] .zero [rmw, rmw],
  row1 0x004 szAny s01 .zero [dst], row1 0x005 szNone [0] .zero [], row1 0x006 szNone [0] .mask [],
  row1 0x007 szNone [0] .mask [], row1 0x008 sz16up s01 .width [dst, ⟨.src, .byXf, .int⟩],
  row1 0x009 sz16up s01 .width [dst, ⟨.src, .byXf, .int⟩], row1 0x00A sz16up s01 .zero [dst, src],
  row1 0x00B [2] [0] .zero [dst, ⟨.addr, .sz, .int⟩], row1 0x010 sz16up s01 .width [⟨.dst, .byXf, .int⟩, src],
  row1 0x011 sz16up s01 .width [⟨.dst, .byXf, .int⟩, src]]

/-- Table 34. -/
def rowsInt : List OpRow :=
  [0x040, 0x041, 0x042, 0x043, 0x044, 0x045, 0x046, 0x047, 0x054, 0x055, 0x056, 0x057].map
    (fun op => row1 op szAny s01 .zero [dst, src, src]) ++
  [row1 0x048 szAny s01 .zero [dst, src], row1 0x049 szAny s01 .zero [dst, src], row1 0x04A szAny s01 .imm [dst, src],
   row1 0x050 szAny [1] .zero [src, src], row1 0x051 szAny [1] .zero [src, src], row1 0x052 szAny [1] .imm [src]]

/-- Table 35. -/
def rowsLogic : List OpRow :=
  [0x080, 0x081, 0x082, 0x083, 0x084, 0x085, 0x090, 0x091, 0x092, 0x093, 0x094].map
    (fun op => row1 op szAny s01 .zero [dst, src, src]) ++
  [row1 0x086 szAny s01 .zero [dst, src], row1 0x087 szAny [1] .zero [src, src]] ++
  [0x088, 0x089, 0x08A].map (fun op => row1 op szAny s01 .imm [dst, src]) ++
  [row1 0x08B szAny [1] .imm [src]] ++
  [0x098, 0x099, 0x09A, 0x09B, 0x09C].map (fun op => row1 op szAny s01 .bit [dst, src]) ++
  [0x0A0, 0x0A1, 0x0A2, 0x0A3].map (fun op => row1 op szAny s01 .zero [dst, src])

/-- Table 36. -/
def rowsBit : List OpRow :=
  [0x0C0, 0x0C1, 0x0C2].map (fun op => row1 op szAny s01 .bit [rmw]) ++ [row1 0x0C3 szAny [1] .bit [src]] ++
  [0x0C4, 0x0C5, 0x0C6].map (fun op => row1 op szAny s01 .zero [rmw, src]) ++ [row1 0x0C7 szAny [1] .zero [src, src]] ++
  [0x0D0, 0x0D1].map (fun op => row1 op szNone s01 .zero [dstBit, srcBit]) ++
  [0x0D2, 0x0D3, 0x0D4, 0x0D5].map (fun op => row1 op szNone s01 .zero [dstBit, srcBit, srcBit]) ++
  [row1 0x0D6 szNone [1] .zero [srcBit], row1 0x0D7 szNone [0] .zero [dstBit],
   row1 0x0E0 szAny s01 .field [dst, src], row1 0x0E1 szAny s01 .field [dst, src], row1 0x0E2 szAny s01 .field [rmw, src],
   row1 0x0E3 szAny s01 .field [rmw]]

/-- Table 37. -/
def rowsBranch : List OpRow := [
  row1 0x100 szNone [0] .imm [], row1 0x101 [2] [0] .zero [target], row1 0x102 [2] [0] .zero [dst, target],
  row1 0x103 [2] [0] .zero [⟨.targetAbs, .code 2, .code⟩], ⟨0x104, szNone, [0], .zero, [], .fix 2⟩,
  row1 0x108 szAny s01 .cond [src, src, targetRel], row1 0x109 szAny s01 .zero [rmw, targetRel],
  row1 0x10A szAny s01 .bit [src, targetRel], row1 0x10B szAny s01 .bit [src, targetRel],
  row1 0x120 sz1632 [0] .level [src, targetRel], row1 0x121 szNone [0] .levelCount [targetRel],
  row1 0x122 szNone [0] .level []]

/-- Table 39. -/
def rowsMul : List OpRow :=
  [0x140, 0x141, 0x148, 0x149, 0x14A, 0x14B].map (fun op => row1 op sz1632 s01 .zero [src, src]) ++
  [0x142, 0x143, 0x144].map (fun op => row1 op [3] s01 .zero [src, src]) ++
  [row1 0x145 szAny s01 .zero [dst, src, src], row1 0x14C szNone [0] .zero [], row1 0x14D szAny s01 .shift [dst],
   ⟨0x150, szAny, s01, .zero, [src, src], .div⟩, ⟨0x151, szAny, s01, .zero, [src, src], .div⟩]

/-- Table 40. -/
def rowsFp : List OpRow := [
  ⟨0x160, szFp, [0], .zero, [dst, srcFp, srcFp], .fix 3⟩, ⟨0x161, szFp, [0], .zero, [dst, srcFp, srcFp], .fix 3⟩,
  ⟨0x162, szFp, [0], .zero, [dst, srcFp, srcFp], .fix 3⟩, ⟨0x163, szFp, [0], .zero, [dst, srcFp, srcFp], .fdiv⟩,
  ⟨0x164, szFp, [0], .zero, [dst, srcFp], .fsqrt⟩, ⟨0x165, szFp, [0], .zero, [rmw, srcFp, srcFp], .fix 4⟩,
  ⟨0x166, szFp, [0], .zero, [rmw, srcFp, srcFp], .fix 4⟩, ⟨0x168, szFp, [0], .zero, [dst, srcFp, srcFp], .fix 2⟩,
  ⟨0x169, szFp, [0], .zero, [dst, srcFp, srcFp], .fix 2⟩, row1 0x16A szFp [0] .zero [dst, srcFp],
  row1 0x16B szFp [0] .zero [dst, srcFp], row1 0x16C szFp [0] .zero [dst, srcFp, srcFp],
  ⟨0x170, szFp, [1], .zero, [srcFp, srcFp], .fix 2⟩, ⟨0x171, szFp, [1], .zero, [srcFp, srcFp], .fix 2⟩,
  row1 0x172 szFp [0] .zero [dst, srcFp], ⟨0x178, szFp, [0], .zero, [dst, ⟨.src, .other, .fp⟩], .fix 3⟩,
  ⟨0x179, szAny, [0], .cvt, [dst, ⟨.src, .cvt, .fp⟩], .fix 3⟩, ⟨0x17A, szAny, [0], .cvt, [dst, ⟨.src, .cvt, .fp⟩], .fix 3⟩,
  ⟨0x17B, szFp, [0], .icvt, [dst, ⟨.src, .icvt, .int⟩], .fix 3⟩, ⟨0x17C, szFp, [0], .rmode, [dst, srcFp], .fix 3⟩]

/-- Table 42. -/
def rowsTime : List OpRow := [
  row1 0x1A0 [3] [0] .zero [src], row1 0x1A1 szNone [0] .zero [], row1 0x1A4 szNone s01 .thread [],
  row1 0x1A5 szNone [0] .zero [], row1 0x1A8 szAny [1] .zero [src, src]]

/-- Table 43. -/
def rowsLock : List OpRow := [
  ⟨0x1C0, szNone, s01, .lock, [], .glob⟩, ⟨0x1C1, szNone, s01, .lock, [], .glob⟩, ⟨0x1C2, szNone, [0], .wait, [], .glob⟩,
  ⟨0x1C4, szNone, [0], .flag, [], .fix 2⟩, ⟨0x1C5, szNone, [0], .flag, [], .fix 2⟩, ⟨0x1C6, szNone, [1], .flag, [], .fix 2⟩,
  ⟨0x1C8, [2], s01, .chan, [src], .glob⟩, ⟨0x1C9, szNone, s01, .chan, [], .glob⟩, ⟨0x1CA, [2], s01, .chan, [dst], .glob⟩,
  ⟨0x1CB, szNone, s01, .chan, [], .glob⟩, ⟨0x1CC, [2], [0], .chan, [dst], .glob⟩]

/-- Tables 44 and 45. -/
def rowsSys : List OpRow := [
  row1 0x1E0 szNone [0] .zero [], row1 0x1E1 szNone [0] .zero [], row1 0x1E2 szNone [0] .zero [],
  ⟨0x1E3, szNone, [0], .zero, [], .fix 12⟩, ⟨0x1E8, szNone, [0], .zero, [], .fix 4⟩, ⟨0x1EA, szNone, [0], .zero, [], .fix 2⟩,
  row1 0x1EC [0] [0] .zero [src, src], ⟨0x1F0, szNone, s01, .ctx, [], .fix 4⟩, ⟨0x1F1, szNone, s01, .ctx, [], .fix 4⟩,
  ⟨0x1F2, szNone, s01, .ctx, [], .fix 4⟩, ⟨0x1F3, [2], [0], .ctx, [dst], .fix 4⟩, ⟨0x1F8, [3], s01, .act, [src], .fix 2⟩,
  row1 0x1FA szNone [0] .pin [], row1 0x1FB szNone [0] .pin [], row1 0x1FC szNone [0] .pin []]

/-- Every defined opcode. -/
def opRows : List OpRow :=
  rowsMove ++ rowsInt ++ rowsLogic ++ rowsBit ++ rowsBranch ++ rowsMul ++ rowsFp ++ rowsTime ++ rowsLock ++ rowsSys

/-- The row of an opcode; none for an undefined one (R86). -/
def rowOf (op : Nat) : Option OpRow := opRows.find? fun r => r.op == op

/-- Bits of SZ. -/
def szBits (sz : Nat) : Nat := 8 <<< sz

/-- XF is permitted for the use and size (R84, R85). -/
def xfOk (u : XfUse) (sz xf : Nat) : Bool :=
  let f := natFld xf
  match u with
  | .zero => xf == 0
  | .imm => true
  | .bit => f 13 6 == 0 && decide (xf < szBits sz)
  | .mask => f 13 9 == 0 && f 7 5 == 0
  | .width => f 13 2 == 0 && decide (xf < sz)
  | .field => f 13 12 == 0 && decide (f 5 0 + f 11 6 + 1 ≤ szBits sz)
  | .cond => decide (xf < 16)
  | .level => decide (xf < 4)
  | .levelCount => true
  | .shift => f 13 8 == 0 && decide (f 6 0 < 80)
  | .cvt => decide (xf < 4)
  | .icvt => decide (xf < 8)
  | .rmode => decide (xf < 5)
  | .thread => decide (xf < 16)
  | .lock => f 13 10 == 0 && (f 9 9 == 1 || decide (f 8 0 < 256))
  | .wait =>
    f 13 12 == 0 &&
    (if f 11 10 = 0 then f 9 9 == 1 || decide (f 8 0 < 256)
     else if f 11 10 = 1 then f 9 9 == 0 && decide (f 8 0 < 256)
     else if f 9 9 = 1 then decide (f 8 0 < 128) else decide (f 8 0 < 32))
  | .flag => decide (xf < 256)
  | .chan => f 13 10 == 0 && f 8 7 == 0 && (f 9 9 == 1 || decide (f 6 0 < 32))
  | .ctx => decide (xf < 256)
  | .act => f 13 12 == 0 && (f 3 3 == 1 || f 11 4 == 0)
  | .pin => decide (xf < 256)

/-! ### Head words (R83) -/

/-- The fields of a head word (Table 23). -/
structure Head where
  cond : Nat
  op : Nat
  sz : Nat
  s : Nat
  n : Nat
  xf : Nat
deriving DecidableEq, Repr

/-- A head word taken apart. -/
def Head.of (w : Word) : Head := ⟨fld w 31 28, fld w 27 19, fld w 18 17, fld w 16 16, fld w 15 14, fld w 13 0⟩

/-- The row of a head word that passes the checks of R84; none where it faults with ILLOP. -/
def Head.row (h : Head) : Option OpRow :=
  match rowOf h.op with
  | none => none
  | some r => if h.n = r.opds.length ∧ h.sz ∈ r.szs ∧ h.s ∈ r.ss ∧ xfOk r.xf h.sz h.xf then some r else none

/-- The size code of an operand (R113); 4 stands for one bit. -/
def Head.widCode (h : Head) : Wid → Nat
  | .sz => h.sz
  | .code c => c
  | .one => 4
  | .byXf => h.xf % 4
  | .other => 5 - h.sz
  | .cvt => 2 + h.xf % 2
  | .icvt => h.xf % 4

/-- The width in bits of an operand. -/
def Head.bits (h : Head) (w : Wid) : Nat := if h.widCode w = 4 then 1 else szBits (h.widCode w)

/-- XF as a short immediate (Table 24). -/
def Head.imm (h : Head) : Int := signed 14 h.xf

end Sys2Proof.Machine
end

