-- ==== Sys2Proof/Machine/Flags.lean ====
section
/-! DEFINITION. Flags and conditions (R87 to R89): the conditions of Table 26 and every flag computation. -/
namespace Sys2Proof.Machine

/-- The five result flags. -/
structure Flags where
  b : Bool
  n : Bool
  z : Bool
  v : Bool
  c : Bool
deriving DecidableEq, Repr

/-- The result flags of FLG (R87). -/
def Flags.of (w : Word) : Flags := ⟨bit w 4, bit w 3, bit w 2, bit w 1, bit w 0⟩
/-- FLG with its result flags replaced. -/
def Flags.into (f : Flags) (w : Word) : Word :=
  setFld w 4 0 (16 * b2n f.b + 8 * b2n f.n + 4 * b2n f.z + 2 * b2n f.v + b2n f.c)

/-- The conditions of Table 26. -/
def Flags.holds (f : Flags) (cond : Nat) : Bool :=
  if cond = 0 then true
  else if cond = 1 then f.z
  else if cond = 2 then f.c
  else if cond = 3 then f.n
  else if cond = 4 then f.v
  else if cond = 5 then f.c && !f.z
  else if cond = 6 then f.n != f.v
  else if cond = 7 then f.b
  else if cond = 8 then !f.z && f.n == f.v
  else if cond = 9 then !f.z
  else if cond = 10 then !f.c
  else if cond = 11 then !f.n
  else if cond = 12 then !f.v
  else if cond = 13 then !f.c || f.z
  else if cond = 14 then f.n == f.v
  else !f.b

/-- N and Z of a result of `w` bits (R88). -/
def Flags.nz (f : Flags) (w r : Nat) : Flags := { f with n := r.testBit (w - 1), z := r % 2 ^ w == 0 }

/-- An integer fits the signed range of `w` bits. -/
def fitsS (w : Nat) (i : Int) : Bool := decide (-(2 ^ (w - 1) : Nat) ≤ i) && decide (i < (2 ^ (w - 1) : Nat))
/-- An integer fits the unsigned range of `w` bits. -/
def fitsU (w : Nat) (i : Int) : Bool := decide (0 ≤ i) && decide (i < (2 ^ w : Nat))
/-- The nearer limit of the signed range of `w` bits. -/
def clampS (w : Nat) (i : Int) : Int := max (-(2 ^ (w - 1) : Nat)) (min i ((2 ^ (w - 1) : Nat) - 1))
/-- The nearer limit of the unsigned range of `w` bits. -/
def clampU (w : Nat) (i : Int) : Int := max 0 (min i ((2 ^ w : Nat) - 1))

/-- A result and its flags. -/
structure Res where
  val : Nat
  fl : Flags
deriving DecidableEq, Repr

/-- a + b + carry at `w` bits: N, Z, the carry out, signed overflow (R88). -/
def addRes (w : Nat) (f : Flags) (a b cin : Nat) : Res :=
  let r := (a + b + cin) % 2 ^ w
  ⟨r, { f.nz w r with c := decide (2 ^ w ≤ a + b + cin), v := !fitsS w (signed w a + signed w b + cin) }⟩

/-- a − b − borrow at `w` bits: C is 1 when no borrow occurs (R88). -/
def subRes (w : Nat) (f : Flags) (a b bin : Nat) : Res :=
  let r := wrap w (a - b - bin)
  ⟨r, { f.nz w r with c := decide (b + bin ≤ a), v := !fitsS w (signed w a - signed w b - bin) }⟩

/-- An exact result clamped to the signed range: V is 1 exactly when it was clamped, C stays (R121). -/
def satS (w : Nat) (f : Flags) (i : Int) : Res :=
  let r := wrap w (clampS w i)
  ⟨r, { f.nz w r with v := !fitsS w i }⟩
/-- An exact result clamped to the unsigned range (R121). -/
def satU (w : Nat) (f : Flags) (i : Int) : Res :=
  let r := wrap w (clampU w i)
  ⟨r, { f.nz w r with v := !fitsU w i }⟩

/-- A result that sets N and Z alone. -/
def nzRes (w : Nat) (f : Flags) (r : Nat) : Res := ⟨r % 2 ^ w, f.nz w r⟩

/-- TCMP (R139): N and Z of the difference modulo 2^w, C and V 0. -/
def tcmpFlags (w : Nat) (f : Flags) (a b : Nat) : Flags :=
  { f.nz w (wrap w (a - b)) with c := false, v := false }

end Sys2Proof.Machine
end

