-- ==== Sys2Proof/Machine/Operands.lean ====
section
/-! DEFINITION. Operands of thread instructions (04): the static checks of operand words (row 5 of Table 30), the places that
the addressing modes of Table 27 name, the faults of row 6, reads and writes of operands, and the store buffer (R176, R177). -/
namespace Sys2Proof.Machine

/-! ### What an instruction meets -/

/-- Why an instruction does not take effect: a thread fault with its DB word (Table 112) and the state that the detection
leaves, or a store-buffer stall, in which the thread is not due (R56, R177). -/
inductive Stop where
  | fault (code : Nat) (db : Word) (s : State)
  | stall
deriving DecidableEq, Repr

/-- The place that an operand names. -/
inductive Place where
  | near (o : Nat)
  | shared (a : Nat)
  | pi (a : Nat)
  | bits (pg : Bool) (a : Nat)
  | pin (sub p : Nat)
  | port (q n : Nat)
  | special (n : Nat)
  | time (sel dsel : Nat)
  | imm (v : Nat)
deriving DecidableEq, Repr

/-- What the evaluation of operands has gathered: the pointer and cell updates so far, one list of near cells each, the
unaligned accesses (R66), and the keys read. -/
structure Wk where
  upd : List (List (Nat × Byte))
  unal : Nat
  reads : List Nat
deriving DecidableEq, Repr

def Wk.start : Wk := ⟨[], 0, []⟩

/-! ### Operand words (R91 to R93, R102, R105, R107, R109) -/

/-- MODE of an operand word. -/
def opMode (w : Word) : Nat := fld w 31 27
/-- The operand is written. -/
def Use.writes : Use → Bool
  | .dst => true
  | .rmw => true
  | _ => false
/-- The operand's value is read. -/
def Use.reads : Use → Bool
  | .dst => false
  | .addr => false
  | .targetRel => false
  | _ => true

/-- A payload that the mode's layout permits, with the values it reserves (Table 27), for an operand of `bits` bits. -/
def payloadOk (w : Word) (bits : Nat) : Bool :=
  let f := fld w
  let m := opMode w
  let ptr := f 1 0 == 0
  let upd := f 17 16 != 3
  if m = 0 then f 26 16 == 0
  else if m ≤ 3 then f 26 16 == 0 && ptr
  else if m = 4 then ptr
  else if m = 5 then f 26 18 == 0 && upd && f 2 0 == 0
  else if m = 6 then f 26 19 == 0
  else if m = 7 then f 26 18 == 0 && upd && ptr
  else if m = 8 then f 26 15 == 0
  else if m = 9 then ptr
  else if m = 10 then true
  else if m = 11 then (if f 26 26 = 0 then f 25 14 == 0 else f 25 20 == 0)
  else if m = 12 then f 26 18 == 0 && upd && ptr
  else if m = 13 then
    if f 26 24 ≤ 1 then f 23 8 == 0
    else if f 26 24 = 2 then f 23 7 == 0 && 8 * portBytes (f 3 0) == bits
    else false
  else if m = 14 then f 26 8 == 0 && (match spWidth (f 7 0) with | some n => decide (bits ≤ n) | none => false)
  else if m = 15 then
    f 26 4 == 0 && (if f 1 0 ≤ 1 then f 3 2 == 0 else true) &&
    decide (bits ≤ (if f 1 0 = 0 ∨ f 1 0 = 2 then 64 else if f 1 0 = 1 then 16 else 32))
  else false

/-- The mode is permitted for the operand's role (R92, R114, R120, R123, R125). -/
def roleOk (h : Head) (o : Opd) (w : Word) : Bool :=
  let m := opMode w
  let f := fld w
  let dstOk := m != 10 && m != 15 && !(m == 13 && f 26 24 == 1) && !(m == 13 && f 26 24 == 2 && portRo (f 3 0)) &&
    !(m == 14 && f 7 0 == 0) && !(m == 14 && f 7 0 == 1 && h.s == 1)
  let bitOk := m == 11 || m == 12 || m == 10 || (m == 13 && decide (f 26 24 ≤ 1))
  (!o.use.writes || dstOk) && (o.wid != .one || bitOk) &&
  (match o.use with
   | .addr => m != 10 && m != 13 && m != 14 && m != 15
   | .targetAbs => m != 10
   | .targetRel => m == 10 && ((h.op != 0x120 && h.op != 0x121) || decide ((1 + h.n : Nat) < signed 27 (f 26 0)))
   | _ => true)

/-- Some operand word faults with ILLMODE. -/
def opsBad (h : Head) : List Opd → List Word → Bool
  | o :: os, w :: ws => !(payloadOk w (h.bits o.wid) && roleOk h o w) || opsBad h os ws
  | _, _ => false

/-! ### Classes (Table 21) -/

/-- What the class of an operand adds to Lb (Table 31). -/
def classAdd (o : Opd) (w : Word) : Nat :=
  if o.use = .addr then 0
  else
    let m := opMode w
    if m = 6 ∨ m = 7 then 3 else if m = 8 ∨ m = 9 then 11 else 0

/-- What the operand class of an instruction adds. -/
def classAdds (os : List Opd) (ws : List Word) : Nat := (List.zipWith classAdd os ws).foldl max 0

/-! ### Windows and keys -/

/-- The window in force: its start in near RAM and its size (R94). -/
def State.winBase (s : State) (g : Nat) : Nat := 256 * fld (s.winNow g) 15 8
def State.winSize (s : State) (g : Nat) : Nat := 256 * (fld (s.winNow g) 23 16 + 1)

/-- The key of a near offset of a thread. -/
def State.nearOf (s : State) (g o : Nat) : Nat := nearKey (coreOf g) ((s.winBase g + o) % 0x10000)
/-- The core and the bit of its bit RAM that a bit address names (R101). -/
def bitOf (g : Nat) (pg : Bool) (a : Nat) : Nat × Nat :=
  if pg then (4 * clusterOf g + a / 0x40000, a % 0x40000) else (coreOf g, 0x4000 * locOf g + a)

/-- The keys of the bytes that an operand of `bits` bits covers; none outside the memories. -/
def State.keysOf (s : State) (g bits : Nat) : Place → List Nat
  | .near o => (upto (bits / 8)).map fun i => s.nearOf g (o + i)
  | .shared a => (upto (bits / 8)).map fun i => sharedKey (clusterOf g) (a + i)
  | .pi a => (upto (bits / 8)).map fun i => s.piReadKey (s.thr g) (a + i)
  | .bits pg a => let b := bitOf g pg a; (upto ((bits + 7) / 8)).map fun i => bitKey b.1 (b.2 / 8 + i)
  | _ => []

/-- Runs of consecutive keys. -/
def keyRuns (ks : List Nat) : List (Nat × Nat) := (runs (ks.map fun k => (k, 0))).map fun r => (r.1, r.2.length)

/-- The first uncorrectable granule among some keys. -/
def State.badRead (s : State) (ks : List Nat) : Option Nat := (keyRuns ks).findSome? fun r => s.badGran r.1 r.2
/-- The first uncorrectable granule that a write of some keys must merge into (R191). -/
def State.badWrite (s : State) (ks : List Nat) : Option Nat := (keyRuns ks).findSome? fun r => s.badMerge r.1 r.2
/-- The reads of an instruction take their effect on marks and on the Gleaner (R190, R195). -/
def State.touchAll (s : State) (ks : List Nat) (agent : Nat) : State :=
  (keyRuns ks).foldl (fun s r => (s.touchRead r.1 r.2 agent).1) s

/-- ECC_UE of a data access (R191): CPX_UEREC records the granule with agent 1. -/
def State.dataUe (s : State) (gran : Nat) : Stop := .fault 0x41 (ueWord gran) (s.recordUe gran 1)

/-! ### Loads (R170, R173, R174, R177) -/

/-- The buffered stores that overlap some keys, oldest first. -/
def Thread.overlaps (t : Thread) (ks : List Nat) : List StoreEnt :=
  t.sb.filter fun e => e.cells.any fun c => ks.contains c.1

/-- What the store buffer does with a load: `none` a stall, `some none` memory serves it, `some (some e)` store `e` forwards.
Only the youngest overlapping store may forward, and only one that contains every byte (R177, R180). -/
def Thread.forward (t : Thread) (ks : List Nat) : Option (Option StoreEnt) :=
  match (t.overlaps ks).getLast? with
  | none => some none
  | some e => if ks.all fun k => e.cells.any fun c => c.1 == k then some (some e) else none

/-- The cycle in which a read of shared offset `a` issued now is served (R170). -/
def State.srvShared (s : State) (g a : Nat) : Nat := s.ownedShared (coreOf g % 4) (sharedBank a) s.cycle
/-- The cycle in which a read of process-image address `a` issued now is served (R173). -/
def State.srvPi (s : State) (g a : Nat) : Nat := s.ownedPi (coreOf g) (piBank a) (s.cycle + 1)

/-- A byte of bit RAM as it stood at the start of the cycle (R104). -/
def State.bitByte (s : State) (k : Nat) : Byte :=
  match s.bitOld.find? fun e => e.1 == k with
  | some e => e.2
  | none => s.byteAt k

/-- The byte that memory delivers for byte `i` of an operand, whose key is `k`. -/
def State.fetchByte (s : State) (g : Nat) (p : Place) (i k : Nat) : Byte :=
  match p with
  | .shared a => s.seen (coreOf g) g (s.srvShared g (a + i)) k
  | .pi a => s.seen (coreOf g) g (s.srvPi g (a + i)) k
  | .bits _ _ => s.bitByte k
  | _ => s.byteAt k

/-- The instruction's own update of a near key, if any: the latest one. -/
def Wk.own (wk : Wk) (k : Nat) : Option Byte :=
  wk.upd.foldl (fun r u => match u.find? fun c => c.1 == k with | some c => some c.2 | none => r) none

/-- The bytes of a load; none when it stalls. -/
def State.load (s : State) (g : Nat) (wk : Wk) (p : Place) (ks : List Nat) : Option (List Byte) :=
  match (s.thr g).forward ks with
  | none => none
  | some fw =>
    some (ks.zipIdx.map fun (k, i) =>
      match wk.own k with
      | some b => b
      | none =>
        match fw with
        | some e => (e.cells.find? fun c => c.1 == k).elim 0 Prod.snd
        | none => s.fetchByte g p i k)

/-! ### Effective addresses (R94 to R105) -/

/-- A pointer, index or cell word of the window: its keys and its value. -/
def State.ptrWord (s : State) (g : Nat) (wk : Wk) (o n : Nat) : Except Stop (Wk × Nat) :=
  let ks := s.keysOf g (8 * n) (.near o)
  if s.winSize g < o + n then .error (.fault 4 0 s)
  else match s.badRead ks with
    | some b => .error (s.dataUe b)
    | none =>
      match s.load g wk (.near o) ks with
      | none => .error .stall
      | some bs => .ok ({ wk with reads := wk.reads ++ ks }, ofBytes bs)

/-- The update of a pointer word. -/
def State.ptrStore (s : State) (g : Nat) (wk : Wk) (o v : Nat) : Wk :=
  { wk with upd := wk.upd ++ [(s.keysOf g 32 (.near o)).zip (toBytes 4 v)] }

/-- SPACE of an address, with nothing changed. -/
def State.space (s : State) : Stop := .fault 4 0 s

/-- A stepped pointer (R93, R95): the address accessed and the new pointer, modulo `m`. -/
def stepPtr (upd v step m : Nat) : Nat × Nat :=
  if upd = 1 then (v, (v + step) % m) else if upd = 2 then ((v + m - step) % m, (v + m - step) % m) else (v, v)

/-- The place that an operand word names, with its pointer read and updated; `bits` is the operand's width. -/
def State.form (s : State) (g : Nat) (h : Head) (pc : Word) (o : Opd) (w : Word) (wk : Wk) : Except Stop (Wk × Place) :=
  let f := fld w
  let m := opMode w
  let bits := h.bits o.wid
  let z := bits / 8
  let disp := signed 11 (f 26 16)
  if m = 0 then .ok (wk, .near (f 15 0))
  else if m ≤ 4 then
    match s.ptrWord g wk (f 15 0) 4 with
    | .error e => .error e
    | .ok (wk, v) =>
      if 0x10000 ≤ v then .error s.space
      else if m = 4 then
        let a := (v : Int) + disp
        if a < 0 then .error s.space else .ok (wk, .near a.toNat)
      else
        let r := stepPtr (m - 1) v z 0x10000
        .ok (if m = 1 then wk else s.ptrStore g wk (f 15 0) r.2, .near r.1)
  else if m = 5 then
    match s.ptrWord g wk (f 15 0) 8 with
    | .error e => .error e
    | .ok (wk, v) =>
      let ptr := v % 0x10000
      let start := v / 2 ^ 32 % 0x10000
      let len := v / 2 ^ 48
      if 0x10000 ≤ v % 2 ^ 32 ∨ len = 0 ∨ len % z ≠ 0 ∨ s.winSize g < start + len ∨ ptr < start ∨ start + len ≤ ptr ∨
          (ptr - start) % z ≠ 0 then .error s.space
      else
        let r : Nat × Nat :=
          if f 17 16 = 1 then (ptr, if start + len ≤ ptr + z then ptr + z - len else ptr + z)
          else if f 17 16 = 2 then (let p := if ptr < start + z then ptr + len - z else ptr - z; (p, p))
          else (ptr, ptr)
        .ok (if f 17 16 = 0 then wk else s.ptrStore g wk (f 15 0) r.2, .near r.1)
  else if m = 6 then .ok (wk, .shared (f 18 0))
  else if m = 7 then
    match s.ptrWord g wk (f 15 0) 4 with
    | .error e => .error e
    | .ok (wk, v) =>
      if 0x80000 ≤ v then .error s.space
      else
        let r := stepPtr (f 17 16) v z 0x80000
        .ok (if f 17 16 = 0 then wk else s.ptrStore g wk (f 15 0) r.2, .shared r.1)
  else if m = 8 then .ok (wk, .pi (64 * (s.thr g).plb.toNat + f 14 0))
  else if m = 9 then
    match s.ptrWord g wk (f 15 0) 4 with
    | .error e => .error e
    | .ok (wk, v) =>
      let a := (64 * (s.thr g).plb.toNat + v : Nat) + disp
      if 0x200000 ≤ v ∨ a < 0 then .error s.space else .ok (wk, .pi a.toNat)
  else if m = 10 then
    let p := f 26 0
    .ok (wk, .imm (match o.kind with
      | .int => wrap 64 (signed 27 p)
      | .fp => if bits = 32 then p <<< 5 else p <<< 37
      | .code => wrap 32 (pc.toNat + 4 * signed 27 p)))
  else if m = 11 then .ok (wk, if f 26 26 = 0 then .bits false (f 13 0) else .bits true (f 19 0))
  else if m = 12 then
    match s.ptrWord g wk (f 15 0) 4 with
    | .error e => .error e
    | .ok (wk, v) =>
      let pg := v.testBit 20
      let md := if pg then 0x100000 else 0x4000
      if 0x200000 ≤ v ∨ (¬ pg ∧ 0x4000 ≤ v) then .error s.space
      else
        let r := stepPtr (f 17 16) (v % 0x100000) bits md
        .ok (if f 17 16 = 0 then wk else s.ptrStore g wk (f 15 0) (r.2 + (if pg then 0x100000 else 0)), .bits pg r.1)
  else if m = 13 then
    .ok (wk, if f 26 24 = 2 then .port (8 * clusterOf g + f 6 4) (f 3 0) else .pin (f 26 24) (f 7 0))
  else if m = 14 then .ok (wk, .special (f 7 0))
  else .ok (wk, .time (f 1 0) (f 3 2))

/-- An access of the place is unaligned (R66, R179). -/
def Place.unaligned (p : Place) (bits : Nat) : Bool :=
  match p with
  | .near o => o % (bits / 8) != 0
  | .shared a => a % (bits / 8) != 0
  | .pi a => a % (bits / 8) != 0
  | _ => false

/-! ### Row 6 of Table 30 -/

/-- Pin `p` is given to the private port of core `n` (R307). -/
def State.given (s : State) (n p : Nat) : Bool :=
  s.owner p == n && (upto 4).any fun j => s.slotEn p j && (s.slotUser p j).1 == 0

/-- The write of a process-image operand, tried: OWNER_DENY, or the error that its merge meets (R191, R222, R224). -/
def State.piCheck (s : State) (g a n : Nat) : Option Stop :=
  match s.piWrite g a n with
  | (_, .deny) => some (.fault 5 0 s)
  | (s', .ue b) => some (.fault 0x41 (ueWord b) s')
  | (_, .drop) => none
  | (s', .keys ks _) => (s'.badWrite ks).map s.dataUe

/-- The faults that depend on the operand's address, owner and data: SPACE, ALIGN, OWNER_DENY, data ECC_UE, in this order. -/
def State.check (s : State) (g bits : Nat) (u : Use) (p : Place) : Option Stop :=
  let z := bits / 8
  let ks := s.keysOf g bits p
  let data : Option Stop :=
    match (if u.reads then s.badRead ks else none) with
    | some b => some (s.dataUe b)
    | none => if u.writes then (s.badWrite ks).map s.dataUe else none
  let stall : Option Stop := if u.reads ∧ ((s.thr g).forward ks).isNone then some .stall else none
  match p with
  | .near o => if s.winSize g < o + z then some s.space else data.or stall
  | .shared a => if 0x80000 < a + z then some s.space else data.or stall
  | .pi a =>
    if 0x200000 < a + z then some s.space
    else if u.writes then
      if (s.thr g).mem.isNone then some (.fault 5 0 s)
      else
        match (if u.reads then s.badRead ks else none) with
        | some b => some (s.dataUe b)
        | none => (s.piCheck g a z).or stall
    else data.or stall
  | .bits _ a => if bits ≠ 1 ∧ a % bits ≠ 0 then some (.fault 3 0 s) else data
  | .pin sub q =>
    if bits ≠ 1 ∧ q % bits ≠ 0 then some (.fault 3 0 s)
    else if u.writes ∧ sub = 0 ∧ ¬ ((upto bits).all fun i => s.given (coreOf g) (q + i)) then some (.fault 5 0 s)
    else none
  | _ => none

/-- One operand: its place, its faults of row 6, and what it adds to the work. -/
def State.prep1 (s : State) (g : Nat) (h : Head) (pc : Word) (o : Opd) (w : Word) (wk : Wk) : Except Stop (Wk × Place) :=
  match s.form g h pc o w wk with
  | .error e => .error e
  | .ok (wk, p) =>
    if o.use = .addr then .ok (wk, p)
    else
      let bits := h.bits o.wid
      match s.check g bits o.use p with
      | some e => .error e
      | none =>
        .ok ({ wk with unal := wk.unal + b2n (p.unaligned bits),
                       reads := wk.reads ++ (if o.use.reads then s.keysOf g bits p else []) }, p)

/-- The operands in order (R110, R111): the work and their places, or the first stop. -/
def State.prep (s : State) (g : Nat) (h : Head) (pc : Word) : List Opd → List Word → Wk → Except Stop (Wk × List Place)
  | o :: os, w :: ws, wk =>
    match s.prep1 g h pc o w wk with
    | .error e => .error e
    | .ok (wk, p) =>
      match s.prep g h pc os ws wk with
      | .error e => .error e
      | .ok (wk, ps) => .ok (wk, p :: ps)
  | _, _, wk => .ok (wk, [])

/-- The places alone, as far as they can be formed: what a false condition needs for its latency (R66, R90). -/
def State.unalOf (s : State) (g : Nat) (h : Head) (pc : Word) : List Opd → List Word → Wk → Nat
  | o :: os, w :: ws, wk =>
    match s.form g h pc o w wk with
    | .error _ => s.unalOf g h pc os ws wk
    | .ok (wk, p) => (if o.use = .addr then 0 else b2n (p.unaligned (h.bits o.wid))) + s.unalOf g h pc os ws wk
  | _, _, _ => 0

/-! ### Source values (step 2 of R110) -/

/-- An item of Table 29. -/
def State.timeItem (s : State) (sel d : Nat) : DWord :=
  if sel = 0 then s.now else if sel = 1 then s.commons.era.setWidth 64
  else if sel = 2 then s.reg64 (.swdBtime d) else (s.reg (.swdNum d)).setWidth 64

/-- A pin field as SUB 0 or SUB 1 reads it (R106). -/
def State.pinField (s : State) (g sub p bits : Nat) : Nat :=
  (upto bits).foldl (fun n i =>
    let b := if sub = 0 then s.port (coreOf g) (p + i) else (s.owner (p + i) != 0x21 && s.pinBefore (p + i))
    n + b2n b * 2 ^ i) 0

/-- The address that LEA writes (R120). -/
def Place.addr : Place → Nat
  | .near o => o
  | .shared a => a
  | .pi a => a
  | .bits pg a => a + (if pg then 0x100000 else 0)
  | _ => 0

/-- The value of an operand of `bits` bits; a port read may pop or clear (R285, R292). -/
def State.value (s : State) (g bits : Nat) (u : Use) (wk : Wk) (p : Place) : State × Nat :=
  let m := 2 ^ bits
  if u = .addr then (s, p.addr)
  else
    match p with
    | .imm v => (s, v % m)
    | .special n => (s, (s.spRead g n).toNat % m)
    | .time sel d => (s, (s.timeItem sel d).toNat % m)
    | .pin sub q => (s, s.pinField g sub q bits)
    | .port q n => if u.reads then (let r := s.portRead q n; (r.1, r.2.toNat % m)) else (s, 0)
    | .bits pg a =>
      let b := (bitOf g pg a).2
      let bs := (s.keysOf g bits p).map s.bitByte
      (s, ofBytes bs / 2 ^ (b % 8) % m)
    | _ => (s, ofBytes ((s.load g wk p (s.keysOf g bits p)).getD []) % m)

/-- The values of the operands in order; a pure destination reads as 0. -/
def State.values (s : State) (g : Nat) (h : Head) (wk : Wk) : List Opd → List Place → State × List Nat
  | o :: os, p :: ps =>
    if o.use = .dst then
      let r := s.values g h wk os ps
      (r.1, 0 :: r.2)
    else
      let v := s.value g (h.bits o.wid) o.use wk p
      let r := v.1.values g h wk os ps
      (r.1, v.2 :: r.2)
  | _, _ => (s, [])

/-! ### Stores -/

/-- The bank that names the owned cycles of a key's place (R168, R172). -/
def Place.bank (p : Place) (i : Nat) : Nat :=
  match p with
  | .pi a => piBank (a + i)
  | .shared a => sharedBank (a + i)
  | _ => 0

/-- Cells that share a bank, in order. -/
def splitBanks (p : Place) (cells : List (Nat × Byte)) : List (Nat × List (Nat × Byte)) :=
  cells.zipIdx.foldr (fun (c, i) r =>
    match r with
    | (b, l) :: rest => if b = p.bank i then (b, c :: l) :: rest else (p.bank i, [c]) :: r
    | [] => [(p.bank i, [c])]) []

/-- A shared or process-image write is posted, one part for each bank, ready in cycle `ready` (R174, R179). -/
def State.postAll (s : State) (g ready : Nat) (p : Place) (cells : List (Nat × Byte)) (gen : Option (Nat × Nat)) : State :=
  let isPi := match p with | .pi _ => true | _ => false
  (splitBanks p cells).foldl (fun s b => s.post (coreOf g) g ready (s.thr g).fence isPi b.1 b.2 gen) s

/-- A store enters a relaxed thread's buffer (R176). -/
def State.buffer (s : State) (g : Nat) (e : StoreEnt) : State := s.setThr g { s.thr g with sb := (s.thr g).sb ++ [e] }

/-- The space of a place in a store-buffer entry. -/
def Place.space : Place → Nat
  | .near _ => 0
  | .shared _ => 1
  | _ => 2

/-- The near, shared and process-image stores of a thread: at once, posted, or into the buffer. -/
def State.putMem (s : State) (g ready : Nat) (p : Place) (cells : List (Nat × Byte)) (gen : Option (Nat × Nat)) : State :=
  if ¬ s.det g then s.buffer g ⟨p.space, cells, gen⟩
  else match p with
    | .near _ => s.putRuns cells
    | _ => s.postAll g ready p cells gen

/-- Bits of bit RAM, with per-bit write enables (R104): `mask` names the bits of the field that are written. -/
def State.putBits (s : State) (bits b : Nat) (n v mask : Nat) : State :=
  (upto ((bits + 7) / 8)).foldl (fun s i =>
    let k := bitKey n (b / 8 + i)
    let sh := if bits = 1 then b % 8 else 0
    let m := BitVec.ofNat 8 (mask >>> (8 * i) <<< sh)
    let x := BitVec.ofNat 8 (v >>> (8 * i) <<< sh)
    let old := s.byteAt k
    let s := if s.bitOld.any fun e => e.1 == k then s else { s with bitOld := s.bitOld ++ [(k, old)] }
    s.memWrite k [(old &&& ~~~ m) ||| (x &&& m)]) s

/-- A write of an operand takes effect (step 3 of R110): `ready` is the ready cycle of Table 60 for its class. -/
def State.setOpd (s : State) (g bits ready : Nat) (p : Place) (v mask : Nat) : State :=
  let cells := (s.keysOf g bits p).zip (toBytes (bits / 8) v)
  match p with
  | .near _ => s.putMem g ready p cells none
  | .shared _ => s.putMem g ready p cells none
  | .pi a =>
    match s.piWrite g a (bits / 8) with
    | (s, .keys ks gen) => s.putMem g ready p (ks.zip (toBytes (bits / 8) v)) (some gen)
    | (s, _) => s
  | .bits pg a => let b := bitOf g pg a; s.putBits bits b.2 b.1 v mask
  | .pin _ q =>
    (upto bits).foldl (fun s i => if mask.testBit i then s.drivePort (coreOf g) (q + i) (v.testBit i) else s) s
  | .port q n =>
    match s.portWrite q n (BitVec.ofNat 64 v) with
    | (s, true) => s
    | (s, false) => s.report 0x60 0 g (s.thr g).pc 0x102
  | .special n =>
    let old := s.spRead g n
    s.spWrite g n (BitVec.ofNat 64 (old.toNat / 2 ^ bits * 2 ^ bits + v % 2 ^ bits))
  | _ => s

/-- The pointer and cell updates of an instruction take effect. -/
def State.putUpdates (s : State) (g : Nat) (upd : List (List (Nat × Byte))) : State :=
  upd.foldl (fun s cells => s.putMem g s.cycle (.near 0) cells none) s

/-- The stores that an operand list needs room for in the buffer. -/
def storeCount (os : List Opd) (ps : List Place) (wk : Wk) : Nat :=
  wk.upd.length + (List.zipWith (fun o p => match p with
    | Place.near _ => b2n o.use.writes
    | Place.shared _ => b2n o.use.writes
    | Place.pi _ => b2n o.use.writes
    | _ => 0) os ps).foldl (· + ·) 0

end Sys2Proof.Machine
end

