-- ==== Sys2Proof/Machine/Issue.lean ====
section
/-! DEFINITION. The issue of threads (03): which thread a core issues in a cycle (R56), fetch (R63 to R65, R69), events and
breakpoints in place of an issue (R76, R377), pairs (R70), latency (R66, R115, R116), and the one driver of every thread
instruction. -/
namespace Sys2Proof.Machine

/-! ### Fetch -/

/-- The chip address of a code address from 0x0001_0000 up (R63). -/
def State.chipAddr (s : State) (n : Nat) (pc : Word) : Nat :=
  (s.rf (.coreIcbase n) 31 16 * 0x10000 + (pc.toNat - 0x10000)) % 2 ^ 32

/-- The cache line of a core that serves thread `g` for a line number; a way from 4 up serves one thread once (R142). -/
def State.cached (s : State) (g line : Nat) : Option CacheLine :=
  (s.core (coreOf g)).cache.find? fun c => c.line == line && (decide (c.way < 4) || c.way == 4 + locOf g)

/-- A byte of a cached line. -/
def State.icByte (s : State) (g a : Nat) : Byte :=
  match s.cached g (a / 64) with
  | some c => if c.way < 4 then s.cell (icacheKey (coreOf g) (0x1000 * c.way + a % 0x1000)) else s.chipByte a
  | none => 0

/-- A word of code. -/
def State.codeWord (s : State) (g : Nat) (pc : Word) : Word :=
  if pc.toNat < 0x10000 then s.word (codeKey (coreOf g) pc.toNat)
  else
    let a := s.chipAddr (coreOf g) pc
    BitVec.ofNat 32 (ofBytes ((upto 4).map fun i => s.icByte g (a + i)))

/-- The lines of chip memory that `n` words from `pc` on lie in. -/
def State.linesFor (s : State) (g : Nat) (pc : Word) (n : Nat) : List Nat :=
  if pc.toNat < 0x10000 then []
  else ((upto n).map fun i => s.chipAddr (coreOf g) (pc + BitVec.ofNat 32 (4 * i)) / 64).eraseDups

/-- The first line that the fetch of `n` words lacks. -/
def State.missing (s : State) (g : Nat) (pc : Word) (n : Nat) : Option Nat :=
  (s.linesFor g pc n).find? fun l => (s.cached g l).isNone

/-- What a fetch brings: the instruction, a fault of rows 1 to 3 of Table 30, or a line to await. -/
inductive Fetched where
  | ok (h : Head) (words : List Word)
  | bad (e : Stop)
  | miss (line : Nat)
deriving DecidableEq, Repr

/-- The instruction at `pc` (R63, R65, R69). -/
def State.fetch (s : State) (g : Nat) (pc : Word) : Fetched :=
  let a := pc.toNat
  if a % 4 ≠ 0 then .bad (.fault 3 0 s)
  else if s.det g ∧ 0x10000 ≤ a then .bad s.space
  else match s.missing g pc 1 with
    | some l => .miss l
    | none =>
      let ue (n : Nat) : Option Nat := if a < 0x10000 then s.badGran (codeKey (coreOf g) a) (4 * n) else none
      match ue 1 with
      | some b => .bad (.fault 0x41 (ueWord b) (s.recordUe b 0))
      | none =>
        let h := Head.of (s.codeWord g pc)
        let last := a + 4 * h.n
        if (a < 0x10000 ∧ 0x10000 ≤ last) ∨ 2 ^ 32 ≤ last then .bad s.space
        else match s.missing g pc (1 + h.n) with
          | some l => .miss l
          | none =>
            match ue (1 + h.n) with
            | some b => .bad (.fault 0x41 (ueWord b) (s.recordUe b 0))
            | none => .ok h ((upto h.n).map fun i => s.codeWord g (pc + BitVec.ofNat 32 (4 * (i + 1))))

/-- The keys in code RAM of an instruction. -/
def codeKeys (g : Nat) (pc : Word) (n : Nat) : List Nat :=
  if pc.toNat < 0x10000 then (upto (4 * (n + 1))).map fun i => codeKey (coreOf g) (pc.toNat + i) else []

/-! ### Events in place of an issue (R75, R76, R79) -/

/-- The event input that the thread takes at an issue of this cycle. -/
def State.eventNow (s : State) (g : Nat) : Option Nat :=
  let t := s.thr g
  if t.ee then
    (upto 4).find? fun j =>
      s.inputPending g j && decide (s.flagSince (clusterOf g) (s.rf (thrReg .coreEvsel g) (8 * j + 7) (8 * j)) + 1 ≤ s.cycle)
  else none

/-- A store buffer has room for `n` more stores (R176). -/
def State.room (s : State) (g n : Nat) : Bool := s.det g || decide ((s.thr g).sb.length + n ≤ 4)

/-! ### Stalls (R56, R176, R177, R221, Table 44) -/

/-- A relaxed thread's instruction waits for its store buffer. -/
def State.stalled (s : State) (g : Nat) (h : Head) (ws : List Word) : Bool :=
  !s.det g &&
  match h.row with
  | none => false
  | some r =>
    if opsBad h r.opds ws ∨ ¬ (Flags.of (s.thr g).flg).holds h.cond then false
    else if h.op = 0x104 then
      ((s.thr g).forward (s.keysOf g 32 (.near 0))).isNone || ((s.thr g).forward (s.keysOf g 32 (.near 4))).isNone
    else if h.op = 0x1E1 ∨ h.op = 0x1E2 ∨ h.op = 0x1E3 then !(s.thr g).sb.isEmpty
    else if h.op = 0x1F2 then (s.thr g).sb.any fun e => e.space == 2
    else match s.prep g h (s.thr g).pc r.opds ws .start with
      | .error .stall => true
      | .error _ => false
      | .ok (wk, ps) => !s.room g (storeCount r.opds ps wk)

/-- The store buffer holds the thread in this cycle. -/
def State.sbHolds (s : State) (g : Nat) : Bool :=
  if (s.eventNow g).isSome then !s.room g 2
  else match s.fetch g (s.thr g).pc with
    | .ok h ws => s.stalled g h ws
    | _ => false

/-- A relaxed thread's next instruction is not in its fetch buffer. -/
def State.lacks (s : State) (g : Nat) : Bool :=
  (s.eventNow g).isNone && (match s.fetch g (s.thr g).pc with | .miss _ => true | _ => false)

/-! ### The choice of R56 -/

/-- DUE(t, c); an event may take the issue of a DIV in progress before it completes (R76). -/
def State.due (s : State) (g : Nat) : Bool :=
  let t := s.thr g
  (decide (t.next ≤ s.cycle) || (t.div.isSome && (s.eventNow g).isSome)) &&
  (s.det g || (!s.sbHolds g && !s.lacks g))

/-- The thread counts as READY or WAITING: its state, its PRIOR in a STEP (R374), or a DOZE that an event ends (R79). -/
def State.countsReady (s : State) (g : Nat) : Bool :=
  let t := s.thr g
  !t.justReleased s.cycle && (t.eff == .ready || t.eff == .waiting || (s.dozeEvent g && (s.eventNow g).isSome))

/-- No accepted stop or halt holds the thread's next issue (R384). -/
def State.free (s : State) (g : Nat) : Bool :=
  let t := s.thr g
  !(match t.stopReq with | some c => decide (c < s.cycle) | none => false) &&
  !(match t.haltReq with | some (_, c) => decide (c < s.cycle) | none => false)

/-- The thread that core `n` issues in this cycle, and whether it comes from the spill set (R56). -/
def State.issuer (s : State) (n : Nat) : Option (Nat × Bool) :=
  if ¬ s.active ∨ (s.core n).dz ≠ 0 ∨ (s.core n).issued = some s.cycle then none
  else
    let own := s.slotNow n s.sptr
    let g := 16 * n + own
    if own < 16 ∧ s.countsReady g then (if s.due g ∧ s.free g then some (g, false) else none)
    else
      ((upto 16).map fun i => 16 * n + ((s.core n).rptr + i) % 16).find? (fun t =>
        bit (s.tcbNow t) 2 && !s.det t && s.countsReady t && s.due t && s.free t) |>.map fun t => (t, true)

/-- The breakpoint that an issue of `g` at its PC hits (R377, R378). -/
def State.bpHit (s : State) (g : Nat) : Option Nat :=
  let t := s.thr g
  if t.skipBp ∨ t.eff = .waiting ∨ (s.eventNow g).isSome then none
  else (upto 4).find? fun b =>
    s.rf (.coreBpc (coreOf g) b) 31 30 != 0 && s.rb (.coreBpc (coreOf g) b) (locOf g) && s.reg (.coreBpa (coreOf g) b) == t.pc

/-- The thread issues an instruction in this cycle. -/
def State.issues (s : State) (g : Nat) : Bool :=
  (match s.issuer (coreOf g) with | some (t, _) => t == g | none => false) &&
  (s.eventNow g).isNone && (s.bpHit g).isNone

/-! ### A DIV in progress (R148, R156) -/

/-- The DIV that has come to its end writes its results, and the thread goes on. -/
def State.finishDiv (s : State) (g : Nat) : State :=
  let t := s.thr g
  match t.div with
  | none => s
  | some d =>
    if d.doneAt ≤ s.cycle then
      let s := s.setThr g { t with div := none, q := d.q, rem := d.rem, flg := d.flg.getD t.flg }
      (s.putUpdates g d.upd).goOn g d.nxt
    else s

/-! ### Pairs (R70) -/

/-- Opcodes that are pairable as the first of a pair; B only as the second. -/
def pairFirst (op : Nat) : Bool := op == 0x005 || op == 0x006 || op == 0x007 || op == 0x14C
/-- The bits of FLG that a pairable instruction writes. -/
def pairFlags (h : Head) : Word := if h.op = 0x006 ∨ h.op = 0x007 then BitVec.ofNat 32 h.xf else 0
/-- The bits of FLG that a condition reads (Table 26). -/
def condReads (c : Nat) : Word :=
  if c = 0 then 0 else if c % 8 = 1 then 4 else if c % 8 = 2 then 1 else if c = 3 ∨ c = 11 then 8 else if c % 8 = 4 then 2
  else if c % 8 = 5 then 5 else if c % 8 = 6 then 10 else if c % 8 = 7 then 16 else 14

/-- An address that ends an active loop (R70, R128). -/
def State.endsLoop (s : State) (g : Nat) (nxt : Word) : Bool :=
  (upto 4).any fun i =>
    let l := (s.thr g).loop i
    (fld (s.tcbNow g) 11 8).testBit i && l.lc != 0 && l.le == nxt

/-- The second instruction of a pair, where the instruction `h` at the thread's PC forms one (R70, R374, R378). -/
def State.pairWith (s : State) (g : Nat) (h : Head) : Option Head :=
  let t := s.thr g
  let pc2 := t.pc + 4
  if s.det g ∨ t.step ∨ ¬ pairFirst h.op ∨ s.pendBits g ≠ 0 ∨ s.endsLoop g pc2 ∨ s.endsLoop g (pc2 + 4) then none
  else if (upto 4).any (fun b => s.rf (.coreBpc (coreOf g) b) 31 30 != 0 && s.rb (.coreBpc (coreOf g) b) (locOf g) &&
      s.reg (.coreBpa (coreOf g) b) == pc2) then none
  else match s.fetch g pc2 with
    | .ok h2 _ =>
      if h2.n = 0 ∧ h2.row.isSome ∧ (pairFirst h2.op ∨ h2.op = 0x100) ∧ (pairFlags h &&& (pairFlags h2 ||| condReads h2.cond)) = 0 ∧
          ¬ (h.op = 0x14C ∧ h2.op = 0x14C) then some h2
      else none
    | _ => none

/-- The effect of a pairable instruction other than B (Tables 33 and 39). -/
def pairEffect (h : Head) (t : Thread) : Thread :=
  if h.op = 0x006 then { t with flg := t.flg ||| BitVec.ofNat 32 h.xf }
  else if h.op = 0x007 then { t with flg := t.flg &&& ~~~ BitVec.ofNat 32 h.xf }
  else if h.op = 0x14C then { t with acc := 0 }
  else t

/-! ### Branch target buffer (R69) -/

/-- The BTB predicts the taken branch at `pc` to `tgt`. -/
def State.btbHit (s : State) (g : Nat) (pc tgt : Word) : Bool :=
  (s.core (coreOf g)).btb.any fun e => e.thr == locOf g && e.pc == pc && e.tgt == tgt

/-- A taken branch of a relaxed thread enters the BTB, most recently used first, of 64 entries. -/
def State.btbTake (s : State) (g : Nat) (pc tgt : Word) : State :=
  let c := s.core (coreOf g)
  s.setCore (coreOf g) { c with btb := (⟨locOf g, pc, tgt⟩ :: c.btb.filter fun e => !(e.thr == locOf g && e.pc == pc)).take 64 }

/-- The taken-branch figure (R66, Table 22): what it adds, and the BTB after it. -/
def State.takeBranch (s : State) (g : Nat) (pc tgt : Word) : State × Nat :=
  if s.det g then (s, 1) else (s.btbTake g pc tgt, if s.btbHit g pc tgt then 0 else 1)

/-! ### Latency (R66, R115, R116, R134, R154) -/

/-- The bit position of the highest 1, plus 1. -/
def bitLen (n : Nat) : Nat := if n = 0 then 0 else Nat.log2 n + 1

/-- Lb of a DIV with CT = 0 (Table 49), from the dividend and divisor. -/
def divLat (w : Nat) (sgn : Bool) (a b : Nat) : Nat :=
  let m (x : Nat) : Nat := if sgn then (signed w x).natAbs else x
  let a := m a
  let b := m b
  if b = 0 ∨ a = 0 ∨ b = 1 ∨ a < b then 6
  else
    let k := bitLen a - bitLen b + 1
    if k ≤ 8 then 8 else if k ≤ 16 then 10 else if k ≤ 32 then 12 else 14

/-- The exponent field of an FP encoding is all ones: an infinity or a NaN. -/
def fpSpecial (w v : Nat) : Bool := if w = 64 then natFld v 62 52 == 0x7FF else natFld v 30 23 == 0xFF
/-- An FP encoding is a zero. -/
def fpZero (w v : Nat) : Bool := v % 2 ^ (w - 1) == 0

/-- Lb of a row for its source values; none values take the largest figure that CT allows (R155). -/
def latOf (h : Head) (l : Lat) (ct : Bool) (vals : Option (List Nat)) : Nat :=
  let w := szBits h.sz
  match l with
  | .fix n => n
  | .fp a b => if h.sz = 3 then b else a
  | .glob => if natFld h.xf 9 9 = 1 then 10 else 2
  | .div =>
    match ct, vals with
    | false, some [a, b] => divLat w (h.op == 0x151) a b
    | _, _ => 14
  | .fdiv =>
    match ct, vals with
    | false, some [_, a, b] =>
      if fpSpecial w a ∨ fpZero w a ∨ fpSpecial w b ∨ fpZero w b then 3 else if h.sz = 3 then 20 else 12
    | _, _ => if h.sz = 3 then 20 else 12
  | .fsqrt =>
    match ct, vals with
    | false, some [_, a] => if fpSpecial w a ∨ fpZero w a ∨ a.testBit (w - 1) then 3 else if h.sz = 3 then 22 else 12
    | _, _ => if h.sz = 3 then 22 else 12

/-- The cycles that a relaxed thread's read of one operand takes beyond Lb (R170, R173, Table 32). -/
def State.readWait (s : State) (g : Nat) (h : Head) (o : Opd) (p : Place) : Nat :=
  let bits := h.bits o.wid
  let ks := s.keysOf g bits p
  if ¬ o.use.reads ∨ ¬ ((s.thr g).overlaps ks).isEmpty then 0
  else
    let z := bits / 8
    match p with
    | .shared a => max (s.srvShared g a) (s.srvShared g (a + z - 1)) - s.cycle
    | .pi a => max (s.srvPi g a) (s.srvPi g (a + z - 1)) + 2 - s.cycle
    | _ => 0

/-- What the operands add to Lb: Table 31 for a deterministic thread, the reads of Table 32 for a relaxed one. -/
def State.opdAdd (s : State) (g : Nat) (h : Head) (os : List Opd) (ws : List Word) (ps : List Place) : Nat :=
  if s.det g then classAdds os ws else (List.zipWith (s.readWait g h) os ps).foldl max 0

/-! ### The driver -/

/-- What the body of an instruction sees: the thread, the head word, its own PC, the next sequential address, the flags
(R89), the operand values in order (0 for a pure destination), and the operand words. -/
structure In where
  g : Nat
  h : Head
  pc : Word
  nxt : Word
  fl : Flags
  vals : List Nat
  words : List Word
deriving DecidableEq, Repr

/-- Width in bits of SZ. -/
def In.w (c : In) : Nat := szBits c.h.sz
/-- Value of operand `i`, counted from 0. -/
def In.v (c : In) (i : Nat) : Nat := c.vals.getD i 0

/-- A value for operand `i`; the mask names the bits that are written. -/
structure Out where
  i : Nat
  val : Nat
  mask : Nat
deriving DecidableEq, Repr

/-- A whole value for operand `i`. -/
def out (i v : Nat) : Out := ⟨i, v, 2 ^ 64 - 1⟩

/-- Where the thread goes: on in sequence (R128), to a branch target, to the address that RETE loads, nowhere. -/
inductive Go where
  | seq
  | jump (a : Word)
  | back (a : Word)
  | stay
deriving DecidableEq, Repr

/-- What an instruction does: the state with the effects of its own, operand values, the result flags that S = 1 writes,
where it goes, and the exceptions that it adds to FPS (R151). -/
structure Act where
  s : State
  outs : List Out
  fl : Option Flags
  go : Go
  fps : Nat
deriving DecidableEq, Repr

/-- The ready cycle of a write of operand class `p` (Table 60). -/
def State.readyAt (s : State) (os : List Opd) (ps : List Place) (p : Place) : Nat :=
  let isShared : Place → Bool := fun q => match q with | .shared _ => true | _ => false
  let isPi : Place → Bool := fun q => match q with | .pi _ => true | _ => false
  let srcs (f : Place → Bool) : Bool := (List.zipWith (fun o q => o.use.reads && f q) os ps).any id
  if isShared p then s.cycle + (if srcs isShared then 4 else 1)
  else if isPi p then s.cycle + (if srcs isPi then 11 else 1)
  else s.cycle

/-- The destinations are written in operand order. -/
def State.writeOuts (s : State) (g : Nat) (h : Head) (os : List Opd) (ps : List Place) (outs : List Out) : State :=
  outs.foldl (fun s o =>
    match os[o.i]?, ps[o.i]? with
    | some d, some p => s.setOpd g (h.bits d.wid) (s.readyAt os ps p) p (o.val % 2 ^ h.bits d.wid) (o.mask % 2 ^ h.bits d.wid)
    | _, _ => s) s

/-- The result flags are written when S = 1 (R88). -/
def State.writeFlags (s : State) (g : Nat) (h : Head) (fl : Option Flags) : State :=
  match fl with
  | some f => if h.s = 1 then s.setThr g { s.thr g with flg := f.into (s.thr g).flg } else s
  | none => s

/-- The issue is noted: CORE_TISSUE, the spill count and RPTR, a delayed issue of R345, and NEXT. -/
def State.noteIssue (s : State) (g : Nat) (spill : Bool) (l : Nat) : State :=
  let n := coreOf g
  let c := s.core n
  let s := s.bump (thrReg .coreTissue g) 1
  let s := if spill then s.bump (.coreSpillcnt n) 1 else s
  let s := if g ∈ c.delayed then s.bumpRf (.pwrDzstat n) 15 0 1 else s
  let s := s.setCore n { s.core n with issued := some s.cycle, delayed := c.delayed.filter (· != g),
                                       rptr := if spill then (locOf g + 1) % 16 else c.rptr }
  s.setThr g { s.thr g with next := s.cycle + l, skipBp := false }

/-- A STEP ends with its issue: HALTED with CAUSE 3, unless the thread faulted or became IDLE (R374). -/
def State.endStep (s : State) (g : Nat) (step : Bool) : State :=
  if step ∧ (s.thr g).st ≠ .faulted ∧ (s.thr g).st ≠ .idle then s.toHalted g 3 0 else s

/-- A line that served one fetch only is gone (R142); a line that served is the most recently used (R69). -/
def State.useLines (s : State) (g : Nat) (lines : List Nat) : State :=
  if lines.isEmpty then s
  else
    let c := s.core (coreOf g)
    let hit := c.cache.filter fun x => lines.contains x.line && decide (x.way < 4)
    let rest := c.cache.filter fun x => !(lines.contains x.line && (decide (x.way < 4) || x.way == 4 + locOf g))
    s.setCore (coreOf g) { c with cache := hit ++ rest }

/-- A condition that is false: no effect, and the latency as if it were true (R66, R90, R155). -/
def State.pass (s : State) (g : Nat) (h : Head) (r : OpRow) (ws : List Word) : State × Nat :=
  let pc := (s.thr g).pc
  let un := s.unalOf g h pc r.opds ws .start
  let vals : Option (List Nat) :=
    if r.lat = .div ∨ r.lat = .fdiv ∨ r.lat = .fsqrt then
      let os := r.opds.filter fun o => o.use != .dst
      let ss := ws.drop (r.opds.length - os.length)
      match s.prep g h pc os ss .start with
      | .ok (wk, ps) => some ((upto (r.opds.length - os.length)).map (fun _ => 0) ++ (s.values g h wk os ps).2)
      | .error _ => none
    else none
  let add := if s.det g then classAdds r.opds ws else 0
  (s.goOn g (pc + BitVec.ofNat 32 (4 * (1 + h.n))), latOf h r.lat (s.ct g) vals + add + un)

/-- An issue whose instruction is fetched and passes the checks of its words: the state with the fetch's own effects, in which
the thread is READY (R60, R374); whether the spill set issues it; whether it is a debug STEP; head, operand words and row. -/
structure Issue where
  s : State
  spill : Bool
  step : Bool
  h : Head
  ws : List Word
  r : OpRow
deriving DecidableEq, Repr

/-- How an issue begins: it is none of this opcode's, it faults before its operands (rows 1 to 5 of Table 30), or it goes on. -/
inductive Begun where
  | no
  | bad (s : State)
  | go (x : Issue)
deriving DecidableEq, Repr

/-- An issue that ends in a thread fault takes one cycle (R81). -/
def State.faultIssue (s : State) (g : Nat) (spill : Bool) (code : Nat) (db : Word) : State :=
  (s.threadFault g code db).noteIssue g spill 1

/-- One issue of R56 by thread `g`, up to its operands. Another defined opcode at the PC is no event of this opcode's command;
an undefined one faults. -/
def State.begin (s : State) (g op : Nat) : Begun :=
  let s := s.finishDiv g
  if ¬ s.issues g then .no
  else
    let spill := match s.issuer (coreOf g) with | some (_, b) => b | none => false
    let t := s.thr g
    match s.fetch g t.pc with
    | .miss _ => .no
    | .bad (.fault code db s') => .bad (s'.faultIssue g spill code db)
    | .bad .stall => .no
    | .ok h ws =>
      if h.op ≠ op ∧ (rowOf h.op).isSome then .no
      else
        let s := s.setThr g { t with st := t.eff, step := false }
        let s := s.touchAll (codeKeys g t.pc h.n) 0
        let s := s.useLines g (s.linesFor g t.pc (1 + h.n))
        match h.row with
        | none => .bad (s.faultIssue g spill 1 0)
        | some r => if opsBad h r.opds ws then .bad (s.faultIssue g spill 2 0) else .go ⟨s, spill, t.step, h, ws, r⟩

/-- The operands of an issue: their places, the work of their evaluation, what the body sees, and the state after the reads. -/
structure Gathered where
  wk : Wk
  ps : List Place
  c : In
  s : State
deriving DecidableEq, Repr

/-- The operands are evaluated, checked and read (R110). -/
def Issue.gather (x : Issue) (g : Nat) : Except Stop Gathered :=
  let pc := (x.s.thr g).pc
  match x.s.prep g x.h pc x.r.opds x.ws .start with
  | .error e => .error e
  | .ok (wk, ps) =>
    let v := (x.s.touchAll wk.reads 1).values g x.h wk x.r.opds ps
    .ok ⟨wk, ps, ⟨g, x.h, pc, pc + BitVec.ofNat 32 (4 * (1 + x.h.n)), Flags.of (x.s.thr g).flg, v.2, x.ws⟩, v.1⟩

/-- L of an issue with its operands read: Lb, the operand-class addition, the unaligned accesses (R66). -/
def Issue.lat (x : Issue) (g : Nat) (y : Gathered) : Nat :=
  latOf x.h x.r.lat (x.s.ct g) (some y.c.vals) + x.s.opdAdd g x.h x.r.opds x.ws y.ps + y.wk.unal

/-- What a DIV has to write waits for its completion (R148, R156). -/
def Issue.park (x : Issue) (g : Nat) (y : Gathered) (a : Act) : State × Nat :=
  let t := a.s.thr g
  let fl := if x.h.s = 1 then a.fl.map fun f => f.into t.flg else none
  let d : DivPend := ⟨x.s.cycle + x.lat g y, t.q, t.rem, fl, y.wk.upd, y.c.nxt⟩
  (a.s.setThr g { t with q := (x.s.thr g).q, rem := (x.s.thr g).rem, div := some d }, x.lat g y)

/-- What an instruction writes beside its own effects: pointer updates, destinations, flags, FPS, in this order (R110). -/
def Issue.write (x : Issue) (g : Nat) (y : Gathered) (a : Act) : State :=
  let s := ((a.s.putUpdates g y.wk.upd).writeOuts g x.h x.r.opds y.ps a.outs).writeFlags g x.h a.fl
  if a.fps = 0 then s else s.setThr g { s.thr g with fps := (s.thr g).fps ||| BitVec.ofNat 32 a.fps }

/-- The writes, and where the thread goes: the state, and L. -/
def Issue.conclude (x : Issue) (g : Nat) (y : Gathered) (a : Act) : State × Nat :=
  if x.r.lat = .div then x.park g y a
  else
    let s := x.write g y a
    match a.go with
    | .seq => (s.goOn g y.c.nxt, x.lat g y)
    | .stay => (s, x.lat g y)
    | .back p => (s.setThr g { s.thr g with pc := p }, x.lat g y)
    | .jump p =>
      let b := s.takeBranch g y.c.pc p
      (b.1.setThr g { b.1.thr g with pc := p }, x.lat g y + b.2)

/-- The second half of a pair acts (R70): a false condition changes nothing, a B branches. -/
def State.actSecond (s : State) (g : Nat) (h : Head) : State × Nat :=
  let t := s.thr g
  if (Flags.of t.flg).holds h.cond then
    if h.op = 0x100 then
      let tgt := BitVec.ofInt 32 (t.pc.toNat + 4 * h.imm)
      let b := s.takeBranch g t.pc tgt
      (b.1.setThr g { b.1.thr g with pc := tgt }, 1 + b.2)
    else ((s.setThr g (pairEffect h t)).goOn g (t.pc + 4), 1)
  else (s.goOn g (t.pc + 4), 1)

/-- The end of an issue: its pair where it forms one (R70), the note of the issue, the end of a STEP. -/
def Issue.close (x : Issue) (g : Nat) (r : State × Nat) : State :=
  let r : State × Nat :=
    match x.s.pairWith g x.h with
    | some h2 => if x.step then r else (let b := r.1.actSecond g h2; (b.1, max r.2 b.2))
    | none => r
  (r.1.noteIssue g x.spill r.2).endStep g x.step

/-- An issue that its operands or its body stop: a fault, or a stall in which nothing issues. -/
def Issue.stop (x : Issue) (g : Nat) (s : State) : Stop → State
  | .stall => s
  | .fault code db s' => s'.faultIssue g x.spill code db

/-- The condition of the head word is true for the thread's flags (Table 26). -/
def Issue.holds (x : Issue) (g : Nat) : Bool := (Flags.of (x.s.thr g).flg).holds x.h.cond

/-- The instruction at the PC issues as opcode `op` with a body: one issue of R56, with its fault, its stall, its false
condition, its effect and its pair. -/
def State.instr (s : State) (g op : Nat) (body : In → State → Except Stop Act) : State :=
  match s.begin g op with
  | .no => s
  | .bad s' => s'
  | .go x =>
    if x.holds g then
      match x.gather g with
      | .error e => x.stop g s e
      | .ok y =>
        match body y.c y.s with
        | .error e => x.stop g s e
        | .ok a => x.close g (x.conclude g y a)
    else x.close g (x.s.pass g x.h x.r x.ws)

/-- An instruction with a result for its destination and result flags (Tables 33 to 36). -/
def State.alu (s : State) (g op : Nat) (f : In → Res) : State :=
  s.instr g op fun c s => let r := f c; .ok ⟨s, [out 0 r.val], some r.fl, .seq, 0⟩

/-- An instruction that writes nothing but flags. -/
def State.test (s : State) (g op : Nat) (f : In → Flags) : State :=
  s.instr g op fun c s => .ok ⟨s, [], some (f c), .seq, 0⟩

/-- An instruction with an effect of its own and no operand result. -/
def State.effect (s : State) (g op : Nat) (f : In → State → State) : State :=
  s.instr g op fun c s => .ok ⟨f c s, [], none, .seq, 0⟩

end Sys2Proof.Machine
end

