-- ==== Sys2Proof/Machine/Fp.lean ====
section
/-! DEFINITION. Floating point (06, R133 to R136, R158 to R164): binary32 and binary64 values as exact integers times powers of
two, one rounding, the exceptions of Table 52. -/
namespace Sys2Proof.Machine

/-! ### Formats -/

/-- Fraction bits of the format of `w` bits. -/
def fpFrac (w : Nat) : Nat := if w = 64 then 52 else 23
/-- Precision p. -/
def fpPrec (w : Nat) : Nat := fpFrac w + 1
/-- The largest exponent, which is the bias. -/
def fpMax (w : Nat) : Nat := if w = 64 then 1023 else 127
/-- The smallest normal exponent. -/
def fpMin (w : Nat) : Int := 1 - (fpMax w : Int)
/-- The exponent of the least subnormal. -/
def fpLeast (w : Nat) : Int := fpMin w - fpFrac w
/-- The exponent field of infinities and NaNs. -/
def fpExpAll (w : Nat) : Nat := 2 * fpMax w + 1

/-- What an encoding stands for: a NaN, quiet or signalling; an infinity; ± m × 2^e. -/
inductive FpVal where
  | nan (quiet : Bool)
  | inf (neg : Bool)
  | fin (neg : Bool) (m : Nat) (e : Int)
deriving DecidableEq, Repr

/-- The sign bit. -/
def fpNeg (w v : Nat) : Bool := v.testBit (w - 1)
/-- The encoding without its sign. -/
def fpAbs (w v : Nat) : Nat := v % 2 ^ (w - 1)
/-- An encoding with a sign. -/
def fpSign (w : Nat) (neg : Bool) (mag : Nat) : Nat := if neg then mag + 2 ^ (w - 1) else mag

/-- The value of an encoding. -/
def fpOf (w v : Nat) : FpVal :=
  let frac := v % 2 ^ fpFrac w
  let ex := fpAbs w v / 2 ^ fpFrac w
  if ex = fpExpAll w then
    if frac = 0 then .inf (fpNeg w v) else .nan (frac.testBit (fpFrac w - 1))
  else if ex = 0 then .fin (fpNeg w v) frac (fpLeast w)
  else .fin (fpNeg w v) (frac + 2 ^ fpFrac w) (fpLeast w + ex - 1)

/-- The encoding is a NaN. -/
def fpNan (w v : Nat) : Bool := match fpOf w v with | .nan _ => true | _ => false
/-- The encoding is a signalling NaN (R162). -/
def fpSnan (w v : Nat) : Bool := match fpOf w v with | .nan q => !q | _ => false

/-- Infinity. -/
def fpInf (w : Nat) (neg : Bool) : Nat := fpSign w neg (fpExpAll w * 2 ^ fpFrac w)
/-- The largest finite value. -/
def fpBig (w : Nat) (neg : Bool) : Nat := fpSign w neg (fpExpAll w * 2 ^ fpFrac w - 1)
/-- The canonical quiet NaN (R162). -/
def fpCanon (w : Nat) : Nat := fpExpAll w * 2 ^ fpFrac w + 2 ^ (fpFrac w - 1)
/-- A NaN made quiet: its fraction MSB set (R162). -/
def fpQuiet (w v : Nat) : Nat := v ||| 2 ^ (fpFrac w - 1)

/-! ### Results -/

/-- A result and the flags of FPS that it signals: 16 NV, 8 DZ, 4 OF, 2 UF, 1 NX. -/
structure FpRes where
  val : Nat
  ex : Nat
deriving DecidableEq, Repr

/-- A discarded part rounds the kept part up in magnitude: `rem` of 2^k discarded, `n` kept. Directions: 0 to nearest ties to
even, 1 toward zero, 2 toward +infinity, 3 toward −infinity (FPC.RM). -/
def roundsUp (rm : Nat) (neg : Bool) (n rem k : Nat) : Bool :=
  if rem = 0 then false
  else if rm = 0 then decide (2 ^ k < 2 * rem) || (2 * rem == 2 ^ k && n % 2 == 1)
  else if rm = 1 then false
  else if rm = 2 then !neg
  else neg

/-- m × 2^e as a multiple of 2^q: the multiple, and whether it is inexact. -/
def roundAt (rm : Nat) (neg : Bool) (m : Nat) (e q : Int) : Nat × Bool :=
  if q ≤ e then (m * 2 ^ (e - q).toNat, false)
  else
    let k := (q - e).toNat
    let n := m / 2 ^ k
    let rem := m % 2 ^ k
    (n + b2n (roundsUp rm neg n rem k), rem != 0)

/-- The encoding of n × 2^q, where n has at most p bits, or is 2^p. -/
def fpPack (w : Nat) (neg : Bool) (n : Nat) (q : Int) : Nat :=
  if n < 2 ^ fpFrac w then fpSign w neg n
  else fpSign w neg (n + (q - fpLeast w).toNat * 2 ^ fpFrac w)

/-- An exact value ± m × 2^e rounded once to the format (R158 to R160). -/
def fpRound (w rm : Nat) (neg : Bool) (m : Nat) (e : Int) : FpRes :=
  if m = 0 then ⟨fpSign w neg 0, 0⟩
  else
    let q : Int := bitLen m + e - fpPrec w
    let free := roundAt rm neg m e q
    let tiny : Bool := decide ((bitLen free.1 : Int) + q ≤ fpMin w)
    let q' := max q (fpLeast w)
    let r := roundAt rm neg m e q'
    if (fpMax w : Int) < bitLen r.1 + q' - 1 then
      let up := rm = 0 ∨ (rm = 2 ∧ ¬ neg) ∨ (rm = 3 ∧ neg)
      ⟨if up then fpInf w neg else fpBig w neg, 5⟩
    else ⟨fpPack w neg r.1 q', b2n r.2 + 2 * b2n (tiny && r.2)⟩

/-- The NaN that a result carries: the first NaN operand in the order a, b, d, quieted (R133); NV for a signalling one. -/
def fpNanRes (w : Nat) (vs : List Nat) : Option FpRes :=
  (vs.find? (fpNan w)).map fun v => ⟨fpQuiet w v, if vs.any (fpSnan w) then 16 else 0⟩
/-- An invalid operation without a NaN operand. -/
def fpInvalid (w : Nat) : FpRes := ⟨fpCanon w, 16⟩

/-- The sum of two exact values, rounded; the sign of an exact zero by R161. -/
def fpSum (w rm : Nat) (n1 : Bool) (m1 : Nat) (e1 : Int) (n2 : Bool) (m2 : Nat) (e2 : Int) : FpRes :=
  let e := min e1 e2
  let i (n : Bool) (m : Nat) (x : Int) : Int := let v : Int := (m * 2 ^ (x - e).toNat : Nat); if n then -v else v
  let t := i n1 m1 e1 + i n2 m2 e2
  if t = 0 then ⟨fpSign w (if n1 = n2 then n1 else rm == 3) 0, 0⟩
  else fpRound w rm (decide (t < 0)) t.natAbs e

/-- The sum of two values that are not NaNs. -/
def fpAddVal (w rm : Nat) : FpVal → FpVal → FpRes
  | .inf a, .inf b => if a = b then ⟨fpInf w a, 0⟩ else fpInvalid w
  | .inf a, _ => ⟨fpInf w a, 0⟩
  | _, .inf b => ⟨fpInf w b, 0⟩
  | .fin n1 m1 e1, .fin n2 m2 e2 => fpSum w rm n1 m1 e1 n2 m2 e2
  | _, _ => fpInvalid w

/-- A value with its sign inverted. -/
def FpVal.negate : FpVal → FpVal
  | .nan q => .nan q
  | .inf n => .inf (!n)
  | .fin n m e => .fin (!n) m e

/-- FADD. -/
def fpAdd (w rm a b : Nat) : FpRes := (fpNanRes w [a, b]).getD (fpAddVal w rm (fpOf w a) (fpOf w b))
/-- FSUB; a NaN operand keeps its sign (R162). -/
def fpSub (w rm a b : Nat) : FpRes := (fpNanRes w [a, b]).getD (fpAddVal w rm (fpOf w a) (fpOf w b).negate)

/-- The exact product of two values that are not NaNs; a NaN for 0 × infinity. -/
def fpProd : FpVal → FpVal → FpVal
  | .fin n1 m1 e1, .fin n2 m2 e2 => .fin (n1 != n2) (m1 * m2) (e1 + e2)
  | .inf a, .inf b => .inf (a != b)
  | .inf a, .fin b m _ => if m = 0 then .nan true else .inf (a != b)
  | .fin b m _, .inf a => if m = 0 then .nan true else .inf (a != b)
  | _, _ => .nan true

/-- FMUL. -/
def fpMul (w rm a b : Nat) : FpRes :=
  (fpNanRes w [a, b]).getD (match fpProd (fpOf w a) (fpOf w b) with
    | .nan _ => fpInvalid w
    | .inf n => ⟨fpInf w n, 0⟩
    | .fin n m e => fpRound w rm n m e)

/-- FDIV: a quotient of p + 3 bits or more, and a sticky bit for what it leaves. -/
def fpDiv (w rm a b : Nat) : FpRes :=
  (fpNanRes w [a, b]).getD (match fpOf w a, fpOf w b with
    | .inf _, .inf _ => fpInvalid w
    | .inf x, .fin y _ _ => ⟨fpInf w (x != y), 0⟩
    | .fin x _ _, .inf y => ⟨fpSign w (x != y) 0, 0⟩
    | .fin x m1 e1, .fin y m2 e2 =>
      if m2 = 0 then (if m1 = 0 then fpInvalid w else ⟨fpInf w (x != y), 8⟩)
      else
        let k := fpPrec w + 3 + bitLen m2
        let q := m1 * 2 ^ k / m2
        let sticky := m1 * 2 ^ k % m2 != 0
        fpRound w rm (x != y) (2 * q + b2n sticky) (e1 - e2 - k - 1)
    | _, _ => fpInvalid w)

/-- The integer square root of a number below 2^180, bit by bit from the highest. -/
def isqrt (n : Nat) : Nat := (upto 90).foldl (fun r i => let t := r + 2 ^ (89 - i); if t * t ≤ n then t else r) 0

/-- FSQRT. -/
def fpSqrt (w rm a : Nat) : FpRes :=
  (fpNanRes w [a]).getD (match fpOf w a with
    | .inf n => if n then fpInvalid w else ⟨fpInf w false, 0⟩
    | .fin n m e =>
      if m = 0 then ⟨a, 0⟩
      else if n then fpInvalid w
      else
        let sh := 2 * (fpPrec w + 3) + (e % 2).toNat
        let x := m * 2 ^ sh
        let r := isqrt x
        fpRound w rm false (2 * r + b2n (r * r != x)) ((e - sh) / 2 - 1)
    | _ => fpInvalid w)

/-- FMA (`sub` false) and FMSUB: one rounding of the exact sum. A product of 0 and infinity signals NV whatever d is (R162). -/
def fpFma (w rm : Nat) (sub : Bool) (a b d : Nat) : FpRes :=
  let p := if fpNan w a ∨ fpNan w b then FpVal.nan true else fpProd (fpOf w a) (fpOf w b)
  let bad : Bool := !(fpNan w a || fpNan w b) && (match p with | .nan _ => true | _ => false)
  match fpNanRes w [a, b, d] with
  | some r => ⟨r.val, if bad then 16 else r.ex⟩
  | none => if bad then fpInvalid w else fpAddVal w rm (if sub then p.negate else p) (fpOf w d)

/-! ### Comparison -/

/-- An encoding that is not a NaN as an integer that grows with its value. -/
def fpKey (w v : Nat) : Int := if fpNeg w v then -(fpAbs w v : Int) else fpAbs w v

/-- FMIN (`mx` false) and FMAX (R133): −0 is less than +0. -/
def fpMinMax (w : Nat) (mx : Bool) (a b : Nat) : FpRes :=
  let nv := if fpSnan w a ∨ fpSnan w b then 16 else 0
  if fpNan w a then (if fpNan w b then ⟨fpQuiet w a, nv⟩ else ⟨b, nv⟩)
  else if fpNan w b then ⟨a, nv⟩
  else
    let less := decide (fpKey w a < fpKey w b) || (fpKey w a == fpKey w b && fpNeg w a)
    ⟨if less != mx then a else b, nv⟩

/-- FCMP and FCMP.S (`sig`): the flags of Table 41 and the exception (R135). -/
def fpCmp (w : Nat) (sig : Bool) (a b : Nat) : Flags × Nat :=
  let nan := fpNan w a || fpNan w b
  let nv := if fpSnan w a ∨ fpSnan w b ∨ (sig ∧ nan) then 16 else 0
  (if nan then ⟨true, false, false, true, false⟩
   else if fpKey w a < fpKey w b then ⟨false, true, false, false, false⟩
   else if fpKey w a = fpKey w b then ⟨false, false, true, false, true⟩
   else ⟨false, false, false, false, true⟩, nv)

/-- FCLASS (R136). -/
def fpClass (w v : Nat) : Nat :=
  match fpOf w v with
  | .inf n => if n then 1 else 128
  | .nan q => if q then 512 else 256
  | .fin n m _ =>
    if m = 0 then (if n then 8 else 16)
    else if m < 2 ^ fpFrac w then (if n then 4 else 32)
    else (if n then 2 else 64)

/-! ### Conversions (R136, R162, R163) -/

/-- FCVTF from the format of `v` bits to that of `w` bits. -/
def fpToFp (w rm v a : Nat) : FpRes :=
  match fpOf v a with
  | .nan q =>
    let frac := a % 2 ^ fpFrac v
    let f := if w = 64 then frac * 2 ^ 29 else frac / 2 ^ 29
    ⟨fpQuiet w (fpSign w (fpNeg v a) (fpExpAll w * 2 ^ fpFrac w + f)), if q then 0 else 16⟩
  | .inf n => ⟨fpInf w n, 0⟩
  | .fin n m e => fpRound w rm n m e

/-- FCVTI.S and FCVTI.U (`sgn`) to an integer of `w` bits from the format of `v` bits. -/
def fpToInt (w rm v : Nat) (sgn : Bool) (a : Nat) : FpRes :=
  let lo : Int := if sgn then -(2 ^ (w - 1) : Nat) else 0
  let hi : Int := if sgn then (2 ^ (w - 1) : Nat) - 1 else (2 ^ w : Nat) - 1
  match fpOf v a with
  | .nan _ => ⟨wrap w hi, 16⟩
  | .inf n => ⟨wrap w (if n then lo else hi), 16⟩
  | .fin n m e =>
    let r := roundAt rm n m e 0
    let i : Int := if n then -(r.1 : Int) else r.1
    if i < lo then ⟨wrap w lo, 16⟩ else if hi < i then ⟨wrap w hi, 16⟩ else ⟨wrap w i, b2n r.2⟩

/-- ICVTF of an integer of `v` bits. -/
def fpFromInt (w rm v : Nat) (sgn : Bool) (a : Nat) : FpRes :=
  let i : Int := if sgn then signed v a else (a : Int)
  fpRound w rm (decide (i < 0)) i.natAbs 0

/-- FRINT (R136, R161): a NaN comes back quieted. -/
def fpInt (w rm a : Nat) : FpRes :=
  match fpOf w a with
  | .nan q => ⟨fpQuiet w a, if q then 0 else 16⟩
  | .inf _ => ⟨a, 0⟩
  | .fin n m e =>
    let r := roundAt rm n m e 0
    ⟨if r.1 = 0 then fpSign w n 0 else (fpRound w 1 n r.1 0).val, b2n r.2⟩

end Sys2Proof.Machine
end

