-- ==== Sys2Proof/Machine/Moves.lean ====
section
/-! DEFINITION. Moves, flags and conversions (Table 33). -/
namespace Sys2Proof.Machine

/-- MOV: the source to the destination. -/
def execMov (g : Tid) (s : State) : Host.Outcome State Fault Refusal :=
  .next (s.alu g.toNat 0x001 fun c => nzRes c.w c.fl (c.v 1))
/-- LDI: the short immediate to the destination. -/
def execLdi (g : Tid) (s : State) : Host.Outcome State Fault Refusal :=
  .next (s.alu g.toNat 0x002 fun c => nzRes c.w c.fl (wrap c.w c.h.imm))
/-- SWAP: both operands, read before either is written; operand 1 is written first (R119). -/
def execSwap (g : Tid) (s : State) : Host.Outcome State Fault Refusal :=
  .next (s.instr g.toNat 0x003 fun c s => .ok ⟨s, [out 0 (c.v 1), out 1 (c.v 0)], none, .seq, 0⟩)
/-- CLR: 0 to the destination. -/
def execClr (g : Tid) (s : State) : Host.Outcome State Fault Refusal :=
  .next (s.alu g.toNat 0x004 fun c => nzRes c.w c.fl 0)
/-- NOP. -/
def execNop (g : Tid) (s : State) : Host.Outcome State Fault Refusal :=
  .next (s.effect g.toNat 0x005 fun _ s => s)
/-- FLG.SET: the mask of XF (R118). -/
def execFlgSet (g : Tid) (s : State) : Host.Outcome State Fault Refusal :=
  .next (s.effect g.toNat 0x006 fun c s => s.setThr c.g (pairEffect c.h (s.thr c.g)))
/-- FLG.CLR: the mask of XF (R118). -/
def execFlgClr (g : Tid) (s : State) : Host.Outcome State Fault Refusal :=
  .next (s.effect g.toNat 0x007 fun c s => s.setThr c.g (pairEffect c.h (s.thr c.g)))
/-- SEXT: the source at the width of XF, sign-extended (R118). -/
def execSext (g : Tid) (s : State) : Host.Outcome State Fault Refusal :=
  .next (s.alu g.toNat 0x008 fun c => nzRes c.w c.fl (wrap c.w (signed (szBits c.h.xf) (c.v 1))))
/-- ZEXT: the source at the width of XF, zero-extended. -/
def execZext (g : Tid) (s : State) : Host.Outcome State Fault Refusal :=
  .next (s.alu g.toNat 0x009 fun c => nzRes c.w c.fl (c.v 1))
/-- BSWAP: the bytes in reverse order. -/
def execBswap (g : Tid) (s : State) : Host.Outcome State Fault Refusal :=
  .next (s.alu g.toNat 0x00A fun c => nzRes c.w c.fl (ofBytes (toBytes (c.w / 8) (c.v 1)).reverse))
/-- LEA: the address that operand 2 forms (R120). -/
def execLea (g : Tid) (s : State) : Host.Outcome State Fault Refusal :=
  .next (s.instr g.toNat 0x00B fun c s => .ok ⟨s, [out 0 (c.v 1)], none, .seq, 0⟩)
/-- SATN.S: the source clamped to the signed range of the width of XF (R118). -/
def execSatnS (g : Tid) (s : State) : Host.Outcome State Fault Refusal :=
  .next (s.alu g.toNat 0x010 fun c => satS (szBits c.h.xf) c.fl (signed c.w (c.v 1)))
/-- SATN.U: the source, read as signed, clamped to the unsigned range of the width of XF (R118). -/
def execSatnU (g : Tid) (s : State) : Host.Outcome State Fault Refusal :=
  .next (s.alu g.toNat 0x011 fun c => satU (szBits c.h.xf) c.fl (signed c.w (c.v 1)))

end Sys2Proof.Machine
end

