-- ==== Sys2Proof/Machine/Integer.lean ====
section
/-! DEFINITION. Integer arithmetic and comparison (Table 34). -/
namespace Sys2Proof.Machine

/-- ADD. -/
def execAdd (g : Tid) (s : State) : Host.Outcome State Fault Refusal :=
  .next (s.alu g.toNat 0x040 fun c => addRes c.w c.fl (c.v 1) (c.v 2) 0)
/-- ADDC: with the carry of FLG (R121). -/
def execAddc (g : Tid) (s : State) : Host.Outcome State Fault Refusal :=
  .next (s.alu g.toNat 0x041 fun c => addRes c.w c.fl (c.v 1) (c.v 2) (b2n c.fl.c))
/-- SUB. -/
def execSub (g : Tid) (s : State) : Host.Outcome State Fault Refusal :=
  .next (s.alu g.toNat 0x042 fun c => subRes c.w c.fl (c.v 1) (c.v 2) 0)
/-- SUBC: less 1 − C. -/
def execSubc (g : Tid) (s : State) : Host.Outcome State Fault Refusal :=
  .next (s.alu g.toNat 0x043 fun c => subRes c.w c.fl (c.v 1) (c.v 2) (b2n (!c.fl.c)))
/-- ADD.SS (R121). -/
def execAddSs (g : Tid) (s : State) : Host.Outcome State Fault Refusal :=
  .next (s.alu g.toNat 0x044 fun c => satS c.w c.fl (signed c.w (c.v 1) + signed c.w (c.v 2)))
/-- ADD.SU. -/
def execAddSu (g : Tid) (s : State) : Host.Outcome State Fault Refusal :=
  .next (s.alu g.toNat 0x045 fun c => satU c.w c.fl ((c.v 1 : Int) + c.v 2))
/-- SUB.SS. -/
def execSubSs (g : Tid) (s : State) : Host.Outcome State Fault Refusal :=
  .next (s.alu g.toNat 0x046 fun c => satS c.w c.fl (signed c.w (c.v 1) - signed c.w (c.v 2)))
/-- SUB.SU: saturating at 0. -/
def execSubSu (g : Tid) (s : State) : Host.Outcome State Fault Refusal :=
  .next (s.alu g.toNat 0x047 fun c => satU c.w c.fl ((c.v 1 : Int) - c.v 2))
/-- NEG: 0 − a, so that C is 1 exactly when a is 0 (R121). -/
def execNeg (g : Tid) (s : State) : Host.Outcome State Fault Refusal :=
  .next (s.alu g.toNat 0x048 fun c => subRes c.w c.fl 0 (c.v 1) 0)
/-- ABS: the most negative value stays and sets V; C stays. -/
def execAbs (g : Tid) (s : State) : Host.Outcome State Fault Refusal :=
  .next (s.alu g.toNat 0x049 fun c =>
    let i : Int := ((signed c.w (c.v 1)).natAbs : Int)
    let r := wrap c.w i
    ⟨r, { c.fl.nz c.w r with v := !fitsS c.w i }⟩)
/-- ADDI. -/
def execAddi (g : Tid) (s : State) : Host.Outcome State Fault Refusal :=
  .next (s.alu g.toNat 0x04A fun c => addRes c.w c.fl (c.v 1) (wrap c.w c.h.imm) 0)
/-- CMP. -/
def execCmp (g : Tid) (s : State) : Host.Outcome State Fault Refusal :=
  .next (s.test g.toNat 0x050 fun c => (subRes c.w c.fl (c.v 0) (c.v 1) 0).fl)
/-- CMN. -/
def execCmn (g : Tid) (s : State) : Host.Outcome State Fault Refusal :=
  .next (s.test g.toNat 0x051 fun c => (addRes c.w c.fl (c.v 0) (c.v 1) 0).fl)
/-- CMPI. -/
def execCmpi (g : Tid) (s : State) : Host.Outcome State Fault Refusal :=
  .next (s.test g.toNat 0x052 fun c => (subRes c.w c.fl (c.v 0) (wrap c.w c.h.imm) 0).fl)
/-- MIN.S. -/
def execMinS (g : Tid) (s : State) : Host.Outcome State Fault Refusal :=
  .next (s.alu g.toNat 0x054 fun c => nzRes c.w c.fl (if signed c.w (c.v 2) < signed c.w (c.v 1) then c.v 2 else c.v 1))
/-- MIN.U. -/
def execMinU (g : Tid) (s : State) : Host.Outcome State Fault Refusal :=
  .next (s.alu g.toNat 0x055 fun c => nzRes c.w c.fl (min (c.v 1) (c.v 2)))
/-- MAX.S. -/
def execMaxS (g : Tid) (s : State) : Host.Outcome State Fault Refusal :=
  .next (s.alu g.toNat 0x056 fun c => nzRes c.w c.fl (if signed c.w (c.v 1) < signed c.w (c.v 2) then c.v 2 else c.v 1))
/-- MAX.U. -/
def execMaxU (g : Tid) (s : State) : Host.Outcome State Fault Refusal :=
  .next (s.alu g.toNat 0x057 fun c => nzRes c.w c.fl (max (c.v 1) (c.v 2)))

end Sys2Proof.Machine
end

