-- ==== Sys2Proof/Machine/Logic.lean ====
section
/-! DEFINITION. Logic, shifts, rotates and counts (Table 35). -/
namespace Sys2Proof.Machine

/-- The complement of `w` bits. -/
def notW (w a : Nat) : Nat := 2 ^ w - 1 - a % 2 ^ w

/-- SHL by a count (R122). -/
def shlRes (w : Nat) (f : Flags) (a n : Nat) : Res :=
  let r := if w ≤ n then 0 else a * 2 ^ n % 2 ^ w
  ⟨r, { f.nz w r with c := if n = 0 then f.c else decide (n ≤ w) && a.testBit (w - n) }⟩
/-- SHR by a count (R122). -/
def shrRes (w : Nat) (f : Flags) (a n : Nat) : Res :=
  let r := if w ≤ n then 0 else a / 2 ^ n
  ⟨r, { f.nz w r with c := if n = 0 then f.c else decide (n ≤ w) && a.testBit (n - 1) }⟩
/-- SAR by a count: w copies of the sign bit from a count of w on (R122). -/
def sarRes (w : Nat) (f : Flags) (a n : Nat) : Res :=
  let r := wrap w (signed w a / (2 ^ min n w : Nat))
  ⟨r, { f.nz w r with c := if n = 0 then f.c else a.testBit (min n w - 1) }⟩
/-- ROL by a count (R122). -/
def rolRes (w : Nat) (f : Flags) (a n : Nat) : Res :=
  let k := n % w
  let r := (a * 2 ^ k + a / 2 ^ (w - k)) % 2 ^ w
  ⟨r, { f.nz w r with c := if n = 0 then f.c else r.testBit 0 }⟩
/-- ROR by a count (R122). -/
def rorRes (w : Nat) (f : Flags) (a n : Nat) : Res :=
  let k := n % w
  let r := (a / 2 ^ k + a * 2 ^ (w - k)) % 2 ^ w
  ⟨r, { f.nz w r with c := if n = 0 then f.c else r.testBit (w - 1) }⟩

/-- The bits in reverse order. -/
def bitRev (w a : Nat) : Nat := (upto w).foldl (fun n i => n + b2n (a.testBit i) * 2 ^ (w - 1 - i)) 0

/-- AND. -/
def execAnd (g : Tid) (s : State) : Host.Outcome State Fault Refusal :=
  .next (s.alu g.toNat 0x080 fun c => nzRes c.w c.fl (c.v 1 &&& c.v 2))
/-- OR. -/
def execOr (g : Tid) (s : State) : Host.Outcome State Fault Refusal :=
  .next (s.alu g.toNat 0x081 fun c => nzRes c.w c.fl (c.v 1 ||| c.v 2))
/-- XOR. -/
def execXor (g : Tid) (s : State) : Host.Outcome State Fault Refusal :=
  .next (s.alu g.toNat 0x082 fun c => nzRes c.w c.fl (c.v 1 ^^^ c.v 2))
/-- ANDN. -/
def execAndn (g : Tid) (s : State) : Host.Outcome State Fault Refusal :=
  .next (s.alu g.toNat 0x083 fun c => nzRes c.w c.fl (c.v 1 &&& notW c.w (c.v 2)))
/-- ORN. -/
def execOrn (g : Tid) (s : State) : Host.Outcome State Fault Refusal :=
  .next (s.alu g.toNat 0x084 fun c => nzRes c.w c.fl (c.v 1 ||| notW c.w (c.v 2)))
/-- XNOR. -/
def execXnor (g : Tid) (s : State) : Host.Outcome State Fault Refusal :=
  .next (s.alu g.toNat 0x085 fun c => nzRes c.w c.fl (notW c.w (c.v 1 ^^^ c.v 2)))
/-- NOT. -/
def execNot (g : Tid) (s : State) : Host.Outcome State Fault Refusal :=
  .next (s.alu g.toNat 0x086 fun c => nzRes c.w c.fl (notW c.w (c.v 1)))
/-- TST. -/
def execTst (g : Tid) (s : State) : Host.Outcome State Fault Refusal :=
  .next (s.test g.toNat 0x087 fun c => c.fl.nz c.w (c.v 0 &&& c.v 1))
/-- ANDI. -/
def execAndi (g : Tid) (s : State) : Host.Outcome State Fault Refusal :=
  .next (s.alu g.toNat 0x088 fun c => nzRes c.w c.fl (c.v 1 &&& wrap c.w c.h.imm))
/-- ORI. -/
def execOri (g : Tid) (s : State) : Host.Outcome State Fault Refusal :=
  .next (s.alu g.toNat 0x089 fun c => nzRes c.w c.fl (c.v 1 ||| wrap c.w c.h.imm))
/-- XORI. -/
def execXori (g : Tid) (s : State) : Host.Outcome State Fault Refusal :=
  .next (s.alu g.toNat 0x08A fun c => nzRes c.w c.fl (c.v 1 ^^^ wrap c.w c.h.imm))
/-- TSTI. -/
def execTsti (g : Tid) (s : State) : Host.Outcome State Fault Refusal :=
  .next (s.test g.toNat 0x08B fun c => c.fl.nz c.w (c.v 0 &&& wrap c.w c.h.imm))
/-- SHL. -/
def execShl (g : Tid) (s : State) : Host.Outcome State Fault Refusal :=
  .next (s.alu g.toNat 0x090 fun c => shlRes c.w c.fl (c.v 1) (c.v 2))
/-- SHR. -/
def execShr (g : Tid) (s : State) : Host.Outcome State Fault Refusal :=
  .next (s.alu g.toNat 0x091 fun c => shrRes c.w c.fl (c.v 1) (c.v 2))
/-- SAR. -/
def execSar (g : Tid) (s : State) : Host.Outcome State Fault Refusal :=
  .next (s.alu g.toNat 0x092 fun c => sarRes c.w c.fl (c.v 1) (c.v 2))
/-- ROL. -/
def execRol (g : Tid) (s : State) : Host.Outcome State Fault Refusal :=
  .next (s.alu g.toNat 0x093 fun c => rolRes c.w c.fl (c.v 1) (c.v 2))
/-- ROR. -/
def execRor (g : Tid) (s : State) : Host.Outcome State Fault Refusal :=
  .next (s.alu g.toNat 0x094 fun c => rorRes c.w c.fl (c.v 1) (c.v 2))
/-- SHLI. -/
def execShli (g : Tid) (s : State) : Host.Outcome State Fault Refusal :=
  .next (s.alu g.toNat 0x098 fun c => shlRes c.w c.fl (c.v 1) c.h.xf)
/-- SHRI. -/
def execShri (g : Tid) (s : State) : Host.Outcome State Fault Refusal :=
  .next (s.alu g.toNat 0x099 fun c => shrRes c.w c.fl (c.v 1) c.h.xf)
/-- SARI. -/
def execSari (g : Tid) (s : State) : Host.Outcome State Fault Refusal :=
  .next (s.alu g.toNat 0x09A fun c => sarRes c.w c.fl (c.v 1) c.h.xf)
/-- ROLI. -/
def execRoli (g : Tid) (s : State) : Host.Outcome State Fault Refusal :=
  .next (s.alu g.toNat 0x09B fun c => rolRes c.w c.fl (c.v 1) c.h.xf)
/-- RORI. -/
def execRori (g : Tid) (s : State) : Host.Outcome State Fault Refusal :=
  .next (s.alu g.toNat 0x09C fun c => rorRes c.w c.fl (c.v 1) c.h.xf)
/-- CLZ; of 0 it is w (R122). -/
def execClz (g : Tid) (s : State) : Host.Outcome State Fault Refusal :=
  .next (s.alu g.toNat 0x0A0 fun c => nzRes c.w c.fl (c.w - bitLen (c.v 1)))
/-- CTZ; of 0 it is w (R122). -/
def execCtz (g : Tid) (s : State) : Host.Outcome State Fault Refusal :=
  .next (s.alu g.toNat 0x0A1 fun c => nzRes c.w c.fl (((upto c.w).find? fun i => (c.v 1).testBit i).getD c.w))
/-- POPC. -/
def execPopc (g : Tid) (s : State) : Host.Outcome State Fault Refusal :=
  .next (s.alu g.toNat 0x0A2 fun c => nzRes c.w c.fl (popCount c.w (c.v 1)))
/-- BREV. -/
def execBrev (g : Tid) (s : State) : Host.Outcome State Fault Refusal :=
  .next (s.alu g.toNat 0x0A3 fun c => nzRes c.w c.fl (bitRev c.w (c.v 1)))

end Sys2Proof.Machine
end

