-- ==== Sys2Proof/Machine/BitOps.lean ====
section
/-! DEFINITION. Bits and bit fields (Table 36). In bit space, where each bit has its own write enable (R104), an instruction that
changes some bits of its destination writes those bits alone. -/
namespace Sys2Proof.Machine

/-- Bit `i` of operand 1 takes the value that `f` gives for the old one; B is the old bit. -/
def State.bitOp (s : State) (g op : Nat) (idx : In → Nat) (f : Bool → Bool) : State :=
  s.instr g op fun c s =>
    let i := idx c
    let old := (c.v 0).testBit i
    let v := if f old then c.v 0 ||| 2 ^ i else c.v 0 &&& notW 64 (2 ^ i)
    .ok ⟨s, [⟨0, v, 2 ^ i⟩], some { c.fl with b := old }, .seq, 0⟩

/-- BSET. -/
def execBset (g : Tid) (s : State) : Host.Outcome State Fault Refusal :=
  .next (s.bitOp g.toNat 0x0C0 (fun c => c.h.xf) fun _ => true)
/-- BCLR. -/
def execBclr (g : Tid) (s : State) : Host.Outcome State Fault Refusal :=
  .next (s.bitOp g.toNat 0x0C1 (fun c => c.h.xf) fun _ => false)
/-- BTGL. -/
def execBtgl (g : Tid) (s : State) : Host.Outcome State Fault Refusal :=
  .next (s.bitOp g.toNat 0x0C2 (fun c => c.h.xf) fun b => !b)
/-- BTST. -/
def execBtst (g : Tid) (s : State) : Host.Outcome State Fault Refusal :=
  .next (s.test g.toNat 0x0C3 fun c => { c.fl with b := (c.v 0).testBit c.h.xf })
/-- BSETR: bit a mod w. -/
def execBsetr (g : Tid) (s : State) : Host.Outcome State Fault Refusal :=
  .next (s.bitOp g.toNat 0x0C4 (fun c => c.v 1 % c.w) fun _ => true)
/-- BCLRR: bit a mod w. -/
def execBclrr (g : Tid) (s : State) : Host.Outcome State Fault Refusal :=
  .next (s.bitOp g.toNat 0x0C5 (fun c => c.v 1 % c.w) fun _ => false)
/-- BTGLR: bit a mod w. -/
def execBtglr (g : Tid) (s : State) : Host.Outcome State Fault Refusal :=
  .next (s.bitOp g.toNat 0x0C6 (fun c => c.v 1 % c.w) fun b => !b)
/-- BTSTR: bit b mod w. -/
def execBtstr (g : Tid) (s : State) : Host.Outcome State Fault Refusal :=
  .next (s.test g.toNat 0x0C7 fun c => { c.fl with b := (c.v 0).testBit (c.v 1 % c.w) })

/-- A single-bit instruction: its result, which is also B (R123). -/
def State.bit1 (s : State) (g op : Nat) (f : In → Bool) : State :=
  s.instr g op fun c s => .ok ⟨s, [out 0 (b2n (f c))], some { c.fl with b := f c }, .seq, 0⟩
/-- A single-bit operand as a Boolean. -/
def In.b (c : In) (i : Nat) : Bool := c.v i == 1

/-- BMOV. -/
def execBmov (g : Tid) (s : State) : Host.Outcome State Fault Refusal := .next (s.bit1 g.toNat 0x0D0 fun c => c.b 1)
/-- BNOT. -/
def execBnot (g : Tid) (s : State) : Host.Outcome State Fault Refusal := .next (s.bit1 g.toNat 0x0D1 fun c => !c.b 1)
/-- BAND. -/
def execBand (g : Tid) (s : State) : Host.Outcome State Fault Refusal := .next (s.bit1 g.toNat 0x0D2 fun c => c.b 1 && c.b 2)
/-- BOR. -/
def execBor (g : Tid) (s : State) : Host.Outcome State Fault Refusal := .next (s.bit1 g.toNat 0x0D3 fun c => c.b 1 || c.b 2)
/-- BXOR. -/
def execBxor (g : Tid) (s : State) : Host.Outcome State Fault Refusal := .next (s.bit1 g.toNat 0x0D4 fun c => c.b 1 != c.b 2)
/-- BANDN. -/
def execBandn (g : Tid) (s : State) : Host.Outcome State Fault Refusal := .next (s.bit1 g.toNat 0x0D5 fun c => c.b 1 && !c.b 2)
/-- BLD: B takes the bit. -/
def execBld (g : Tid) (s : State) : Host.Outcome State Fault Refusal :=
  .next (s.test g.toNat 0x0D6 fun c => { c.fl with b := c.b 0 })
/-- BSTF: the bit takes B. -/
def execBstf (g : Tid) (s : State) : Host.Outcome State Fault Refusal :=
  .next (s.instr g.toNat 0x0D7 fun c s => .ok ⟨s, [out 0 (b2n c.fl.b)], none, .seq, 0⟩)

/-- POS and width of the field layout (R124). -/
def In.pos (c : In) : Nat := natFld c.h.xf 5 0
def In.len (c : In) : Nat := natFld c.h.xf 11 6 + 1
/-- The field of a value. -/
def In.field (c : In) (v : Nat) : Nat := v / 2 ^ c.pos % 2 ^ c.len
/-- The bits of the field. -/
def In.fieldMask (c : In) : Nat := (2 ^ c.len - 1) * 2 ^ c.pos

/-- BFX.U. -/
def execBfxU (g : Tid) (s : State) : Host.Outcome State Fault Refusal :=
  .next (s.alu g.toNat 0x0E0 fun c => nzRes c.w c.fl (c.field (c.v 1)))
/-- BFX.S. -/
def execBfxS (g : Tid) (s : State) : Host.Outcome State Fault Refusal :=
  .next (s.alu g.toNat 0x0E1 fun c => nzRes c.w c.fl (wrap c.w (signed c.len (c.field (c.v 1)))))

/-- The field of operand 1 takes a value; N and Z describe the whole result. -/
def State.fieldOp (s : State) (g op : Nat) (v : In → Nat) : State :=
  s.instr g op fun c s =>
    let r := (c.v 0 &&& notW 64 c.fieldMask) ||| (v c % 2 ^ c.len * 2 ^ c.pos)
    .ok ⟨s, [⟨0, r, c.fieldMask⟩], some (c.fl.nz c.w r), .seq, 0⟩

/-- BFI. -/
def execBfi (g : Tid) (s : State) : Host.Outcome State Fault Refusal := .next (s.fieldOp g.toNat 0x0E2 fun c => c.v 1)
/-- BFC. -/
def execBfc (g : Tid) (s : State) : Host.Outcome State Fault Refusal := .next (s.fieldOp g.toNat 0x0E3 fun _ => 0)

end Sys2Proof.Machine
end

