-- ==== Sys2Proof/Machine/Branch.lean ====
section
/-! DEFINITION. Branches, calls, returns and hardware loops (Table 37, R78, R117, R125 to R128). -/
namespace Sys2Proof.Machine

/-- A code-address operand. -/
def In.target (c : In) (i : Nat) : Word := BitVec.ofNat 32 (c.v i)
/-- The target of an operand that must be mode 10, which is not read as a source (R100). -/
def In.targetRel (c : In) (i : Nat) : Word := BitVec.ofInt 32 (c.pc.toNat + 4 * signed 27 (fld (c.words.getD i 0) 26 0))
/-- A branch with a test: taken or not (R117). -/
def goIf (b : Bool) (a : Word) : Go := if b then .jump a else .seq

/-- B: the head address + 4 × XF. -/
def execB (g : Tid) (s : State) : Host.Outcome State Fault Refusal :=
  .next (s.instr g.toNat 0x100 fun c s => .ok ⟨s, [], none, .jump (BitVec.ofInt 32 (c.pc.toNat + 4 * c.h.imm)), 0⟩)
/-- JMP. -/
def execJmp (g : Tid) (s : State) : Host.Outcome State Fault Refusal :=
  .next (s.instr g.toNat 0x101 fun c s => .ok ⟨s, [], none, .jump (c.target 0), 0⟩)
/-- CALL: the next sequential address to the destination. -/
def execCall (g : Tid) (s : State) : Host.Outcome State Fault Refusal :=
  .next (s.instr g.toNat 0x102 fun c s => .ok ⟨s, [out 0 c.nxt.toNat], none, .jump (c.target 1), 0⟩)
/-- RET. -/
def execRet (g : Tid) (s : State) : Host.Outcome State Fault Refusal :=
  .next (s.instr g.toNat 0x103 fun c s => .ok ⟨s, [], none, .jump (c.target 0), 0⟩)

/-- RETE: PC and FLG from near offsets 0x000 and 0x004 (R78). -/
def execRete (g : Tid) (s : State) : Host.Outcome State Fault Refusal :=
  .next (s.instr g.toNat 0x104 fun c s =>
    match s.ptrWord c.g .start 0 4 with
    | .error e => .error e
    | .ok (wk, pc) =>
      match s.ptrWord c.g wk 4 4 with
      | .error e => .error e
      | .ok (wk, flg) =>
        let s := s.touchAll wk.reads 1
        .ok ⟨s.setThr c.g { s.thr c.g with flg := BitVec.ofNat 32 flg &&& 0x11F }, [], none, .back (BitVec.ofNat 32 pc), 0⟩)

/-- CBR: the branch test of XF on the flags of a − b; BS and BC test B of FLG (R126). -/
def execCbr (g : Tid) (s : State) : Host.Outcome State Fault Refusal :=
  .next (s.instr g.toNat 0x108 fun c s =>
    let fl := (subRes c.w c.fl (c.v 0) (c.v 1) 0).fl
    .ok ⟨s, [], some fl, goIf (fl.holds c.h.xf) (c.targetRel 2), 0⟩)
/-- DJNZ: it wraps at SZ (R126). -/
def execDjnz (g : Tid) (s : State) : Host.Outcome State Fault Refusal :=
  .next (s.instr g.toNat 0x109 fun c s =>
    let r := wrap c.w ((c.v 0 : Int) - 1)
    .ok ⟨s, [out 0 r], some (c.fl.nz c.w r), goIf (r != 0) (c.targetRel 1), 0⟩)
/-- BBS. -/
def execBbs (g : Tid) (s : State) : Host.Outcome State Fault Refusal :=
  .next (s.instr g.toNat 0x10A fun c s =>
    let b := (c.v 0).testBit c.h.xf
    .ok ⟨s, [], some { c.fl with b := b }, goIf b (c.targetRel 1), 0⟩)
/-- BBC. -/
def execBbc (g : Tid) (s : State) : Host.Outcome State Fault Refusal :=
  .next (s.instr g.toNat 0x10B fun c s =>
    let b := (c.v 0).testBit c.h.xf
    .ok ⟨s, [], some { c.fl with b := b }, goIf (!b) (c.targetRel 1), 0⟩)

/-- A loop of `count` rounds at level `i` that ends at `le`: a count of 0 branches there (R127). -/
def State.startLoop (s : State) (c : In) (i count : Nat) (le : Word) : Act :=
  ⟨s.setThr c.g ((s.thr c.g).setLoop i ⟨c.nxt, le, BitVec.ofNat 32 count⟩), [], none, goIf (count == 0) le, 0⟩

/-- LOOP. -/
def execLoop (g : Tid) (s : State) : Host.Outcome State Fault Refusal :=
  .next (s.instr g.toNat 0x120 fun c s => .ok (s.startLoop c (c.h.xf % 4) (c.v 0) (c.targetRel 1)))
/-- LOOPI: the count is XF[13:2]. -/
def execLoopi (g : Tid) (s : State) : Host.Outcome State Fault Refusal :=
  .next (s.instr g.toNat 0x121 fun c s => .ok (s.startLoop c (c.h.xf % 4) (natFld c.h.xf 13 2) (c.targetRel 0)))
/-- LBRK: LCi ← 0, PC ← LEi, a taken branch (R128). -/
def execLbrk (g : Tid) (s : State) : Host.Outcome State Fault Refusal :=
  .next (s.instr g.toNat 0x122 fun c s =>
    let l := (s.thr c.g).loop c.h.xf
    .ok ⟨s.setThr c.g ((s.thr c.g).setLoop c.h.xf { l with lc := 0 }), [], none, .jump l.le, 0⟩)

end Sys2Proof.Machine
end

