-- ==== Sys2Proof/Machine/Multiply.lean ====
section
/-! DEFINITION. Multiply, accumulate and divide (Table 39, R130 to R132, R152, R153). -/
namespace Sys2Proof.Machine

/-- Signed and unsigned products of the two sources. -/
def In.prodU (c : In) (i j : Nat) : Nat := c.v i * c.v j
def In.prodS (c : In) (i j : Nat) : Int := signed c.w (c.v i) * signed c.w (c.v j)

/-- P takes a value; N and Z describe all of it, V as given (R152). -/
def State.mulOp (s : State) (g op : Nat) (f : In → Nat) (v : In → Flags → Bool) : State :=
  s.instr g op fun c s =>
    let p := f c
    .ok ⟨s.setThr c.g { s.thr c.g with p := BitVec.ofNat 64 p }, [], some { c.fl.nz 64 p with v := v c c.fl }, .seq, 0⟩

/-- MUL.U. -/
def execMulU (g : Tid) (s : State) : Host.Outcome State Fault Refusal :=
  .next (s.mulOp g.toNat 0x140 (fun c => c.prodU 0 1) fun _ f => f.v)
/-- MUL.S. -/
def execMulS (g : Tid) (s : State) : Host.Outcome State Fault Refusal :=
  .next (s.mulOp g.toNat 0x141 (fun c => wrap 64 (c.prodS 0 1)) fun _ f => f.v)
/-- MUL.L: V when the signed product does not fit in 64 bits. -/
def execMulL (g : Tid) (s : State) : Host.Outcome State Fault Refusal :=
  .next (s.mulOp g.toNat 0x142 (fun c => c.prodU 0 1 % 2 ^ 64) fun c _ => !fitsS 64 (c.prodS 0 1))
/-- MULH.U. -/
def execMulhU (g : Tid) (s : State) : Host.Outcome State Fault Refusal :=
  .next (s.mulOp g.toNat 0x143 (fun c => c.prodU 0 1 / 2 ^ 64) fun _ f => f.v)
/-- MULH.S. -/
def execMulhS (g : Tid) (s : State) : Host.Outcome State Fault Refusal :=
  .next (s.mulOp g.toNat 0x144 (fun c => wrap 128 (c.prodS 0 1) / 2 ^ 64) fun _ f => f.v)
/-- MULD: d the low bits, P as MUL.U or MUL.L, V and C where the signed and unsigned product do not fit in SZ. -/
def execMuld (g : Tid) (s : State) : Host.Outcome State Fault Refusal :=
  .next (s.instr g.toNat 0x145 fun c s =>
    let p := c.prodU 1 2
    let d := p % 2 ^ c.w
    let fl := { c.fl.nz c.w d with c := decide (2 ^ c.w ≤ p), v := !fitsS c.w (c.prodS 1 2) }
    .ok ⟨s.setThr c.g { s.thr c.g with p := BitVec.ofNat 64 p }, [out 0 d], some fl, .seq, 0⟩)

/-- ACC takes ACC + k modulo 2^80; V on signed overflow (R130, R153). -/
def State.macOp (s : State) (g op : Nat) (k : In → Int) : State :=
  s.instr g op fun c s =>
    let i := signed 80 (s.thr c.g).acc.toNat + k c
    let r := wrap 80 i
    .ok ⟨s.setThr c.g { s.thr c.g with acc := BitVec.ofNat 80 r }, [], some { c.fl.nz 80 r with v := !fitsS 80 i }, .seq, 0⟩

/-- MAC.U. -/
def execMacU (g : Tid) (s : State) : Host.Outcome State Fault Refusal :=
  .next (s.macOp g.toNat 0x148 fun c => c.prodU 0 1)
/-- MAC.S. -/
def execMacS (g : Tid) (s : State) : Host.Outcome State Fault Refusal :=
  .next (s.macOp g.toNat 0x149 fun c => c.prodS 0 1)
/-- MSU.U. -/
def execMsuU (g : Tid) (s : State) : Host.Outcome State Fault Refusal :=
  .next (s.macOp g.toNat 0x14A fun c => -(c.prodU 0 1 : Int))
/-- MSU.S. -/
def execMsuS (g : Tid) (s : State) : Host.Outcome State Fault Refusal :=
  .next (s.macOp g.toNat 0x14B fun c => -c.prodS 0 1)
/-- ACC.CLR. -/
def execAccClr (g : Tid) (s : State) : Host.Outcome State Fault Refusal :=
  .next (s.effect g.toNat 0x14C fun c s => s.setThr c.g { s.thr c.g with acc := 0 })
/-- ACC.X: rounded, shifted right and clamped (R131); C stays. -/
def execAccX (g : Tid) (s : State) : Host.Outcome State Fault Refusal :=
  .next (s.instr g.toNat 0x14D fun c s =>
    let sh := natFld c.h.xf 6 0
    let half : Nat := if c.h.xf.testBit 7 ∧ 0 < sh then 2 ^ (sh - 1) else 0
    let r := satS c.w c.fl ((signed 80 (s.thr c.g).acc.toNat + half) / (2 ^ sh : Nat))
    .ok ⟨s, [out 0 r.val], some r.fl, .seq, 0⟩)

/-- Q and REM of a division at `w` bits, each as its SZ-bit result extended to 64 bits, and V (R132). -/
def divRes (w : Nat) (sgn : Bool) (a b : Nat) : Nat × Nat × Bool :=
  let x := signed w a
  let y := signed w b
  let ext (i : Int) : Nat := wrap 64 (signed w (wrap w i))
  if sgn then
    if b = 0 then (ext (if 0 ≤ x then (2 ^ (w - 1) : Nat) - 1 else -(2 ^ (w - 1) : Nat)), ext x, true)
    else (ext (x.tdiv y), ext (x.tmod y), !fitsS w (x.tdiv y))
  else if b = 0 then (2 ^ w - 1, a, true)
  else (a / b, a % b, false)

/-- A division: Q and REM are in force when it completes (R148, R156); N and Z describe Q at SZ (R152). -/
def State.divOp (s : State) (g op : Nat) (sgn : Bool) : State :=
  s.instr g op fun c s =>
    let r := divRes c.w sgn (c.v 0) (c.v 1)
    let s := s.setThr c.g { s.thr c.g with q := BitVec.ofNat 64 r.1, rem := BitVec.ofNat 64 r.2.1 }
    .ok ⟨s, [], some { c.fl.nz c.w (r.1 % 2 ^ c.w) with v := r.2.2 }, .stay, 0⟩

/-- DIV.U. -/
def execDivU (g : Tid) (s : State) : Host.Outcome State Fault Refusal := .next (s.divOp g.toNat 0x150 false)
/-- DIV.S. -/
def execDivS (g : Tid) (s : State) : Host.Outcome State Fault Refusal := .next (s.divOp g.toNat 0x151 true)

end Sys2Proof.Machine
end

