-- ==== Sys2Proof/Machine/Floating.lean ====
section
/-! DEFINITION. The floating-point instructions (Table 40). -/
namespace Sys2Proof.Machine

/-- FPC.RM as the FP unit rounds with it in this cycle (R150). -/
def State.rm (s : State) (g : Nat) : Nat := fld (s.fpcNow g) 1 0

/-- An FP instruction with a result for its destination and exceptions for FPS (R151). -/
def State.fpOp (s : State) (g op : Nat) (f : In → Nat → FpRes) : State :=
  s.instr g op fun c s => let r := f c (s.rm c.g); .ok ⟨s, [out 0 r.val], none, .seq, r.ex⟩

/-- FADD. -/
def execFadd (g : Tid) (s : State) : Host.Outcome State Fault Refusal :=
  .next (s.fpOp g.toNat 0x160 fun c rm => fpAdd c.w rm (c.v 1) (c.v 2))
/-- FSUB. -/
def execFsub (g : Tid) (s : State) : Host.Outcome State Fault Refusal :=
  .next (s.fpOp g.toNat 0x161 fun c rm => fpSub c.w rm (c.v 1) (c.v 2))
/-- FMUL. -/
def execFmul (g : Tid) (s : State) : Host.Outcome State Fault Refusal :=
  .next (s.fpOp g.toNat 0x162 fun c rm => fpMul c.w rm (c.v 1) (c.v 2))
/-- FDIV. -/
def execFdiv (g : Tid) (s : State) : Host.Outcome State Fault Refusal :=
  .next (s.fpOp g.toNat 0x163 fun c rm => fpDiv c.w rm (c.v 1) (c.v 2))
/-- FSQRT. -/
def execFsqrt (g : Tid) (s : State) : Host.Outcome State Fault Refusal :=
  .next (s.fpOp g.toNat 0x164 fun c rm => fpSqrt c.w rm (c.v 1))
/-- FMA: a × b + d. -/
def execFma (g : Tid) (s : State) : Host.Outcome State Fault Refusal :=
  .next (s.fpOp g.toNat 0x165 fun c rm => fpFma c.w rm false (c.v 1) (c.v 2) (c.v 0))
/-- FMSUB: d − a × b. -/
def execFmsub (g : Tid) (s : State) : Host.Outcome State Fault Refusal :=
  .next (s.fpOp g.toNat 0x166 fun c rm => fpFma c.w rm true (c.v 1) (c.v 2) (c.v 0))
/-- FMIN. -/
def execFmin (g : Tid) (s : State) : Host.Outcome State Fault Refusal :=
  .next (s.fpOp g.toNat 0x168 fun c _ => fpMinMax c.w false (c.v 1) (c.v 2))
/-- FMAX. -/
def execFmax (g : Tid) (s : State) : Host.Outcome State Fault Refusal :=
  .next (s.fpOp g.toNat 0x169 fun c _ => fpMinMax c.w true (c.v 1) (c.v 2))
/-- FNEG. -/
def execFneg (g : Tid) (s : State) : Host.Outcome State Fault Refusal :=
  .next (s.fpOp g.toNat 0x16A fun c _ => ⟨fpSign c.w (!fpNeg c.w (c.v 1)) (fpAbs c.w (c.v 1)), 0⟩)
/-- FABS. -/
def execFabs (g : Tid) (s : State) : Host.Outcome State Fault Refusal :=
  .next (s.fpOp g.toNat 0x16B fun c _ => ⟨fpAbs c.w (c.v 1), 0⟩)
/-- FCPYS. -/
def execFcpys (g : Tid) (s : State) : Host.Outcome State Fault Refusal :=
  .next (s.fpOp g.toNat 0x16C fun c _ => ⟨fpSign c.w (fpNeg c.w (c.v 2)) (fpAbs c.w (c.v 1)), 0⟩)

/-- A comparison: the flags of Table 41, the exception (R135). -/
def State.fpCmpOp (s : State) (g op : Nat) (sig : Bool) : State :=
  s.instr g op fun c s => let r := fpCmp c.w sig (c.v 0) (c.v 1); .ok ⟨s, [], some r.1, .seq, r.2⟩

/-- FCMP. -/
def execFcmp (g : Tid) (s : State) : Host.Outcome State Fault Refusal := .next (s.fpCmpOp g.toNat 0x170 false)
/-- FCMP.S. -/
def execFcmpS (g : Tid) (s : State) : Host.Outcome State Fault Refusal := .next (s.fpCmpOp g.toNat 0x171 true)
/-- FCLASS. -/
def execFclass (g : Tid) (s : State) : Host.Outcome State Fault Refusal :=
  .next (s.fpOp g.toNat 0x172 fun c _ => ⟨fpClass c.w (c.v 1), 0⟩)
/-- FCVTF: from the other format. -/
def execFcvtf (g : Tid) (s : State) : Host.Outcome State Fault Refusal :=
  .next (s.fpOp g.toNat 0x178 fun c rm => fpToFp c.w rm (96 - c.w) (c.v 1))
/-- The rounding that cvt selects (R136). -/
def In.cvtRm (c : In) (rm : Nat) : Nat := if c.h.xf.testBit 1 then 1 else rm
/-- FCVTI.S. -/
def execFcvtiS (g : Tid) (s : State) : Host.Outcome State Fault Refusal :=
  .next (s.fpOp g.toNat 0x179 fun c rm => fpToInt c.w (c.cvtRm rm) (32 <<< (c.h.xf % 2)) true (c.v 1))
/-- FCVTI.U. -/
def execFcvtiU (g : Tid) (s : State) : Host.Outcome State Fault Refusal :=
  .next (s.fpOp g.toNat 0x17A fun c rm => fpToInt c.w (c.cvtRm rm) (32 <<< (c.h.xf % 2)) false (c.v 1))
/-- ICVTF. -/
def execIcvtf (g : Tid) (s : State) : Host.Outcome State Fault Refusal :=
  .next (s.fpOp g.toNat 0x17B fun c rm => fpFromInt c.w rm (szBits (c.h.xf % 4)) (c.h.xf.testBit 2) (c.v 1))
/-- FRINT: the rounding of rmode; 4 selects FPC.RM (R136). -/
def execFrint (g : Tid) (s : State) : Host.Outcome State Fault Refusal :=
  .next (s.fpOp g.toNat 0x17C fun c rm => fpInt c.w (if c.h.xf = 4 then rm else c.h.xf) (c.v 1))

end Sys2Proof.Machine
end

