-- ==== Sys2Proof/Machine/Control.lean ====
section
/-! DEFINITION. Time, doze and thread control (Table 42, R39, R79, R137 to R139). -/
namespace Sys2Proof.Machine

/-- The wake time of a DOZE at `pc`: the original one where an event interrupted it (R79). -/
def Thread.wakeOf (t : Thread) (pc : Word) (a : DWord) : DWord := ((t.again.find? fun e => e.1 == pc).map Prod.snd).getD a

/-- DOZE until Commons time a (R137). -/
def execDoze (g : Tid) (s : State) : Host.Outcome State Fault Refusal :=
  .next (s.instr g.toNat 0x1A0 fun c s =>
    let t := s.thr c.g
    let a := t.wakeOf c.pc (BitVec.ofNat 64 (c.v 0))
    let t := { t with again := t.again.filter fun e => e.1 != c.pc }
    if atOrAfter s.now a then .ok ⟨s.setThr c.g t, [], none, .seq, 0⟩
    else .ok ⟨s.setThr c.g { t with st := .dozing, doze := .til a c.nxt }, [], none, .stay, 0⟩)

/-- SWATH.WAIT (R39, R47): ILLOP where LDG_TBUD.EN is 0 (Table 46). -/
def execSwathWait (g : Tid) (s : State) : Host.Outcome State Fault Refusal :=
  .next (s.instr g.toNat 0x1A1 fun c s =>
    if s.rb (.ldgTbud c.g) 31 then .ok ⟨s.swathWait c.g, [], none, .seq, 0⟩ else .error (.fault 1 0 s))

/-- THR.START of a local thread: Z = 1 where the target was IDLE; a CORE_TCMD of the same cycle for it prevails (R138). -/
def execThrStart (g : Tid) (s : State) : Host.Outcome State Fault Refusal :=
  .next (s.instr g.toNat 0x1A4 fun c s =>
    let t := 16 * coreOf c.g + c.h.xf
    let ok : Bool := (s.thr t).st == .idle && (s.thr t).tcmd != some s.cycle
    .ok ⟨if ok then s.startThread t else s, [], some { c.fl with z := ok }, .seq, 0⟩)

/-- THR.END: the thread enters IDLE with its PC at the next sequential address (R138). -/
def execThrEnd (g : Tid) (s : State) : Host.Outcome State Fault Refusal :=
  .next (s.instr g.toNat 0x1A5 fun c s =>
    .ok ⟨(s.setThr c.g { s.thr c.g with pc := c.nxt }).toIdle c.g, [], none, .stay, 0⟩)

/-- TCMP (R139). -/
def execTcmp (g : Tid) (s : State) : Host.Outcome State Fault Refusal :=
  .next (s.test g.toNat 0x1A8 fun c => tcmpFlags c.w c.fl (c.v 0) (c.v 1))

end Sys2Proof.Machine
end

