-- ==== Sys2Proof/Machine/Sync.lean ====
section
/-! DEFINITION. Locks, waits, event flags and channels as thread instructions (Table 43, R140, R141, R200 to R211). -/
namespace Sys2Proof.Machine

/-- G of the lock, wait and chan layouts. -/
def In.glob (c : In) : Bool := c.h.xf.testBit 9
/-- The lock that an instruction names. -/
def In.lockAt (c : In) : Nat := lockKey c.glob (clusterOf c.g) (natFld c.h.xf 8 0)
/-- The channel that an instruction names. -/
def In.chanAt (c : In) : Nat := chanKey c.glob (clusterOf c.g) (natFld c.h.xf 6 0)

/-- An instruction that a unit grants or refuses: Z tells which. -/
def State.asking (s : State) (g op : Nat) (f : In → State → State × Bool) : State :=
  s.instr g op fun c s => let r := f c s; .ok ⟨r.1, [], some { c.fl with z := r.2 }, .seq, 0⟩

/-- LOCK.TRY (R202). -/
def execLockTry (g : Tid) (s : State) : Host.Outcome State Fault Refusal :=
  .next (s.asking g.toNat 0x1C0 fun c s => s.lockTry c.lockAt c.g)
/-- LOCK.REL (R202). -/
def execLockRel (g : Tid) (s : State) : Host.Outcome State Fault Refusal :=
  .next (s.asking g.toNat 0x1C1 fun c s => s.lockRel c.lockAt c.g)

/-- WAIT: one evaluation of its target (R141, R204). -/
def execWait (g : Tid) (s : State) : Host.Outcome State Fault Refusal :=
  .next (s.instr g.toNat 0x1C2 fun c s =>
    let w : WaitOn := ⟨natFld c.h.xf 11 10, c.glob, natFld c.h.xf 8 0⟩
    if s.waitMet c.g w then
      let s := if w.kind = 0 then (s.lockTry c.lockAt c.g).1 else s
      .ok ⟨s.setThr c.g { s.thr c.g with st := .ready, waitOn := none }, [], none, .seq, 0⟩
    else .ok ⟨s.setThr c.g { s.thr c.g with st := .waiting, waitOn := some w }, [], none, .stay, 0⟩)

/-- EVF.SET: the flag reads 1 from the next cycle (R141). -/
def execEvfSet (g : Tid) (s : State) : Host.Outcome State Fault Refusal :=
  .next (s.effect g.toNat 0x1C4 fun c s => s.setFlag (clusterOf c.g) c.h.xf)
/-- EVF.CLR. -/
def execEvfClr (g : Tid) (s : State) : Host.Outcome State Fault Refusal :=
  .next (s.effect g.toNat 0x1C5 fun c s => s.clrFlag (clusterOf c.g) c.h.xf)
/-- EVF.TST: B takes the flag. -/
def execEvfTst (g : Tid) (s : State) : Host.Outcome State Fault Refusal :=
  .next (s.instr g.toNat 0x1C6 fun c s =>
    .ok ⟨s, [], some { c.fl with b := s.flagSet (clusterOf c.g) c.h.xf }, .seq, 0⟩)

/-- CHW (Table 67). -/
def execChw (g : Tid) (s : State) : Host.Outcome State Fault Refusal :=
  .next (s.asking g.toNat 0x1C8 fun c s =>
    let r := (s.chan c.chanAt).write c.g (BitVec.ofNat 32 (c.v 0))
    (s.setChan c.chanAt r.1, r.2))
/-- CHE (Table 67). -/
def execChe (g : Tid) (s : State) : Host.Outcome State Fault Refusal :=
  .next (s.asking g.toNat 0x1C9 fun c s =>
    let r := (s.chan c.chanAt).close c.g
    (s.setChan c.chanAt r.1, r.2))
/-- CHR: a refused one writes no destination (R208). -/
def execChr (g : Tid) (s : State) : Host.Outcome State Fault Refusal :=
  .next (s.instr g.toNat 0x1CA fun c s =>
    let r := (s.chan c.chanAt).read c.g
    .ok ⟨s.setChan c.chanAt r.1, (match r.2.1 with | some w => [out 0 w.toNat] | none => []),
         some { c.fl with z := r.2.2 }, .seq, 0⟩)
/-- CHD (Table 67). -/
def execChd (g : Tid) (s : State) : Host.Outcome State Fault Refusal :=
  .next (s.asking g.toNat 0x1CB fun c s =>
    let r := (s.chan c.chanAt).discardHead c.g
    (s.setChan c.chanAt r.1, r.2))
/-- CHS: the status word. -/
def execChs (g : Tid) (s : State) : Host.Outcome State Fault Refusal :=
  .next (s.instr g.toNat 0x1CC fun c s => .ok ⟨s, [out 0 (s.chstat c.chanAt).toNat], none, .seq, 0⟩)

end Sys2Proof.Machine
end

