-- ==== Sys2Proof/Machine/Fences.lean ====
section
/-! DEFINITION. Fences, SYNC, CACHE.INV and SLOT.W (Table 44, R72, R74, R142, R143, R175, R181). -/
namespace Sys2Proof.Machine

/-- A store fence: later writes of the thread are performed after its earlier ones (R175). A relaxed thread's store buffer is
empty when it issues (Table 44). -/
def State.fenceStores (s : State) (g : Nat) : State :=
  let last := (s.posted.filter fun w => w.core == coreOf g && w.thr == g).foldl (fun m w => max m (w.perf + 1)) 0
  s.setThr g { s.thr g with fence := max (s.thr g).fence last }

/-- FENCE.L: loads are performed in program order already (R181). -/
def execFenceL (g : Tid) (s : State) : Host.Outcome State Fault Refusal := .next (s.effect g.toNat 0x1E0 fun _ s => s)
/-- FENCE.S. -/
def execFenceS (g : Tid) (s : State) : Host.Outcome State Fault Refusal :=
  .next (s.effect g.toNat 0x1E1 fun c s => s.fenceStores c.g)
/-- FENCE.A. -/
def execFenceA (g : Tid) (s : State) : Host.Outcome State Fault Refusal :=
  .next (s.effect g.toNat 0x1E2 fun c s => s.fenceStores c.g)
/-- FENCE.X: its 12 cycles cover the performance of every earlier write (R181). -/
def execFenceX (g : Tid) (s : State) : Host.Outcome State Fault Refusal :=
  .next (s.effect g.toNat 0x1E3 fun c s => s.fenceStores c.g)
/-- SYNC: its 4 cycles cover the delay of R72. -/
def execSync (g : Tid) (s : State) : Host.Outcome State Fault Refusal := .next (s.effect g.toNat 0x1E8 fun _ s => s)

/-- Every line and BTB entry of a core is invalid; a fill in flight serves its fetch alone (R142). -/
def State.cacheInv (s : State) (n : Nat) : State :=
  let c := s.core n
  let s := s.setCore n { c with cache := c.cache.filter (fun x => decide (4 ≤ x.way)), btb := [] }
  s.each (s.coreThreads n) fun s g =>
    match (s.thr g).miss with
    | some l => if l < 2 ^ 26 then s.setThr g { s.thr g with miss := some (l + 2 ^ 26) } else s
    | none => s

/-- CACHE.INV. -/
def execCacheInv (g : Tid) (s : State) : Host.Outcome State Fault Refusal :=
  .next (s.effect g.toNat 0x1EA fun c s => s.cacheInv (coreOf c.g))

/-- SLOT.W: OWNER_DENY where SLW is 0 (R74); a reserved entry or owner is refused with CFG_REJECT, item 0x100 (R143). -/
def execSlotW (g : Tid) (s : State) : Host.Outcome State Fault Refusal :=
  .next (s.instr g.toNat 0x1EC fun c s =>
    let n := coreOf c.g
    let e := c.v 0
    let o := c.v 1
    if ¬ bit (s.tcb c.g) 3 then .error (.fault 5 0 s)
    else if 31 < e ∨ 16 < o then .ok ⟨s.report 0x60 0 c.g c.pc 0x100, [], none, .seq, 0⟩
    else .ok ⟨(s.lag (.slot n e) (s.reg (.coreSlot n e))).setReg (.coreSlot n e) (BitVec.ofNat 32 o), [], none, .seq, 0⟩)

end Sys2Proof.Machine
end

