-- ==== Sys2Proof/Machine/Outputs.lean ====
section
/-! DEFINITION. Sheaves, sequencer actions and private pins as thread instructions (Table 45, R106, R144 to R146, R219, R226,
R282). -/
namespace Sys2Proof.Machine

/-- SHEAF.OPEN (Table 73). -/
def execSheafOpen (g : Tid) (s : State) : Host.Outcome State Fault Refusal :=
  .next (s.asking g.toNat 0x1F0 fun c s => s.sheafJoin c.g c.h.xf true)
/-- SHEAF.JOIN (Table 73). -/
def execSheafJoin (g : Tid) (s : State) : Host.Outcome State Fault Refusal :=
  .next (s.asking g.toNat 0x1F1 fun c s => s.sheafJoin c.g c.h.xf false)
/-- SHEAF.CLOSE (Table 73). -/
def execSheafClose (g : Tid) (s : State) : Host.Outcome State Fault Refusal :=
  .next (s.asking g.toNat 0x1F2 fun c s => s.sheafClose c.g c.h.xf)
/-- SHEAF.STAT: the word of SHF_CST. -/
def execSheafStat (g : Tid) (s : State) : Host.Outcome State Fault Refusal :=
  .next (s.instr g.toNat 0x1F3 fun c s => .ok ⟨s, [out 0 (s.cstWord c.h.xf).toNat], none, .seq, 0⟩)

/-- The checks of R282 on an action word that a thread offers: the state with the refusal's report, and whether it passes. -/
def State.actionCheck (s : State) (g q : Nat) (a : DWord) (held : Bool) : State × Bool :=
  if actBad a then (s.report 0x60 0 g (s.thr g).pc 0x101, false)
  else if reached (lo32 s.nextTime) (actTime a) then (s.actionLate q a (b2n held), false)
  else (s, true)

/-- A held action (R226): only for the context of the thread's open membership; without room the generation aborts. -/
def State.holdAction (s : State) (g x q : Nat) (a : DWord) : State × Bool :=
  if s.openMember g ≠ some x then (s, false)
  else
    let r := s.actionCheck g q a true
    if ¬ r.2 then r
    else
      let p := s.psq q
      if p.fifo.length + p.rsvd < 64 then
        ((s.setPsq q { p with rsvd := p.rsvd + 1 }).setCtx x { s.ctx x with held := (s.ctx x).held ++ [(q, a)] }, true)
      else (s.abort x 5 0, false)

/-- PSQ.ACT (R145, R282). -/
def execPsqAct (g : Tid) (s : State) : Host.Outcome State Fault Refusal :=
  .next (s.asking g.toNat 0x1F8 fun c s =>
    let q := 8 * clusterOf c.g + natFld c.h.xf 2 0
    let a := BitVec.ofNat 64 (c.v 0)
    if c.h.xf.testBit 3 then s.holdAction c.g (natFld c.h.xf 11 4) q a
    else
      let r := s.actionCheck c.g q a false
      if r.2 then r.1.queueAction q a else r)

/-- The private-port bit of the pin takes what `f` gives for the old value; OWNER_DENY where the pin is not given (Table 46). -/
def State.pinOp (s : State) (g op : Nat) (f : Bool → Bool) : State :=
  s.instr g op fun c s =>
    let n := coreOf c.g
    if s.given n c.h.xf then .ok ⟨s.drivePort n c.h.xf (f (s.port n c.h.xf)), [], none, .seq, 0⟩
    else .error (.fault 5 0 s)

/-- PIN.SET. -/
def execPinSet (g : Tid) (s : State) : Host.Outcome State Fault Refusal := .next (s.pinOp g.toNat 0x1FA fun _ => true)
/-- PIN.CLR. -/
def execPinClr (g : Tid) (s : State) : Host.Outcome State Fault Refusal := .next (s.pinOp g.toNat 0x1FB fun _ => false)
/-- PIN.TGL. -/
def execPinTgl (g : Tid) (s : State) : Host.Outcome State Fault Refusal := .next (s.pinOp g.toNat 0x1FC fun b => !b)

end Sys2Proof.Machine
end

