-- ==== Sys2Proof/Machine/Events.lean ====
section
/-! DEFINITION. What happens to threads beside their instructions: event entry (R75 to R80, R156), breakpoints (R377, R378),
instruction-cache fills (R69, R142), posted writes and the drain of store buffers (R174, R178). -/
namespace Sys2Proof.Machine

/-- The thread takes an event in this cycle (R76, R79). -/
def State.takesEvent (s : State) (g : Nat) : Option Nat :=
  match s.issuer (coreOf g) with
  | some (t, _) => if t = g then s.eventNow g else none
  | none => none

/-- EVENT_ENTRY (R77): PC and FLG to the window, FLG.EE cleared, the flag cleared where ACLR says so, the PC at the vector. A
DIV in progress is abandoned, a DOZE keeps its wake time, a WAIT will execute again. -/
def execEventEntry (g : Tid) (s : State) : Host.Outcome State Fault Refusal :=
  let g := g.toNat
  let s0 := s
  let s := s.finishDiv g
  match s.takesEvent g with
  | none => .next s0
  | some j =>
    let spill := match s.issuer (coreOf g) with | some (_, b) => b | none => false
    let t := s.thr g
    let save (o v : Nat) (s : State) : State := s.putMem g s.cycle (.near o) ((s.keysOf g 32 (.near o)).zip (toBytes 4 v)) none
    match s.badWrite (s.keysOf g 32 (.near 0)) with
    | some b => .next (((s.recordUe b 1).threadFault g 0x41 (ueWord b)).noteIssue g spill 1)
    | none =>
      let keep := match t.doze with | .til w _ => t.again.filter (fun e => e.1 != t.pc) ++ [(t.pc, w)] | _ => t.again
      let s1 := (save 4 t.flg.toNat (save 0 t.pc.toNat s))
      let t1 := s1.thr g
      let s2 := s1.setThr g { t1 with st := .ready, doze := .none, again := keep, waitOn := none, div := none, step := false,
                                      flg := setBit t.flg 8 false,
                                      pc := s.evvNow g + BitVec.ofNat 32 (0x20 * j) }
      let s3 := if s.rb (thrReg .coreEvcfg g) (4 + j) then
          s2.clrFlag (clusterOf g) (s.rf (thrReg .coreEvsel g) (8 * j + 7) (8 * j)) else s2
      .next ((s3.noteIssue g spill 2).endStep g t.step)

/-- BREAKPOINT_HIT (R377, R378): the instruction does not issue, and the thread is HALTED with CAUSE 2. ACT 0b10 requests HOLD,
accepted in the next cycle. -/
def execBreakpointHit (g : Tid) (s : State) : Host.Outcome State Fault Refusal :=
  let g := g.toNat
  let s0 := s
  let s := s.finishDiv g
  let wouldIssue : Bool := (match s.issuer (coreOf g) with | some (t, _) => t == g | none => false)
  match (if wouldIssue then s.bpHit g else none) with
  | none => .next s0
  | some b =>
    let t := s.thr g
    let s := s.setThr g { t with st := .ready, step := false }
    let s := s.toHalted g 2 b
    let s := (s.setCore (coreOf g) { s.core (coreOf g) with issued := some s.cycle }).bump (.coreEmpty (coreOf g)) 1
    .next (if s.rf (.coreBpc (coreOf g) b) 31 30 = 2 then { s with holdReq := some (.camin, s.cycle + 1) } else s)

/-- The way that a new line takes: a free way of its set, else that of the least recently used line (R69). -/
def Core.victim (c : Core) (line : Nat) : Nat :=
  let set := c.cache.filter fun x => x.line % 64 == line % 64 && decide (x.way < 4)
  match (upto 4).find? fun w => !set.any fun x => x.way == w with
  | some w => w
  | none => (set.getLast?.map CacheLine.way).getD 0

/-- A line of chip memory enters a core's cache. -/
def State.fillCache (s : State) (n line : Nat) : State :=
  let c := s.core n
  let w := c.victim line
  let base := icacheKey n (0x1000 * w + 64 * (line % 64))
  let s := (upto 64).foldl (fun s i => s.setCell (base + i) (s.chipByte (64 * line + i))) s
  let old := c.cache.filter fun x => !(x.way == w && x.line % 64 == line % 64)
  s.setCore n { c with cache := ⟨line, w⟩ :: old }

/-- The line that a relaxed thread's fetch awaits: a fill in flight, else the first line that it lacks. -/
def State.awaited (s : State) (g : Nat) : Option Nat :=
  match (s.thr g).miss with
  | some l => some l
  | none =>
    if s.det g then none
    else match s.fetch g (s.thr g).pc with
      | .miss l => some l
      | _ => none

/-- ICACHE_FILL (R69): the line that the thread's fetch awaits arrives. One that CACHE.INV overtook serves that fetch alone
(R142). -/
def execIcacheFill (g : Tid) (s : State) : Host.Outcome State Fault Refusal :=
  let g := g.toNat
  if ¬ s.active then .next s
  else match s.awaited g with
    | none => .next s
    | some l =>
      let s := s.setThr g { s.thr g with miss := none }
      let n := coreOf g
      if l < 2 ^ 26 then .next (s.fillCache n l)
      else
        let c := s.core n
        .next (s.setCore n { c with cache := c.cache.filter (fun x => x.way != 4 + locOf g) ++ [⟨l - 2 ^ 26, 4 + locOf g⟩] })

/-- POSTED_WRITE_PERFORM (R174): the posted writes of core `n` that are due are performed, in issue order. -/
def execPostedWritePerform (n : BitVec 5) (s : State) : Host.Outcome State Fault Refusal :=
  let due := s.posted.filter fun w => w.core == n.toNat && decide (w.perf ≤ s.cycle)
  let s : State := { s with posted := s.posted.filter fun w => !(w.core == n.toNat && decide (w.perf ≤ s.cycle)) }
  .next (s.each due fun s w => s.putRuns w.cells)

/-- The generation that a buffered store belongs to still takes writes (R222, R235). -/
def State.genTakes (s : State) (gen : Option (Nat × Nat)) : Bool :=
  match gen with
  | none => true
  | some (x, uid) => (s.ctx x).uid == uid && ((s.ctx x).st == .opened || (s.ctx x).st == .complete)

/-- The place in memory order that names a cell's bank: the process-image line of a version (R172), or a shared offset. -/
def State.cellBank (s : State) (space k : Nat) : Nat :=
  if space = 1 then sharedBank (k % 0x80000)
  else if k < 0xC00000 then piBank (k - 0xA00000)
  else if k < 0xE00000 then piBank (k - 0xC00000)
  else match s.sideEnt ((k - 0x1000000) / 64) with
    | some (_, line) => line % 16
    | none => 0

/-- Cells that share a bank, in order. -/
def State.byBank (s : State) (space : Nat) (cells : List (Nat × Byte)) : List (Nat × List (Nat × Byte)) :=
  cells.foldr (fun c r =>
    let b := s.cellBank space c.1
    match r with
    | (b', l) :: rest => if b = b' then (b, c :: l) :: rest else (b, [c]) :: r
    | [] => [(b, [c])]) []

/-- STORE_BUFFER_DRAIN (R178): the oldest store leaves the buffer: a near store into near RAM, another as a posted write that is
ready now. A store of an aborted generation goes nowhere. -/
def execStoreBufferDrain (g : Tid) (s : State) : Host.Outcome State Fault Refusal :=
  let g := g.toNat
  let t := s.thr g
  if s.mode = .retain ∨ s.mode = .off then .next s
  else match t.sb with
    | [] => .next s
    | e :: r =>
      let s := s.setThr g { t with sb := r }
      if e.space = 0 then .next (s.putRuns e.cells)
      else if ¬ s.genTakes e.gen then .next s
      else .next ((s.byBank e.space e.cells).foldl (fun s b =>
        s.post (coreOf g) g s.cycle t.fence (e.space == 2) b.1 b.2 e.gen) s)

end Sys2Proof.Machine
end

