-- ==== Sys2Proof/Machine/Dispatch.lean ====
section
/-! DEFINITION. The commands and their meanings: one arm per row of opcode_table.json. -/
namespace Sys2Proof.Machine

/-- The effect of a command on everything but the queue of waiting commands. -/
def exec (i : Instr) (s : State) : Host.Outcome State Fault Refusal :=
  match i with
  | .registerWrite acc size off val => Sys2Proof.Machine.execRegisterWrite acc size off val s
  | .powerOnReset => Sys2Proof.Machine.execPowerOnReset s
  | .warmReset => Sys2Proof.Machine.execWarmReset s
  | .powerRemoval => Sys2Proof.Machine.execPowerRemoval s
  | .initComplete => Sys2Proof.Machine.execInitComplete s
  | .modeReqConfigure acc => Sys2Proof.Machine.execModeReqConfigure acc s
  | .modeReqRehearse acc => Sys2Proof.Machine.execModeReqRehearse acc s
  | .modeReqRun acc => Sys2Proof.Machine.execModeReqRun acc s
  | .modeReqRetain acc => Sys2Proof.Machine.execModeReqRetain acc s
  | .modeReqHold acc => Sys2Proof.Machine.execModeReqHold acc s
  | .holdSettled => Sys2Proof.Machine.execHoldSettled s
  | .returnFromHold => Sys2Proof.Machine.execReturnFromHold s
  | .enterConfigure => Sys2Proof.Machine.execEnterConfigure s
  | .leaveConfigure => Sys2Proof.Machine.execLeaveConfigure s
  | .rehearseRunSwitch => Sys2Proof.Machine.execRehearseRunSwitch s
  | .enterRetain => Sys2Proof.Machine.execEnterRetain s
  | .retainExit => Sys2Proof.Machine.execRetainExit s
  | .apertureRead acc size off => Sys2Proof.Machine.execApertureRead acc size off s
  | .apertureWrite acc size off val => Sys2Proof.Machine.execApertureWrite acc size off val s
  | .domainEnable acc d grace => Sys2Proof.Machine.execDomainEnable acc d grace s
  | .domainDisable acc d grace => Sys2Proof.Machine.execDomainDisable acc d grace s
  | .swathBoundary d => Sys2Proof.Machine.execSwathBoundary d s
  | .budgetExpiry who => Sys2Proof.Machine.execBudgetExpiry who s
  | .coreTcmdStart acc g => Sys2Proof.Machine.execCoreTcmdStart acc g s
  | .coreTcmdStop acc g => Sys2Proof.Machine.execCoreTcmdStop acc g s
  | .coreTcmdClear acc g => Sys2Proof.Machine.execCoreTcmdClear acc g s
  | .threadStopAtBoundary g => Sys2Proof.Machine.execThreadStopAtBoundary g s
  | .eventEntry g => Sys2Proof.Machine.execEventEntry g s
  | .dozeWake g => Sys2Proof.Machine.execDozeWake g s
  | .icacheFill g => Sys2Proof.Machine.execIcacheFill g s
  | .mov g => Sys2Proof.Machine.execMov g s
  | .ldi g => Sys2Proof.Machine.execLdi g s
  | .swap g => Sys2Proof.Machine.execSwap g s
  | .clr g => Sys2Proof.Machine.execClr g s
  | .nop g => Sys2Proof.Machine.execNop g s
  | .flgSet g => Sys2Proof.Machine.execFlgSet g s
  | .flgClr g => Sys2Proof.Machine.execFlgClr g s
  | .sext g => Sys2Proof.Machine.execSext g s
  | .zext g => Sys2Proof.Machine.execZext g s
  | .bswap g => Sys2Proof.Machine.execBswap g s
  | .lea g => Sys2Proof.Machine.execLea g s
  | .satnS g => Sys2Proof.Machine.execSatnS g s
  | .satnU g => Sys2Proof.Machine.execSatnU g s
  | .add g => Sys2Proof.Machine.execAdd g s
  | .addc g => Sys2Proof.Machine.execAddc g s
  | .sub g => Sys2Proof.Machine.execSub g s
  | .subc g => Sys2Proof.Machine.execSubc g s
  | .addSs g => Sys2Proof.Machine.execAddSs g s
  | .addSu g => Sys2Proof.Machine.execAddSu g s
  | .subSs g => Sys2Proof.Machine.execSubSs g s
  | .subSu g => Sys2Proof.Machine.execSubSu g s
  | .neg g => Sys2Proof.Machine.execNeg g s
  | .abs g => Sys2Proof.Machine.execAbs g s
  | .addi g => Sys2Proof.Machine.execAddi g s
  | .cmp g => Sys2Proof.Machine.execCmp g s
  | .cmn g => Sys2Proof.Machine.execCmn g s
  | .cmpi g => Sys2Proof.Machine.execCmpi g s
  | .minS g => Sys2Proof.Machine.execMinS g s
  | .minU g => Sys2Proof.Machine.execMinU g s
  | .maxS g => Sys2Proof.Machine.execMaxS g s
  | .maxU g => Sys2Proof.Machine.execMaxU g s
  | .and g => Sys2Proof.Machine.execAnd g s
  | .or g => Sys2Proof.Machine.execOr g s
  | .xor g => Sys2Proof.Machine.execXor g s
  | .andn g => Sys2Proof.Machine.execAndn g s
  | .orn g => Sys2Proof.Machine.execOrn g s
  | .xnor g => Sys2Proof.Machine.execXnor g s
  | .not g => Sys2Proof.Machine.execNot g s
  | .tst g => Sys2Proof.Machine.execTst g s
  | .andi g => Sys2Proof.Machine.execAndi g s
  | .ori g => Sys2Proof.Machine.execOri g s
  | .xori g => Sys2Proof.Machine.execXori g s
  | .tsti g => Sys2Proof.Machine.execTsti g s
  | .shl g => Sys2Proof.Machine.execShl g s
  | .shr g => Sys2Proof.Machine.execShr g s
  | .sar g => Sys2Proof.Machine.execSar g s
  | .rol g => Sys2Proof.Machine.execRol g s
  | .ror g => Sys2Proof.Machine.execRor g s
  | .shli g => Sys2Proof.Machine.execShli g s
  | .shri g => Sys2Proof.Machine.execShri g s
  | .sari g => Sys2Proof.Machine.execSari g s
  | .roli g => Sys2Proof.Machine.execRoli g s
  | .rori g => Sys2Proof.Machine.execRori g s
  | .clz g => Sys2Proof.Machine.execClz g s
  | .ctz g => Sys2Proof.Machine.execCtz g s
  | .popc g => Sys2Proof.Machine.execPopc g s
  | .brev g => Sys2Proof.Machine.execBrev g s
  | .bset g => Sys2Proof.Machine.execBset g s
  | .bclr g => Sys2Proof.Machine.execBclr g s
  | .btgl g => Sys2Proof.Machine.execBtgl g s
  | .btst g => Sys2Proof.Machine.execBtst g s
  | .bsetr g => Sys2Proof.Machine.execBsetr g s
  | .bclrr g => Sys2Proof.Machine.execBclrr g s
  | .btglr g => Sys2Proof.Machine.execBtglr g s
  | .btstr g => Sys2Proof.Machine.execBtstr g s
  | .bmov g => Sys2Proof.Machine.execBmov g s
  | .bnot g => Sys2Proof.Machine.execBnot g s
  | .band g => Sys2Proof.Machine.execBand g s
  | .bor g => Sys2Proof.Machine.execBor g s
  | .bxor g => Sys2Proof.Machine.execBxor g s
  | .bandn g => Sys2Proof.Machine.execBandn g s
  | .bld g => Sys2Proof.Machine.execBld g s
  | .bstf g => Sys2Proof.Machine.execBstf g s
  | .bfxU g => Sys2Proof.Machine.execBfxU g s
  | .bfxS g => Sys2Proof.Machine.execBfxS g s
  | .bfi g => Sys2Proof.Machine.execBfi g s
  | .bfc g => Sys2Proof.Machine.execBfc g s
  | .b g => Sys2Proof.Machine.execB g s
  | .jmp g => Sys2Proof.Machine.execJmp g s
  | .call g => Sys2Proof.Machine.execCall g s
  | .ret g => Sys2Proof.Machine.execRet g s
  | .rete g => Sys2Proof.Machine.execRete g s
  | .cbr g => Sys2Proof.Machine.execCbr g s
  | .djnz g => Sys2Proof.Machine.execDjnz g s
  | .bbs g => Sys2Proof.Machine.execBbs g s
  | .bbc g => Sys2Proof.Machine.execBbc g s
  | .loop g => Sys2Proof.Machine.execLoop g s
  | .loopi g => Sys2Proof.Machine.execLoopi g s
  | .lbrk g => Sys2Proof.Machine.execLbrk g s
  | .mulU g => Sys2Proof.Machine.execMulU g s
  | .mulS g => Sys2Proof.Machine.execMulS g s
  | .mulL g => Sys2Proof.Machine.execMulL g s
  | .mulhU g => Sys2Proof.Machine.execMulhU g s
  | .mulhS g => Sys2Proof.Machine.execMulhS g s
  | .muld g => Sys2Proof.Machine.execMuld g s
  | .macU g => Sys2Proof.Machine.execMacU g s
  | .macS g => Sys2Proof.Machine.execMacS g s
  | .msuU g => Sys2Proof.Machine.execMsuU g s
  | .msuS g => Sys2Proof.Machine.execMsuS g s
  | .accClr g => Sys2Proof.Machine.execAccClr g s
  | .accX g => Sys2Proof.Machine.execAccX g s
  | .divU g => Sys2Proof.Machine.execDivU g s
  | .divS g => Sys2Proof.Machine.execDivS g s
  | .fadd g => Sys2Proof.Machine.execFadd g s
  | .fsub g => Sys2Proof.Machine.execFsub g s
  | .fmul g => Sys2Proof.Machine.execFmul g s
  | .fdiv g => Sys2Proof.Machine.execFdiv g s
  | .fsqrt g => Sys2Proof.Machine.execFsqrt g s
  | .fma g => Sys2Proof.Machine.execFma g s
  | .fmsub g => Sys2Proof.Machine.execFmsub g s
  | .fmin g => Sys2Proof.Machine.execFmin g s
  | .fmax g => Sys2Proof.Machine.execFmax g s
  | .fneg g => Sys2Proof.Machine.execFneg g s
  | .fabs g => Sys2Proof.Machine.execFabs g s
  | .fcpys g => Sys2Proof.Machine.execFcpys g s
  | .fcmp g => Sys2Proof.Machine.execFcmp g s
  | .fcmpS g => Sys2Proof.Machine.execFcmpS g s
  | .fclass g => Sys2Proof.Machine.execFclass g s
  | .fcvtf g => Sys2Proof.Machine.execFcvtf g s
  | .fcvtiS g => Sys2Proof.Machine.execFcvtiS g s
  | .fcvtiU g => Sys2Proof.Machine.execFcvtiU g s
  | .icvtf g => Sys2Proof.Machine.execIcvtf g s
  | .frint g => Sys2Proof.Machine.execFrint g s
  | .doze g => Sys2Proof.Machine.execDoze g s
  | .swathWait g => Sys2Proof.Machine.execSwathWait g s
  | .thrStart g => Sys2Proof.Machine.execThrStart g s
  | .thrEnd g => Sys2Proof.Machine.execThrEnd g s
  | .tcmp g => Sys2Proof.Machine.execTcmp g s
  | .lockTry g => Sys2Proof.Machine.execLockTry g s
  | .lockRel g => Sys2Proof.Machine.execLockRel g s
  | .wait g => Sys2Proof.Machine.execWait g s
  | .evfSet g => Sys2Proof.Machine.execEvfSet g s
  | .evfClr g => Sys2Proof.Machine.execEvfClr g s
  | .evfTst g => Sys2Proof.Machine.execEvfTst g s
  | .chw g => Sys2Proof.Machine.execChw g s
  | .che g => Sys2Proof.Machine.execChe g s
  | .chr g => Sys2Proof.Machine.execChr g s
  | .chd g => Sys2Proof.Machine.execChd g s
  | .chs g => Sys2Proof.Machine.execChs g s
  | .fenceL g => Sys2Proof.Machine.execFenceL g s
  | .fenceS g => Sys2Proof.Machine.execFenceS g s
  | .fenceA g => Sys2Proof.Machine.execFenceA g s
  | .fenceX g => Sys2Proof.Machine.execFenceX g s
  | .sync g => Sys2Proof.Machine.execSync g s
  | .cacheInv g => Sys2Proof.Machine.execCacheInv g s
  | .slotW g => Sys2Proof.Machine.execSlotW g s
  | .sheafOpen g => Sys2Proof.Machine.execSheafOpen g s
  | .sheafJoin g => Sys2Proof.Machine.execSheafJoin g s
  | .sheafClose g => Sys2Proof.Machine.execSheafClose g s
  | .sheafStat g => Sys2Proof.Machine.execSheafStat g s
  | .psqAct g => Sys2Proof.Machine.execPsqAct g s
  | .pinSet g => Sys2Proof.Machine.execPinSet g s
  | .pinClr g => Sys2Proof.Machine.execPinClr g s
  | .pinTgl g => Sys2Proof.Machine.execPinTgl g s
  | .postedWritePerform n => Sys2Proof.Machine.execPostedWritePerform n s
  | .storeBufferDrain g => Sys2Proof.Machine.execStoreBufferDrain g s
  | .scrubWrite => Sys2Proof.Machine.execScrubWrite s
  | .moverFlagStart m => Sys2Proof.Machine.execMoverFlagStart m s
  | .moverDescriptorDone m => Sys2Proof.Machine.execMoverDescriptorDone m s
  | .moverChainComplete m => Sys2Proof.Machine.execMoverChainComplete m s
  | .gleanerCopy => Sys2Proof.Machine.execGleanerCopy s
  | .gleanerTest bad => Sys2Proof.Machine.execGleanerTest bad s
  | .gleanerRestore => Sys2Proof.Machine.execGleanerRestore s
  | .gleanerRetry => Sys2Proof.Machine.execGleanerRetry s
  | .tamperInput => Sys2Proof.Machine.execTamperInput s
  | .lifecycleChange => Sys2Proof.Machine.execLifecycleChange s
  | .wipeComplete => Sys2Proof.Machine.execWipeComplete s
  | .lockReleaseHost acc u lock => Sys2Proof.Machine.execLockReleaseHost acc u lock s
  | .eventFlagSetHost acc c w mask => Sys2Proof.Machine.execEventFlagSetHost acc c w mask s
  | .eventFlagClearHost acc c w mask => Sys2Proof.Machine.execEventFlagClearHost acc c w mask s
  | .forceClose acc u ch => Sys2Proof.Machine.execForceClose acc u ch s
  | .discard acc u ch => Sys2Proof.Machine.execDiscard acc u ch s
  | .channelReset acc u ch => Sys2Proof.Machine.execChannelReset acc u ch s
  | .deadlock set => Sys2Proof.Machine.execDeadlock set s
  | .commitComplete => Sys2Proof.Machine.execCommitComplete s
  | .commonsTimeWrite acc val => Sys2Proof.Machine.execCommonsTimeWrite acc val s
  | .wideReadLow acc size off => Sys2Proof.Machine.execWideReadLow acc size off s
  | .rateAdjustWrite acc val => Sys2Proof.Machine.execRateAdjustWrite acc val s
  | .slewWrite acc val => Sys2Proof.Machine.execSlewWrite acc val s
  | .slewUnit => Sys2Proof.Machine.execSlewUnit s
  | .stepRequest acc val => Sys2Proof.Machine.execStepRequest acc val s
  | .watchdogExpiry => Sys2Proof.Machine.execWatchdogExpiry s
  | .servoMailboxCommand => Sys2Proof.Machine.execServoMailboxCommand s
  | .timerEnable acc ch ctl => Sys2Proof.Machine.execTimerEnable acc ch ctl s
  | .timerFire ch => Sys2Proof.Machine.execTimerFire ch s
  | .timerCompareWrite acc ch val => Sys2Proof.Machine.execTimerCompareWrite acc ch val s
  | .timerIntervalWrite acc ch val => Sys2Proof.Machine.execTimerIntervalWrite acc ch val s
  | .timerTriggerGo acc ch => Sys2Proof.Machine.execTimerTriggerGo acc ch s
  | .timerCaptureRead acc size ch => Sys2Proof.Machine.execTimerCaptureRead acc size ch s
  | .psqStart acc q => Sys2Proof.Machine.execPsqStart acc q s
  | .psqStop acc q => Sys2Proof.Machine.execPsqStop acc q s
  | .programRamWrite acc q val => Sys2Proof.Machine.execProgramRamWrite acc q val s
  | .programRamRead acc q => Sys2Proof.Machine.execProgramRamRead acc q s
  | .psqSet q => Sys2Proof.Machine.execPsqSet q s
  | .psqTgl q => Sys2Proof.Machine.execPsqTgl q s
  | .psqOe q => Sys2Proof.Machine.execPsqOe q s
  | .psqOutb q => Sys2Proof.Machine.execPsqOutb q s
  | .psqInb q => Sys2Proof.Machine.execPsqInb q s
  | .shiftStallRelease q => Sys2Proof.Machine.execShiftStallRelease q s
  | .psqDly q => Sys2Proof.Machine.execPsqDly q s
  | .psqDlyExpiry q => Sys2Proof.Machine.execPsqDlyExpiry q s
  | .psqWlvl q => Sys2Proof.Machine.execPsqWlvl q s
  | .psqWedg q => Sys2Proof.Machine.execPsqWedg q s
  | .psqWcnt q => Sys2Proof.Machine.execPsqWcnt q s
  | .psqWtrg q => Sys2Proof.Machine.execPsqWtrg q s
  | .psqSig q => Sys2Proof.Machine.execPsqSig q s
  | .psqLdv q => Sys2Proof.Machine.execPsqLdv q s
  | .psqDjnz q => Sys2Proof.Machine.execPsqDjnz q s
  | .psqJmp q => Sys2Proof.Machine.execPsqJmp q s
  | .psqBlv q => Sys2Proof.Machine.execPsqBlv q s
  | .psqCntc q => Sys2Proof.Machine.execPsqCntc q s
  | .psqRarm q => Sys2Proof.Machine.execPsqRarm q s
  | .psqEnd q => Sys2Proof.Machine.execPsqEnd q s
  | .actionOfferHost acc q act => Sys2Proof.Machine.execActionOfferHost acc q act s
  | .actionLevel q => Sys2Proof.Machine.execActionLevel q s
  | .actionDrive q => Sys2Proof.Machine.execActionDrive q s
  | .actionTrig q => Sys2Proof.Machine.execActionTrig q s
  | .actionLoad q => Sys2Proof.Machine.execActionLoad q s
  | .shiftRegisterWrite g q k val => Sys2Proof.Machine.execShiftRegisterWrite g q k val s
  | .shiftRegisterRead g q k => Sys2Proof.Machine.execShiftRegisterRead g q k s
  | .valueSetPort g q val => Sys2Proof.Machine.execValueSetPort g q val s
  | .triggerBitsSet src q mask => Sys2Proof.Machine.execTriggerBitsSet src q mask s
  | .captureFifoRead src q l => Sys2Proof.Machine.execCaptureFifoRead src q l s
  | .laneEdge p lvl ph => Sys2Proof.Machine.execLaneEdge p lvl ph s
  | .edgeRecognised q l => Sys2Proof.Machine.execEdgeRecognised q l s
  | .reflexFire q r => Sys2Proof.Machine.execReflexFire q r s
  | .counterTick q k => Sys2Proof.Machine.execCounterTick q k s
  | .pinConfigWrite acc p val => Sys2Proof.Machine.execPinConfigWrite acc p val s
  | .pinSlotWrite acc p hi val => Sys2Proof.Machine.execPinSlotWrite acc p hi val s
  | .parkEnd p => Sys2Proof.Machine.execParkEnd p s
  | .loadSenseFinding p f => Sys2Proof.Machine.execLoadSenseFinding p f s
  | .tdrStart acc p => Sys2Proof.Machine.execTdrStart acc p s
  | .tdrComplete fail pol rt => Sys2Proof.Machine.execTdrComplete fail pol rt s
  | .linkUp m ifu spu sdtx sdrx => Sys2Proof.Machine.execLinkUp m ifu spu sdtx sdrx s
  | .linkDown m => Sys2Proof.Machine.execLinkDown m s
  | .probeTimeout m => Sys2Proof.Machine.execProbeTimeout m s
  | .anRestart acc m anen adv => Sys2Proof.Machine.execAnRestart acc m anen adv s
  | .anComplete m page => Sys2Proof.Machine.execAnComplete m page s
  | .frameReceive m fr => Sys2Proof.Machine.execFrameReceive m fr s
  | .forwardLaunch m raw => Sys2Proof.Machine.execForwardLaunch m raw s
  | .queueEnable acc m j cfg => Sys2Proof.Machine.execQueueEnable acc m j cfg s
  | .queueStop acc m j => Sys2Proof.Machine.execQueueStop acc m j s
  | .doorbell m => Sys2Proof.Machine.execDoorbell m s
  | .descriptorLoad m j => Sys2Proof.Machine.execDescriptorLoad m j s
  | .frameLaunch m j raw => Sys2Proof.Machine.execFrameLaunch m j raw s
  | .transmitComplete m j => Sys2Proof.Machine.execTransmitComplete m j s
  | .mbuTdrStart acc m => Sys2Proof.Machine.execMbuTdrStart acc m s
  | .mbuTdrComplete m fail pol rt => Sys2Proof.Machine.execMbuTdrComplete m fail pol rt s
  | .dozeEnter n => Sys2Proof.Machine.execDozeEnter n s
  | .wakeStart n => Sys2Proof.Machine.execWakeStart n s
  | .wakeComplete n => Sys2Proof.Machine.execWakeComplete n s
  | .supplySample r mv => Sys2Proof.Machine.execSupplySample r mv s
  | .faultReport => Sys2Proof.Machine.execFaultReport s
  | .standingOrderExecute => Sys2Proof.Machine.execStandingOrderExecute s
  | .orderArm acc o ctl => Sys2Proof.Machine.execOrderArm acc o ctl s
  | .orderDisarm acc o => Sys2Proof.Machine.execOrderDisarm acc o s
  | .faultLogPop acc seq => Sys2Proof.Machine.execFaultLogPop acc seq s
  | .debugHalt acc g => Sys2Proof.Machine.execDebugHalt acc g s
  | .debugResume acc g => Sys2Proof.Machine.execDebugResume acc g s
  | .debugStep acc g => Sys2Proof.Machine.execDebugStep acc g s
  | .breakpointHit g => Sys2Proof.Machine.execBreakpointHit g s
  | .debugRegisterWrite acc n val => Sys2Proof.Machine.execDebugRegisterWrite acc n val s
  | .globalChannelPeek acc => Sys2Proof.Machine.execGlobalChannelPeek acc s
  | .resetRelease good => Sys2Proof.Machine.execResetRelease good s
  | .mbuEnable acc m ctl => Sys2Proof.Machine.execMbuEnable acc m ctl s

end Sys2Proof.Machine
end

