-- ==== Sys2Proof/Machine/Tick.lean ====
section
/-! DEFINITION. What a step does when no command waits: time passes (log 1). The step that begins a cycle ends the cycle
before it and puts in the queue what the cycle brings before any thread issues (R53, R231); the next one puts in the queue
what threads and sequencers execute in the cycle, and what comes after them. Each of these is a command of the table, which
checks its own conditions when it acts. -/
namespace Sys2Proof.Machine

/-! ### The end of a cycle -/

/-- The keys of the lanes that are listed. -/
def State.laneKeys (s : State) : List Nat := s.lanes.map Prod.fst

/-- Sequencers at the end of a cycle: output changes, captures that arrived, value writes, a STOP through a port (R280, R290,
R292, R294). -/
def State.settleSeqs (s : State) : State :=
  let s := s.each s.laneKeys fun s k => ((s.settleLane (k / 8) (k % 8)).settleCaps (k / 8) (k % 8)).settleFl (k / 8) (k % 8)
  s.each s.psqList fun s q =>
    let s := s.settleV q
    if (s.psq q).stopping then s.psqHalt q true else s

/-- Event flags that read 0 from now on, and settings that no longer lag, need no entry. -/
def State.settleFlags (s : State) : State :=
  { s with flags := s.flags.filter (fun e => e.2.val || decide (s.cycle < e.2.since)),
           lags := s.lags.filter (fun l => decide (s.cycle + 1 < l.til)), bitOld := [], portOld := [] }

/-- A relaxed thread that could issue but for its store buffer (R176, R177). -/
def State.sbStalls (s : State) (g : Nat) : Bool :=
  let t := s.thr g
  s.active && !s.det g && s.countsReady g && decide (t.next ≤ s.cycle) && s.sbHolds g

/-- The counts of a cycle that ends: empty cycles, store-buffer stalls (CORE_EMPTY, CORE_TSBSTALL). -/
def State.countCycle (s : State) : State :=
  if s.active then
    let s := s.each (upto 32) fun s n => if (s.core n).issued = some s.cycle then s else s.bump (.coreEmpty n) 1
    s.each (s.threadList.filter s.sbStalls) fun s g => s.bump (thrReg .coreTsbstall g) 1
  else s

/-- The sets in the order in which they are examined: wait groups first, which may make a report for a cluster needless (R215). -/
def dlSets : List DlSet :=
  ((upto 16).map fun g => DlSet.group (BitVec.ofNat 4 g)) ++ (upto 8).map fun c => DlSet.cluster (BitVec.ofNat 3 c)
/-- A deadlock that no longer holds may be reported anew (R215). -/
def State.settleDeadlocks (s : State) : State :=
  { s with dlDone := s.dlDone.filter fun i => dlSets.any fun d => dlIdx d == i && s.deadlocked d }

/-- A cycle ends. -/
def State.endCycle (s : State) : State :=
  (s.each (upto 32) State.tmrSettle).settleSeqs.settleFlags.countCycle.settleDeadlocks

/-! ### The next cycle -/

/-- The count of cycles since a slew unit (R248). -/
def State.slewCycle (s : State) : State :=
  if s.slew = 0 then s else { s with commons := { s.commons with slewCnt := s.commons.slewCnt + 1 } }

/-- The next cycle begins: the slot pointers (R54) and Commons time advance. -/
def State.beginCycle (s : State) : State :=
  let s := s.advanceTime.slewCycle
  { s with cycle := s.cycle + 1, sptr := (s.sptr + 1) % 32 }

/-- A HOLD requested for this cycle is accepted in REHEARSE and RUN (R19, R362, R377). -/
def State.acceptHold (s : State) : State :=
  match s.holdReq with
  | none => s
  | some (src, c) =>
    if s.cycle < c then s
    else
      let s : State := { s with holdReq := none }
      if s.active then s.enterHold src else s

/-- Lines of chip memory that threads await: the fill of each is in flight (R69). -/
def State.startFills (s : State) : State :=
  if s.active then
    s.each (s.threadList.filter fun g => !s.det g && s.countsReady g && (s.thr g).miss.isNone && s.lacks g) fun s g =>
      s.setThr g { s.thr g with miss := s.awaited g }
  else s

/-- What begins with a cycle: divisions that end, captures of event flags that now read 1, a HOLD, fills. -/
def State.openCycle (s : State) : State :=
  let s := s.each s.threadList State.finishDiv
  let s := s.each (s.flags.filter fun e => e.2.val && !e.2.old && e.2.since == s.cycle) fun s e =>
    s.flagCaptures (e.1 / 256) (e.1 % 256)
  s.acceptHold.startFills

/-! ### What a cycle brings before the threads issue -/

def tid (g : Nat) : Tid := BitVec.ofNat 9 g

/-- Mode changes come first (R231). -/
def State.modeCmds (s : State) : List Instr :=
  (if s.pend.isSome then [.returnFromHold, .enterConfigure, .leaveConfigure, .rehearseRunSwitch, .enterRetain, .retainExit] else [])

/-- Boundaries in ascending domain number, then commits that have lasted 150 cycles (R233). -/
def State.boundaryCmds (s : State) : List Instr :=
  ((upto 4).filter s.boundaryDue).map (fun d => .swathBoundary (BitVec.ofNat 2 d)) ++
  (s.commits.filter fun c => decide (c.start + 150 ≤ s.cycle)).map fun _ => .commitComplete

/-- Commons, timers in ascending number (R264), and reports of the cycle before (R351). -/
def State.timeCmds (s : State) : List Instr :=
  (if s.slew = 0 then [] else [.slewUnit]) ++
  ((upto 32).filter fun ch => s.rb (.tmrCtl ch) 31).map (fun ch => .timerFire (BitVec.ofNat 5 ch)) ++
  (if s.watchdogDue then [.watchdogExpiry] else []) ++
  (s.reports.filter fun r => decide (r.cyc < s.cycle)).map fun _ => .faultReport

/-- Store buffers, scrub writes (R178, R190). -/
def State.memCmds (s : State) : List Instr :=
  (s.threadList.filter fun g => !(s.thr g).sb.isEmpty).map (fun g => .storeBufferDrain (tid g)) ++
  (if s.scrubs.isEmpty then [] else [.scrubWrite])

/-- Movers: a start by flag, the descriptor in progress, the end of the chain (R185 to R187). -/
def State.moverCmds (s : State) : List Instr :=
  (upto 32).flatMap fun m =>
    let k : BitVec 5 := BitVec.ofNat 5 m
    let w := s.mctl m
    let mv := s.mover m
    (if mv.on && mv.last then [.moverChainComplete k] else if mv.on && !mv.held then [.moverDescriptorDone k] else []) ++
    (if bit w 31 && fld w 30 29 == 1 && s.flagNow (moverCl m) (fld w 7 0) then [.moverFlagStart k] else [])

/-- The servo mailbox and the MBUs: doorbells, results to write, heads to load (R255, R327, R331). -/
def State.portCmds (s : State) : List Instr :=
  (if s.rb .cmnSrv 31 && s.flagNow (s.rf .cmnSrv 26 24) (s.rf .cmnSrv 7 0) then [.servoMailboxCommand] else []) ++
  (upto 16).flatMap fun m =>
    let k : BitVec 4 := BitVec.ofNat 4 m
    (if s.bellDue m then [.doorbell k] else []) ++
    (s.mbu m).fin.map (fun d => .transmitComplete k (BitVec.ofNat 6 d.queue)) ++
    (s.mbu m).want.map fun j => .descriptorLoad k (BitVec.ofNat 6 j)

/-- Parks that end (R304). -/
def State.pinCmds (s : State) : List Instr :=
  (s.pins.filter fun e => match e.2.parkTil with | some t => decide (t ≤ s.cycle) | none => false).map
    fun e => .parkEnd (BitVec.ofNat 8 e.1)

/-- Threads: accepted stops and halts, budgets, wake times; then the end of a HOLD's settling (R384, R45, R137, R22). -/
def State.threadCmds (s : State) : List Instr :=
  (s.threadList.filter s.stopDue).map (fun g => .threadStopAtBoundary (tid g)) ++
  (s.threadList.filter fun g => (s.budgetDue g).isSome).map (fun g => .budgetExpiry (.thread (tid g))) ++
  ((upto 32).filter s.moverBudgetDue).map (fun m => .budgetExpiry (.mover (BitVec.ofNat 5 m))) ++
  (s.threadList.filter fun g => match (s.thr g).doze with | .til w _ => atOrAfter s.now w | _ => false).map
    (fun g => .dozeWake (tid g)) ++
  (if s.mode = .hold ∧ ¬ s.settled then [.holdSettled] else [])

/-- Cores whose wake begins or ends: the cause of an unplanned one came in the cycle before (R344, R345). -/
def State.wakeCmds (s : State) : List Instr :=
  ((upto 32).filter fun n => (s.core n).dz != 0 && (s.wakeDue n || s.wakeDone n)).flatMap fun n => [.wakeStart (BitVec.ofNat 5 n), .wakeComplete (BitVec.ofNat 5 n)]

/-- What a cycle brings before the threads issue, in order. -/
def State.cycleCmds (s : State) : List Instr :=
  s.modeCmds ++ s.boundaryCmds ++ s.threadCmds ++ s.timeCmds ++ s.memCmds ++ s.moverCmds ++ s.portCmds ++ s.pinCmds ++ s.wakeCmds

/-! ### What threads and sequencers execute in a cycle -/

def threadRowsA : List (Nat × (Tid → Instr)) := [
  (0x001, .mov), (0x002, .ldi), (0x003, .swap), (0x004, .clr), (0x005, .nop), (0x006, .flgSet), (0x007, .flgClr),
  (0x008, .sext), (0x009, .zext), (0x00A, .bswap), (0x00B, .lea), (0x010, .satnS), (0x011, .satnU), (0x040, .add),
  (0x041, .addc), (0x042, .sub), (0x043, .subc), (0x044, .addSs), (0x045, .addSu), (0x046, .subSs), (0x047, .subSu),
  (0x048, .neg), (0x049, .abs), (0x04A, .addi), (0x050, .cmp), (0x051, .cmn), (0x052, .cmpi), (0x054, .minS),
  (0x055, .minU), (0x056, .maxS), (0x057, .maxU), (0x080, .and), (0x081, .or), (0x082, .xor), (0x083, .andn),
  (0x084, .orn), (0x085, .xnor), (0x086, .not), (0x087, .tst), (0x088, .andi)]
def threadRowsB : List (Nat × (Tid → Instr)) := [
  (0x089, .ori), (0x08A, .xori), (0x08B, .tsti), (0x090, .shl), (0x091, .shr), (0x092, .sar), (0x093, .rol),
  (0x094, .ror), (0x098, .shli), (0x099, .shri), (0x09A, .sari), (0x09B, .roli), (0x09C, .rori), (0x0A0, .clz),
  (0x0A1, .ctz), (0x0A2, .popc), (0x0A3, .brev), (0x0C0, .bset), (0x0C1, .bclr), (0x0C2, .btgl), (0x0C3, .btst),
  (0x0C4, .bsetr), (0x0C5, .bclrr), (0x0C6, .btglr), (0x0C7, .btstr), (0x0D0, .bmov), (0x0D1, .bnot), (0x0D2, .band),
  (0x0D3, .bor), (0x0D4, .bxor), (0x0D5, .bandn), (0x0D6, .bld), (0x0D7, .bstf), (0x0E0, .bfxU), (0x0E1, .bfxS),
  (0x0E2, .bfi), (0x0E3, .bfc), (0x100, .b), (0x101, .jmp), (0x102, .call)]
def threadRowsC : List (Nat × (Tid → Instr)) := [
  (0x103, .ret), (0x104, .rete), (0x108, .cbr), (0x109, .djnz), (0x10A, .bbs), (0x10B, .bbc), (0x120, .loop),
  (0x121, .loopi), (0x122, .lbrk), (0x140, .mulU), (0x141, .mulS), (0x142, .mulL), (0x143, .mulhU), (0x144, .mulhS),
  (0x145, .muld), (0x148, .macU), (0x149, .macS), (0x14A, .msuU), (0x14B, .msuS), (0x14C, .accClr), (0x14D, .accX),
  (0x150, .divU), (0x151, .divS), (0x160, .fadd), (0x161, .fsub), (0x162, .fmul), (0x163, .fdiv), (0x164, .fsqrt),
  (0x165, .fma), (0x166, .fmsub), (0x168, .fmin), (0x169, .fmax), (0x16A, .fneg), (0x16B, .fabs), (0x16C, .fcpys),
  (0x170, .fcmp), (0x171, .fcmpS), (0x172, .fclass), (0x178, .fcvtf), (0x179, .fcvtiS)]
def threadRowsD : List (Nat × (Tid → Instr)) := [
  (0x17A, .fcvtiU), (0x17B, .icvtf), (0x17C, .frint), (0x1A0, .doze), (0x1A1, .swathWait), (0x1A4, .thrStart),
  (0x1A5, .thrEnd), (0x1A8, .tcmp), (0x1C0, .lockTry), (0x1C1, .lockRel), (0x1C2, .wait), (0x1C4, .evfSet),
  (0x1C5, .evfClr), (0x1C6, .evfTst), (0x1C8, .chw), (0x1C9, .che), (0x1CA, .chr), (0x1CB, .chd), (0x1CC, .chs),
  (0x1E0, .fenceL), (0x1E1, .fenceS), (0x1E2, .fenceA), (0x1E3, .fenceX), (0x1E8, .sync), (0x1EA, .cacheInv),
  (0x1EC, .slotW), (0x1F0, .sheafOpen), (0x1F1, .sheafJoin), (0x1F2, .sheafClose), (0x1F3, .sheafStat), (0x1F8, .psqAct),
  (0x1FA, .pinSet), (0x1FB, .pinClr), (0x1FC, .pinTgl)]
/-- The rows of opcode_table.json for the opcodes of Tables 33 to 45. -/
def threadRows : List (Nat × (Tid → Instr)) := threadRowsA ++ threadRowsB ++ threadRowsC ++ threadRowsD

/-- The command for an instruction with an opcode; an undefined opcode faults whatever row it is given to. -/
def rowFor (op : Nat) (g : Tid) : Instr :=
  match threadRows.find? fun r => r.1 == op with
  | some r => r.2 g
  | none => .nop g

/-- The place of a thread's instruction in its cycle: releases and closes first, other operations on lock units by the rotation
key of R201 for their evaluation cycle, others by thread number, SHEAF.CLOSE last, by context (R201, R231). -/
def State.placeOf (s : State) (g : Nat) (h : Head) : Nat :=
  if h.op = 0x1C1 ∨ h.op = 0x1C9 ∨ h.op = 0x1CB then g
  else if 0x1C0 ≤ h.op ∧ h.op ≤ 0x1CC ∧ ¬ (0x1C4 ≤ h.op ∧ h.op ≤ 0x1C6) then
    let key := if natFld h.xf 9 9 = 1 then (coreOf g + s.sptr + 5) % 32 else (coreOf g % 4 + s.sptr + 1) % 4
    0x10000 + 0x400 * key + g
  else if h.op = 0x1F2 then 0x30000 + 0x400 * h.xf + g
  else 0x20000 + g

/-- What core `n` issues in this cycle, with its place: an event entry, a breakpoint, an instruction. -/
def State.coreCmd (s : State) (n : Nat) : Option (Nat × Instr) :=
  match s.issuer n with
  | none => none
  | some (g, _) =>
    if (s.eventNow g).isSome then some (0x20000 + g, .eventEntry (tid g))
    else if (s.bpHit g).isSome then some (0x20000 + g, .breakpointHit (tid g))
    else match s.fetch g (s.thr g).pc with
      | .ok h _ => some (s.placeOf g h, rowFor h.op (tid g))
      | .bad _ => some (0x20000 + g, .nop (tid g))
      | .miss _ => none

/-- A command put among others by its place. -/
def putInPlace (c : Nat × Instr) : List (Nat × Instr) → List (Nat × Instr)
  | [] => [c]
  | d :: r => if c.1 < d.1 then c :: d :: r else d :: putInPlace c r

/-- What the cores issue in this cycle, in order. -/
def State.issueCmds (s : State) : List Instr :=
  (((upto 32).filterMap s.coreCmd).foldl (fun l c => putInPlace c l) []).map Prod.snd

/-- The rows of the program engine, by opcode from 1 up (Table 87). -/
def engineRows : List (BitVec 6 → Instr) := [
  .psqSet, .psqTgl, .psqOe, .psqOutb, .psqInb, .psqDly, .psqWlvl, .psqWedg, .psqWcnt, .psqWtrg, .psqSig, .psqLdv, .psqDjnz,
  .psqJmp, .psqBlv, .psqCntc, .psqRarm, .psqEnd]

/-- The command for a program word; a rejected word faults whatever row it is given to (R276). -/
def engineRow (w : Word) (q : BitVec 6) : Instr := ((engineRows[fld w 31 27 - 1]?).getD .psqSet) q

/-- What the program engine of sequencer `q` does in this cycle (R277, R278, R286). -/
def State.engineCmds (s : State) (q : Nat) : List Instr :=
  let p := s.psq q
  let k : BitVec 6 := BitVec.ofNat 6 q
  if p.st = .stalled then [.shiftStallRelease k]
  else match p.dly with
    | some t => if t ≤ s.cycle then [.psqDlyExpiry k, engineRow (s.progWord q (p.pc.toNat + 1)) k] else []
    | none => if s.psqDue q then [engineRow (s.progWord q p.pc.toNat) k] else []

/-- The command for a due action (Table 88). -/
def actionRow (a : DWord) (q : BitVec 6) : Instr :=
  if actKind a = 1 then .actionLevel q else if actKind a = 2 then .actionDrive q
  else if actKind a = 3 then .actionTrig q else .actionLoad q

/-- What sequencer `q` does in this cycle: edges, counter ticks, its program, actions, reflexes. -/
def State.seqCmds (s : State) (q : Nat) : List Instr :=
  let p := s.psq q
  let k : BitVec 6 := BitVec.ofNat 6 q
  ((upto 8).filter fun l => (s.lane q l).edge.isSome).map (fun l => .edgeRecognised k (BitVec.ofNat 3 l)) ++
  ((upto 2).filter fun c => s.rb (.psqCnt q c) 31).map (fun c => .counterTick k (BitVec.ofNat 1 c)) ++
  s.engineCmds q ++
  (p.fifo.filter s.actDue).map (fun a => actionRow a k) ++
  (p.rfx.filter fun x => decide (x.cyc ≤ s.cycle)).map fun x => .reflexFire k (BitVec.ofNat 2 x.pair)

/-- The sequencers that may have something to do: those listed, those with lanes listed, those with a counter that runs. -/
def State.seqList (s : State) : List Nat :=
  (upto 64).filter fun q => s.psqList.contains q || s.laneKeys.any (fun k => k / 8 == q) || s.rb (.psqCnt q 0) 31 || s.rb (.psqCnt q 1) 31

/-- The posted writes of the cycle: other agents see them from the next cycle on (R171, R174). -/
def State.postedCmds (s : State) : List Instr :=
  ((upto 32).filter fun n => s.posted.any fun w => w.core == n && decide (w.perf ≤ s.cycle)).map
    fun n => .postedWritePerform (BitVec.ofNat 5 n)

/-- What comes last in a cycle: posted writes, the standing order of the cycle (R362, R231), the examination of the deadlock sets in every
64th cycle (R215), cores that may doze from the next cycle on (R344). -/
def State.lastCmds (s : State) : List Instr :=
  s.postedCmds ++ (if s.mode = .run then [.standingOrderExecute] else []) ++
  (if s.active && s.cycle % 64 == 0 then (dlSets.filter s.deadlocked).map .deadlock else []) ++
  (if s.active then ((upto 32).filter fun n => (s.core n).dz == 0 && s.rf (.pwrDzcfg n) 1 0 != 0).map fun n =>
      .dozeEnter (BitVec.ofNat 5 n)
   else [])

/-- What a cycle brings from its issues on, in order. -/
def State.issuePhase (s : State) : List Instr := s.issueCmds ++ s.seqList.flatMap s.seqCmds ++ s.lastCmds

/-- A thread whose issue in this cycle the wake of its core delays (R345). -/
def State.noteDelay (s : State) (n : Nat) : State :=
  let c := s.core n
  if s.active ∧ c.dz ≠ 0 ∧ c.slow ∧ c.wakeAt.isSome then
    match (s.setCore n { c with dz := 0 }).issuer n with
    | some (g, _) => if c.delayed.contains g then s else s.setCore n { c with delayed := c.delayed ++ [g] }
    | none => s
  else s

/-- The cycles that cores spend in doze states (PWR_DZCNT), and the issues that a wake delays. -/
def State.countDozes (s : State) : State :=
  s.each (upto 32) fun s n =>
    let s := if (s.core n).dz = 0 then s else s.bump (.pwrDzcnt n ((s.core n).dz - 1)) 1
    s.noteDelay n

/-! ### The tick -/

/-- The step that begins a cycle. -/
def State.firstHalf (s : State) : State :=
  let s := s.endCycle.beginCycle.openCycle
  { s with half := true, pending := s.pending ++ s.cycleCmds }

/-- The step at which threads and sequencers act in the cycle. -/
def State.secondHalf (s : State) : State :=
  let s := s.countDozes
  { s with half := false, pending := s.pending ++ s.issuePhase }

/-- Time passes: in OFF and RETAIN the block has no clock, and only the model's count of cycles goes on. -/
def State.tick (s : State) : State :=
  if s.mode = .off then { s with cycle := s.cycle + 1 }
  else if s.mode = .retain then { s with cycle := s.cycle + 1, pending := s.pending ++ s.modeCmds }
  else if s.half then s.secondHalf else s.firstHalf

end Sys2Proof.Machine
end

