-- ==== Sys2Proof/WellFormed.lean ====
section
/-! DEFINITION. Which commands name something that the block has. -/
namespace Sys2Proof

/-- A lock number that its unit has (R199): 256 in a cluster, 512 in the global unit. -/
def lockListed (u : LockUnit) (l : Nat) : Bool :=
  match u with
  | .cluster _ => decide (l < 256)
  | .complex => decide (l < 512)

/-- A channel number that its unit has (R199): 32 in a cluster, 128 in the global unit. -/
def chanListed (u : LockUnit) (ch : Nat) : Bool :=
  match u with
  | .cluster _ => decide (ch < 32)
  | .complex => decide (ch < 128)

/-- The units that a command names exist: monitors 0 to 9 (Table 109), locks and channels (R199). -/
def Instr.wf : Instr → Bool
  | .supplySample r _ => decide (r.toNat < 10)
  | .lockReleaseHost _ u l => lockListed u l.toNat
  | .forceClose _ u ch => chanListed u ch.toNat
  | .discard _ u ch => chanListed u ch.toNat
  | .channelReset _ u ch => chanListed u ch.toNat
  | _ => true

end Sys2Proof
end

