-- ==== Sys2Proof/Safety.lean ====
section
/-! DEFINITION. What a safe run is: every waiting command names something that the block has, so no step faults. And the terms
in which the claims speak: what a command leads to, an issue that runs, what an instruction of a thread computes. -/
namespace Sys2Proof
open Sys2Proof.Machine

/-- Every waiting command is well-formed. -/
def queueWf (s : State) : Bool := s.pending.all Instr.wf

/-! ### Commands -/

/-- The command answers a next state, of which `P` holds. -/
def Leads (c : Instr) (s : State) (P : State → Prop) : Prop := ∃ t, exec c s = .next t ∧ P t

/-- The command changes nothing. -/
def Idle (c : Instr) (s : State) : Prop := exec c s = .next s

/-- Two readings of a numbered family agree but at `k`. -/
def OnlyAt {α : Type} (k : Nat) (f f' : Nat → α) : Prop := ∀ j, j ≠ k → f' j = f j

/-- The register store is the same but at the offsets of some registers. -/
def RegsBut (l : List Reg) (s t : State) : Prop := ∀ r : Reg, r.off ∉ l.map Reg.off → t.reg r = s.reg r

/-- The host or the Camin port reaches the register window (R25, R255). -/
def Open (s : State) (acc : Acc) : Prop := acc.path ≠ .mailbox ∧ s.mode ≠ .off ∧ s.mode ≠ .retain

/-- A refused access of the host or the Camin port changes nothing but that its report is on its way (R9, R12, R27, R353). -/
def refusal (s : State) (acc : Acc) (code off : Nat) : State :=
  { s with reports := s.reports ++ [⟨s.cycle + 1, code, pathSkind acc.path, 0, BitVec.ofNat 32 off, 0, false⟩] }

/-- The registers answer, whatever path reaches them (R25, R254). -/
def Answers (s : State) : Prop := s.mode ≠ .off ∧ s.mode ≠ .retain

/-- A refused access of any path; a mailbox refusal names the cluster of the mailbox (Table 111). -/
def turnedAway (s : State) (acc : Acc) (code off : Nat) : State :=
  { s with reports := s.reports ++ [⟨s.cycle + 1, code, pathSkind acc.path, s.pathSidx acc.path, BitVec.ofNat 32 off, 0, false⟩] }

/-- The rows that request a mode but HOLD, with the mode and its code (R16). -/
def modeRequests (acc : Acc) : List (Instr × Mode × Nat) :=
  [(.modeReqRetain acc, .retain, 1), (.modeReqConfigure acc, .configure, 2), (.modeReqRehearse acc, .rehearse, 3),
   (.modeReqRun acc, .run, 4)]

/-- The transitions of Table 11 that take effect at a D0 boundary. -/
def atD0 (s : State) : List (Mode × Mode) :=
  [(.configure, .rehearse), (.configure, .run), (.rehearse, .run), (.run, .rehearse), (.rehearse, .configure), (.run, .configure)] ++
  if s.heldFrom = .rehearse then [(.hold, .rehearse)] else if s.heldFrom = .run then [(.hold, .run)] else []

/-- The transitions of Table 11 that a request brings about without a boundary. -/
def noBoundary : List (Mode × Mode) := [(.configure, .retain), (.retain, .configure), (.hold, .configure)]

/-- A request for a mode is due at a D0 boundary of this cycle (R18). -/
def DueAtD0 (s : State) (m : Mode) : Prop := s.pend = some m ∧ s.pendCyc < s.cycle ∧ s.boundaryDue 0 = true

/-- The block in a kind of OFF, and the block at the end of a power-on initialisation: everything at its reset value but the
count of cycles, chip memory and the waiting commands, which are outside it. -/
def inOff (s : State) (p : OffPhase) : State :=
  { State.reset with mode := .off, off := p, cycle := s.cycle, chip := s.chip, pending := s.pending, half := s.half }
def afterInit (s : State) : State :=
  { State.reset with cycle := s.cycle, chip := s.chip, pending := s.pending, half := s.half }

/-- A register whose accepted write only sets its fields: it takes no command, starts nothing and has no class-T field. -/
def plain : Reg → Bool
  | .cpxCtl => false | .cpxTdrctl => false | .swdCtl _ => false | .swdPeriod _ => false | .ldgMbud _ => false
  | .ldgTbud _ => false | .cmnTime _ => false | .cmnEra => false | .cmnIncf => false | .cmnInci => false | .cmnRadj => false
  | .cmnSlew => false | .cmnStep => false | .cmnSync => false | .tmrCtl _ => false | .tmrTrig _ => false | .tmrCmp _ _ => false
  | .tmrIvl _ _ => false | .fltPop => false | .sorCtl _ => false | .hdgCfg _ => false | .hdgSlot _ _ => false
  | .glkLkrel => false | .clkLkrel _ => false | .glkChcmd => false | .clkChcmd _ => false | .clkEvset _ _ => false
  | .clkEvclr _ _ => false | .mbuCtl _ => false | .mbuAn _ => false | .mbuTdrctl _ => false | .mbuFqcfg _ _ => false
  | .coreSlot _ _ => false | .coreTctl _ _ => false | .coreWin _ _ => false | .coreEvv _ _ => false | .psqCnt _ _ => false
  | .coreTcmd _ => false | .coreDbgcmd _ => false | .coreDsrd _ _ => false | .corePc _ _ => false | .psqCmd _ => false
  | .psqPdata _ => false | .psqActLo _ => false | .psqActHi _ => false | .psqTrig _ => false | .psqV _ _ => false
  | _ => true

/-- The rows of Table 15: first and last offset, and whether a read and a write are open in CONFIGURE and in other modes. -/
def table15 : List (Nat × Nat × Bool × Bool × Bool × Bool) :=
  [(0x000000, 0x1FFFFF, true, true, true, false), (0x200000, 0x3FFFFF, true, true, true, true),
   (0x400000, 0x4FFFFF, true, true, true, true), (0x500000, 0x57FFFF, true, false, false, false),
   (0x580000, 0x58FFFF, true, true, true, true), (0x600000, 0x9FFFFF, true, true, true, true),
   (0xA00000, 0xBFFFFF, true, true, true, false), (0xC00000, 0xDFFFFF, true, true, false, false)]

/-- The 64-bit values under the wide-read rule that no FIFO holds (R245), by their low word. -/
def wide (s : State) : Reg → Option DWord
  | .swdBtime d 0 => some (s.reg64 (.swdBtime d))
  | .cmnTime 0 => some s.now
  | .tmrCmp ch 0 => some (s.tmrCmpRead ch)
  | .tmrLast ch 0 => some (s.timer ch).last
  | _ => none

/-- The high word of such a value. -/
def highWord : Reg → Reg
  | .swdBtime d _ => .swdBtime d 1
  | .cmnTime _ => .cmnTime 1
  | .tmrCmp ch _ => .tmrCmp ch 1
  | .tmrLast ch _ => .tmrLast ch 1
  | r => r

/-- The bytes from `k` on hold no error and no test of the Gleaner would have to end. -/
def Clean (s : State) (k n : Nat) : Prop := s.gleaner.ph ≠ .test ∧ ∀ g ∈ granules k n, s.mark g = .clean

/-- The Gleaner's window lies below its shadow, as every region of R193 does. -/
def WindowFits (s : State) : Prop := s.gleanBase + 256 ≤ 0x1010000

/-- The number of a unit's lock among all locks, and its release register (R199, R203). -/
def lockIndex (u : LockUnit) (l : Nat) : Nat := match u with | .cluster c => 256 * c.toNat + l | .complex => 0x800 + l
def releaseReg (u : LockUnit) : Reg := match u with | .cluster c => .clkLkrel c.toNat | .complex => .glkLkrel
/-- The number of a unit's channel among all channels, and its command register (R199, R212). -/
def chanIndex (u : LockUnit) (ch : Nat) : Nat := match u with | .cluster c => 32 * c.toNat + ch | .complex => 0x100 + ch
def chanReg (u : LockUnit) : Reg := match u with | .cluster c => .clkChcmd c.toNat | .complex => .glkChcmd
/-- A command of the host that may write a release register. -/
def hostRelease : Instr → Bool
  | .lockReleaseHost _ _ _ => true
  | .registerWrite _ _ _ _ => true
  | _ => false

/-- The time S + k × 16 × PERIOD of R32, and the boundary times of a domain that have passed beside the first (R35): a boundary
of `s` to `t`. -/
def firstBoundary (s : State) (d k : Nat) : DWord := s.reg64 (.swdStart d) + BitVec.ofNat 64 (k * (16 * s.rf (.swdPeriod d) 24 0))
def missed (s t : State) (d : Nat) : Nat := (s.now - (s.dom d).next).toNat / t.periodUnits d

/-- Thread `g` becomes IDLE (R61): its context stays; its membership, reservations and open messages end (R209, R211, R220). -/
def BecomesIdle (s t : State) (g : Nat) : Prop :=
  t = { s with threads := t.threads, chans := t.chans, reports := t.reports } ∧ OnlyAt g s.thr t.thr ∧
  (t.thr g).st = .idle ∧ (t.thr g).pc = (s.thr g).pc ∧ (t.thr g).flg = (s.thr g).flg ∧ (t.thr g).p = (s.thr g).p ∧
  (t.thr g).acc = (s.thr g).acc ∧ (t.thr g).q = (s.thr g).q ∧ (t.thr g).rem = (s.thr g).rem ∧ (t.thr g).mem = none ∧
  (t.thr g).waitOn = none ∧ (t.thr g).stopReq = none ∧ (t.thr g).haltReq = none ∧
  ∀ k, (t.chan k).res ≠ some g ∧ (t.chan k).heldBy g = false ∧ ((s.chan k).heldBy g = false → (t.chan k).msgs = (s.chan k).msgs)

/-- The bits of a special register that are not reserved (Table 28, R108). -/
def spMask (i : Nat) : DWord :=
  if i = 0x01 then 0x11F else if i = 0x02 then 0x00FFFF00 else if i = 0x04 then 0xF1F else if i = 0x05 then 0x7FFF
  else if i = 0x08 ∨ i = 0x0C ∨ i = 0x0E ∨ i = 0x0F then BitVec.allOnes 64 else if i = 0x0D then 0xFFFF
  else if i = 0x10 then 0x3 else if i = 0x11 then 0x1F else 0xFFFFFFFF

/-- A key lies in word `w` of the control block of mover `m` (R184). -/
def InControl (m w k : Nat) : Prop := ∃ i, i < 4 ∧ k = sharedKey (moverCl m) (moverBlk m w) + i
/-- The control block holds no error. -/
def ControlClean (s : State) (m : Nat) : Prop :=
  s.badGran (sharedKey (moverCl m) (moverBlk m 0)) 8 = none
/-- What a mover's events may change beside the bytes of memory. -/
def MoverFrame (s t : State) (m : Nat) : Prop :=
  t = { s with movers := t.movers, ram := t.ram, ecc := t.ecc, scrubs := t.scrubs, gleaner := t.gleaner, regs := t.regs, reports := t.reports, flags := t.flags } ∧ OnlyAt m s.mover t.mover
/-- A mover stops with a fault (R188): MSTAT shows the code with BUSY 0, and the fault is reported. -/
def MoverStopped (s t : State) (m code : Nat) (da : Word) : Prop :=
  bit (t.moverWord m (moverBlk m 2)) 31 = false ∧ fld (t.moverWord m (moverBlk m 2)) 23 16 = code ∧
  t.reports = s.reports ++ [⟨s.cycle + 1, code, 1, m, da, 0, false⟩]
/-- A mover is about to finish the descriptor at shared offset `k`, with these words, spaces, addresses and length (R186). -/
def MoverAt (s : State) (m k : Nat) (w0 w3 : Word) (ssp dsp src dst n : Nat) : Prop :=
  (s.mover m).on = true ∧ (s.mover m).last = false ∧ (s.mover m).held = false ∧ s.active = true ∧ (s.mover m).desc = k ∧
  w0 = s.moverWord m k ∧ w3 = s.moverWord m (k + 12) ∧ src = (s.moverWord m (k + 4)).toNat ∧ dst = (s.moverWord m (k + 8)).toNat ∧
  ssp = fld w3 27 25 ∧ dsp = fld w3 30 28 ∧ n = fld w3 19 0

/-- The mailbox's words: their first key, SFLAG cleared and the words read (R255, R190). -/
def mailboxKey (s : State) : Nat := sharedKey (s.rf .cmnSrv 26 24) 0x7FE00
def mailboxStart (s : State) : State := (s.clrFlag (s.rf .cmnSrv 26 24) (s.rf .cmnSrv 7 0)).passRead (mailboxKey s) 16
/-- The code of the first report that `u` makes beyond those of `s`, 0 for none. -/
def newCode (s u : State) : Nat := ((u.reports.drop s.reports.length).head?.map Report.code).getD 0
/-- The registers that a write of memory may change: counts of errors and of the Gleaner, and an armed injection. -/
def memRegs : List Reg := [.fltCnt 0x40, .cpxGyield, .cpxEinj] ++ (upto 8).map .cpxEccnt
/-- A mailbox command after its access, which left `u`: code, time and DFLAG, no other byte but the data words, no other flag. -/
def MailboxEnds (s u t : State) (code : Nat) : Prop :=
  t = { u with ram := t.ram, ecc := t.ecc, scrubs := t.scrubs, gleaner := t.gleaner, regs := t.regs, flags := t.flags } ∧
  RegsBut memRegs u t ∧ t.word (mailboxKey s + 4) = BitVec.ofNat 32 (2 ^ 31 + code) ∧
  t.word (mailboxKey s + 16) = lo32 s.now ∧ t.word (mailboxKey s + 20) = hi32 s.now ∧
  t.flagSet (s.rf .cmnSrv 26 24) (s.rf .cmnSrv 15 8) = true ∧
  ∀ c f, c < 8 → f < 256 → (c, f) ≠ (s.rf .cmnSrv 26 24, s.rf .cmnSrv 15 8) → t.flagSet c f = u.flagSet c f

/-- TMR_CTL would take a reserved encoding (R262, R264, Tables 81 to 83). -/
def TmrReserved (s : State) (ch : Nat) (v : Word) : Prop :=
  fld v 30 29 = 3 ∨ fld v 1 0 = 3 ∨ fld v 21 20 = 3 ∨ (fld v 30 29 = 2 ∧ (bit v 19 = true ∨ fld v 28 27 ≠ 0)) ∨
  ((fld v 28 27 ≠ 0 ∨ fld v 1 0 = 1) ∧ ch ≤ fld v 26 22) ∨ (fld v 28 27 = 3 ∧ hi32 (s.timer ch).ivl ≠ 0)
/-- The class-S fields of TMR_CTL are those of the register. -/
def TmrSame (s : State) (ch : Nat) (v : Word) : Prop :=
  fld v 30 22 = s.rf (.tmrCtl ch) 30 22 ∧ fld v 19 8 = s.rf (.tmrCtl ch) 19 8 ∧ fld v 1 0 = s.rf (.tmrCtl ch) 1 0
/-- A timer with one more capture: the third of a FIFO of two waits for the end of the cycle (R263). -/
def captured (t : Timer) (now : DWord) : Timer :=
  if t.caps.length < 2 then { t with caps := t.caps ++ [now] } else { t with lost := some now }
/-- A channel fires now (R258, R264, R265). -/
def TmrFires (s : State) (ch : Nat) : Prop :=
  s.tmrLive ch = true ∧ s.rf (.tmrCtl ch) 30 29 ≤ 1 ∧ (s.timer ch).armed = true ∧ (s.timer ch).fired ≠ some s.cycle ∧
  (s.rf (.tmrCtl ch) 28 27 = 3 → (s.timer ch).clk = 0 ∧ (s.timer (s.rf (.tmrCtl ch) 26 22)).fired = some s.cycle) ∧
  (s.rf (.tmrCtl ch) 28 27 ≠ 3 → (s.now - (s.timer ch).next).toNat < 2 ^ 63) ∧
  (s.rf (.tmrCtl ch) 28 27 = 1 → (s.timer (s.rf (.tmrCtl ch) 26 22)).level = true)
/-- Channel `j` is an enabled slave of `m` (R264). -/
def SlaveOf (s : State) (m j : Nat) : Prop := m < j ∧ j < 32 ∧ s.rf (.tmrCtl j) 26 22 = m ∧ s.rb (.tmrCtl j) 31 = true

/-- What a sequencer's commands may change: its own state and lanes, registers and event flags. -/
def PsqFrame (s t : State) (q : Nat) : Prop :=
  t = { s with psqs := t.psqs, lanes := t.lanes, regs := t.regs, flags := t.flags } ∧ OnlyAt q s.psq t.psq ∧
  ∀ j l, j ≠ q → l < 8 → t.lane j l = s.lane j l
/-- An action word with no reserved value (Table 88). -/
def ActValid (a : DWord) : Prop :=
  a.extractLsb' 59 2 = 0 ∧
  ((a.extractLsb' 61 3 = 1 ∨ a.extractLsb' 61 3 = 2) ∧ a.extractLsb' 56 3 = 0 ∧ a.extractLsb' 48 8 ≠ 0 ∧ a.extractLsb' 40 8 = 0 ∨
   a.extractLsb' 61 3 = 3 ∧ a.extractLsb' 48 8 = 0 ∧ a.extractLsb' 32 16 = 0 ∨ a.extractLsb' 61 3 = 4 ∧ a.extractLsb' 48 8 = 0)
/-- A sequencer faults (R279): it stops with its PC, counters off, the first fault recorded, the fault reported. -/
def SeqFault (s t : State) (q code : Nat) (dirm : Bool) : Prop :=
  t = { s with psqs := t.psqs, regs := t.regs, reports := t.reports } ∧ OnlyAt q s.psq t.psq ∧
  t.psq q = { s.psq q with st := .stopped, dly := none, stopping := false, ran := (t.psq q).ran } ∧
  RegsBut [.psqCnt q 0, .psqCnt q 1, .psqFlt q] s t ∧ t.rb (.psqCnt q 0) 31 = false ∧ t.rb (.psqCnt q 1) 31 = false ∧
  t.rf (.psqCnt q 0) 30 0 = s.rf (.psqCnt q 0) 30 0 ∧ t.rf (.psqCnt q 1) 30 0 = s.rf (.psqCnt q 1) 30 0 ∧
  (s.rb (.psqFlt q) 31 = true → t.reg (.psqFlt q) = s.reg (.psqFlt q)) ∧
  (s.rb (.psqFlt q) 31 = false → t.reg (.psqFlt q) = 1#1 ++ 0#14 ++ BitVec.ofBool dirm ++ (s.psq q).pc ++ BitVec.ofNat 8 code) ∧
  t.reports = s.reports ++ [⟨s.cycle + 1, code, 3, q, (s.psq q).pc.setWidth 32, BitVec.ofNat 32 (b2n dirm), false⟩]
/-- The instruction words of Table 87, put together from the fields of `w`; the Bool says that no field is reserved. -/
def table87 (w : Word) : List (Word × Bool) :=
  let f (h l : Nat) : BitVec (h - l + 1) := w.extractLsb' l (h - l + 1)
  [(1#5 ++ 0#3 ++ f 23 16 ++ f 15 8 ++ 0#5 ++ f 2 0, fld w 23 16 != 0), (2#5 ++ 0#3 ++ f 23 16 ++ 0#13 ++ f 2 0, fld w 23 16 != 0),
   (3#5 ++ 0#3 ++ f 23 16 ++ f 15 8 ++ 0#5 ++ f 2 0, fld w 23 16 != 0), (4#5 ++ f 26 26 ++ 0#15 ++ f 10 8 ++ 0#5 ++ f 2 0, true),
   (5#5 ++ f 26 26 ++ 0#15 ++ f 10 8 ++ 0#5 ++ f 2 0, true), (6#5 ++ 0#11 ++ f 15 0, fld w 15 0 != 0),
   (7#5 ++ 0#14 ++ f 12 12 ++ 0#1 ++ f 10 8 ++ 0#8, true), (8#5 ++ 0#16 ++ f 10 8 ++ 0#6 ++ f 1 0, fld w 1 0 != 0),
   (9#5 ++ f 26 26 ++ 0#26, true), (10#5 ++ 0#24 ++ f 2 0, true), (11#5 ++ 0#19 ++ f 7 0, true),
   (12#5 ++ f 26 24 ++ 0#8 ++ f 15 0, true), (13#5 ++ f 26 24 ++ 0#16 ++ f 7 0, true), (14#5 ++ 0#19 ++ f 7 0, true),
   (15#5 ++ 0#14 ++ f 12 12 ++ 0#1 ++ f 10 8 ++ f 7 0, true), (16#5 ++ f 26 26 ++ 0#24 ++ f 1 0, fld w 1 0 != 3),
   (17#5 ++ 0#22 ++ f 4 4 ++ 0#2 ++ f 1 0, true), (18#5 ++ 0#18 ++ f 8 8 ++ f 7 0, true)]
/-- The sequencer rows with their opcodes (Table 87). -/
def psqRows : List ((BitVec 6 → Instr) × Nat) :=
  [(.psqSet, 0x01), (.psqTgl, 0x02), (.psqOe, 0x03), (.psqOutb, 0x04), (.psqInb, 0x05), (.psqDly, 0x06), (.psqWlvl, 0x07),
   (.psqWedg, 0x08), (.psqWcnt, 0x09), (.psqWtrg, 0x0A), (.psqSig, 0x0B), (.psqLdv, 0x0C), (.psqDjnz, 0x0D), (.psqJmp, 0x0E),
   (.psqBlv, 0x0F), (.psqCntc, 0x10), (.psqRarm, 0x11), (.psqEnd, 0x12)]
/-- The engine of sequencer `q` executes in this cycle (R278): the modes run it, it is RUNNING or WAITING with no DLY in
progress, and it has not executed in this cycle. -/
def EngineDue (s : State) (q : Nat) : Prop :=
  s.active = true ∧ ((s.psq q).st = .running ∨ (s.psq q).st = .waiting) ∧ (s.psq q).dly = none ∧ (s.psq q).ran ≠ some s.cycle
/-- It executes the word `w` of opcode `op`, which R276 does not reject. -/
def Executes (s : State) (q op : Nat) (w : Word) : Prop :=
  EngineDue s q ∧ w = s.progWord q (s.psq q).pc.toNat ∧ fld w 31 27 = op ∧ psqBad w = false
/-- A sequencer that has executed in this cycle and goes on at `pc`. -/
def goneTo (s : State) (q : Nat) (pc : Byte) : Psq := { s.psq q with st := .running, ran := some s.cycle, pc := pc }
/-- Lane `l` of sequencer `q` takes a change at a phase, behind those of the same or an earlier place (R280): a change of its
value only with LMODE 0, and COLL where another change meets it. -/
def LaneTakes (s t : State) (q l ph pri : Nat) (op : ChgOp) : Prop :=
  let obeys := match op with | .en _ => true | _ => s.rf (.psqLcfg q l) 26 24 == 0
  t.lane q l = (if obeys then { s.lane q l with chg := insertChg ⟨ph, pri, op⟩ (s.lane q l).chg } else s.lane q l) ∧
  (obeys = true → (s.lane q l).chg.any (fun d => d.ph == ph) = true → t.rb (.psqStat q) 28 = true)

/-- An OUTB completes (R285): its lane takes the next bit of `x`, one bit fewer is left, the next instruction follows. -/
def OutbDone (s t : State) (q : Nat) (w : Word) (x : Shift) : Prop :=
  PsqFrame s t q ∧ t.flags = s.flags ∧ RegsBut [.psqStat q] s t ∧ t.sh q (fld w 26 26) = { x with bits := x.bits - 1 } ∧
  t.sh q (1 - fld w 26 26) = s.sh q (1 - fld w 26 26) ∧
  t.psq q = { goneTo s q ((s.psq q).pc + 1) with sh0 := (t.psq q).sh0, sh1 := (t.psq q).sh1 } ∧
  LaneTakes s t q (fld w 10 8) (fld w 2 0) 0
    (.val (x.data.getLsbD (if s.rb (.psqShcfg q (fld w 26 26)) 30 then x.bits - 1 else s.rf (.psqShcfg q (fld w 26 26)) 6 0 - x.bits)))
/-- An INB completes (R285): the sample of its lane enters `x`, the next instruction follows. -/
def InbDone (s t : State) (q : Nat) (w : Word) (x : Shift) : Prop :=
  let b : DWord := (BitVec.ofBool (s.sample q (fld w 10 8) (fld w 2 0))).setWidth 64
  t = { s with psqs := t.psqs } ∧ OnlyAt q s.psq t.psq ∧
  t.sh q (fld w 26 26) = { x with bits := x.bits + 1, data := if s.rb (.psqShcfg q (fld w 26 26)) 30 then x.data <<< 1 ||| b else x.data ||| b <<< x.bits } ∧
  t.sh q (1 - fld w 26 26) = s.sh q (1 - fld w 26 26) ∧
  t.psq q = { goneTo s q ((s.psq q).pc + 1) with sh0 := (t.psq q).sh0, sh1 := (t.psq q).sh1 }
/-- A sequencer after a wait instruction (R278). -/
def waited (s : State) (q : Nat) (met : Bool) : Psq :=
  if met then goneTo s q ((s.psq q).pc + 1) else { goneTo s q (s.psq q).pc with st := .waiting }
/-- What a change makes of a lane's value and enable (R280). -/
def chgOut (op : ChgOp) (o : Bool × Bool) : Bool × Bool :=
  match op with
  | .val b => (b, o.2)
  | .tgl => (!o.1, o.2)
  | .en b => (o.1, b)
/-- A lane after COUNT of counter `k` has changed to what `t` holds: a PWM output of it takes its level at FPH (R288). -/
def pwmLane (t : State) (q k l : Nat) (x : Lane) : Lane :=
  let on := decide ((t.cnt q k).count.toNat < (t.cnt q k).cmpl.toNat)
  if t.rf (.psqLcfg q l) 26 24 = k + 1 then { x with chg := insertChg ⟨t.rf (.psqCnt q k) 25 23, 0, .val on⟩ x.chg }
  else if t.rf (.psqLcfg q l) 26 24 = k + 3 then { x with chg := insertChg ⟨t.rf (.psqCnt q k) 25 23, 0, .val !on⟩ x.chg }
  else x

/-- An action of KIND `k` that the action unit executes in this cycle (R283): its TIME is reached at T + D − 1. -/
def ActsNow (s : State) (k : BitVec 3) (a : DWord) : Prop :=
  a.extractLsb' 61 3 = k ∧ (s.now32 + BitVec.ofNat 32 s.span - 1 - lo32 a).toNat < 2 ^ 31
/-- The FIFO of sequencer `q` holds `a` as its first action of KIND `k` that executes now, between `l` and `m`. -/
def FirstDue (s : State) (q : Nat) (k : BitVec 3) (l : List DWord) (a : DWord) (m : List DWord) : Prop :=
  s.active = true ∧ (s.psq q).fifo = l ++ a :: m ∧ ActsNow s k a ∧ ∀ b ∈ l, ¬ ActsNow s k b
/-- The phase of a short time in this cycle, 0 for one that a step passed over (R267). -/
def phaseAt (s : State) (a : DWord) : Nat :=
  if (lo32 a - s.now32).toNat < s.span then 8 * (lo32 a - s.now32).toNat / s.span else 0
/-- A slot of pin `p` names lane `l` of sequencer `q` (Table 96). -/
def namesLane (s : State) (p q l : Nat) : Prop := ∃ j, j < 4 ∧ s.slotUser p j = (1, 8 * q + l)
/-- Counter `k` counts one tick or edge (R287): up by 1, or to 0 with a wrap, its compare value and SHORT. -/
def CountsUp (s t : State) (q k : Nat) : Prop :=
  let n := (s.cnt q k).count.toNat + 1
  let v := (s.rf (.psqV q (2 * k)) 15 0)
  let p := if v = 0 then 65536 else v
  (n < p → t.cnt q k = { s.cnt q k with count := BitVec.ofNat 16 n, ticked := some s.cycle, base := (s.cnt q k).count } ∧
    t.rb (.psqStat q) (26 + k) = s.rb (.psqStat q) (26 + k)) ∧
  (p ≤ n → t.cnt q k = { s.cnt q k with count := 0, cmpl := BitVec.ofNat 16 (s.rf (.psqV q (2 * k + 1)) 15 0), wrap := some s.cycle, ticked := some s.cycle, base := (s.cnt q k).count } ∧
    t.rb (.psqStat q) (26 + k) = (s.rb (.psqStat q) (26 + k) || decide (p < n)) ∧
    (s.rb (.psqCnt q k) 19 = true → t.flagSet (psqCl q) (s.rf (.psqCnt q k) 15 8) = true))
/-- QUAD counts an edge of lane QA or QB by the levels after it (R289); a second edge in one cycle undoes the first. -/
def CountsQuad (s t : State) (q k : Nat) (onA : Bool) (a b : Bool) : Prop :=
  ((s.cnt q k).ticked = some s.cycle → t.cnt q k = { s.cnt q k with count := (s.cnt q k).base } ∧ t.rb (.psqStat q) 29 = true) ∧
  ((s.cnt q k).ticked ≠ some s.cycle → t.cnt q k = { s.cnt q k with ticked := some s.cycle, base := (s.cnt q k).count, count := if (a == b) = onA then (s.cnt q k).count - 1 else (s.cnt q k).count + 1 })

/-- The user of the lowest-numbered slot whose EN is in force (R302). -/
def activeUser (s : State) (p : Nat) : Option (Nat × Nat) := (s.activeSlot p).map (s.slotUser p)
/-- The Hedgerow has chosen the user of pin `p` afresh for cycle `c` (R302, R304, R308): a new one takes it after two cycles of
park; in HOLD nothing changes. -/
def Chosen (s t : State) (p c : Nat) : Prop :=
  OnlyAt p s.pin t.pin ∧
  (s.mode = .hold → t.pin p = s.pin p) ∧
  (s.mode ≠ .hold → activeUser t p = (s.pin p).user → t.pin p = { s.pin p with slot := (t.activeSlot p).getD 0 }) ∧
  (s.mode ≠ .hold → activeUser t p ≠ (s.pin p).user →
    t.pin p = { s.pin p with user := activeUser t p, slot := (t.activeSlot p).getD 0, parkTil := some (c + 2), reh := none })
/-- What a change of pin `p`'s registers may change besides: the pin, a measurement that ends, and the levels of its lanes. -/
def PinFrame (s t : State) (p : Nat) : Prop :=
  t = { s with regs := t.regs, held := t.held, pins := t.pins, tdrPin := t.tdrPin, lanes := t.lanes, psqs := t.psqs } ∧
  (∀ q l, ¬ namesLane t p q l → t.lane q l = s.lane q l) ∧
  (∀ q l, l < 8 → namesLane t p q l → (t.lane q l).lvl = t.laneIn q l) ∧ ∀ q, t.psq q = { s.psq q with rfx := (t.psq q).rfx }
/-- A secure owner bars a write of this pin, or of this owner, by an access that is not secure (R299). -/
def Barred (s : State) (acc : Acc) (p : Nat) (new : Nat) : Prop := acc.secure = false ∧ (s.owner p = 0x21 ∨ new = 0x21)
/-- Slot `j` of pin `p` is enabled, in force or in the shadow. -/
def slotOn (s : State) (p j : Nat) : Bool := s.slotEn p j || s.slotShadow p j

/-- Half `x` of a slot register may be written into slot `j` of pin `p` (R300, R301): its user is listed, an enabled slot keeps
its user outside CONFIGURE, and a slot that is or stays enabled has a user that matches the owner. -/
def SlotFits (s : State) (p j : Nat) (x : Word) : Prop :=
  userListed (fld x 13 12) (fld x 8 0) = true ∧ (s.mode = .configure ∨ slotOn s p j = false ∨ s.slotUser p j = (fld x 13 12, fld x 8 0)) ∧
  ((bit x 15 = true ∨ (s.slotEn p j = true ∧ bit x 14 = false ∧ s.mode ≠ .configure ∧ s.domEn (s.rf (.hdgCfg p) 23 22) = true)) →
    userMatches (s.owner p) (fld x 13 12) (fld x 8 0) = true)

/-- MBU_CTL would take a reserved encoding (Table 99, R316, R319). -/
def MbuReserved (s : State) (m : Nat) (v : Word) : Prop :=
  (4 ≤ fld v 30 28 ∧ (m < 12 ∨ fld v 27 26 ≠ 0)) ∨ (fld v 30 28 ≤ 1 ∧ 1 < fld v 27 26) ∨ (fld v 30 28 = 3 ∧ fld v 27 26 ≠ 1) ∨
  (fld v 15 12 ≠ 0 ∧ fld v 30 28 ≠ 2) ∨ (s.rb (.mbuAn m) 31 = true ∧ fld v 30 28 ≠ 4)
/-- The class-S fields of MBU_CTL are those of the register. -/
def MbuSame (s : State) (m : Nat) (v : Word) : Prop :=
  fld v 30 26 = s.rf (.mbuCtl m) 30 26 ∧ fld v 18 0 = s.rf (.mbuCtl m) 18 0
/-- The link of MBU `m` is down after the event: LDOWN notes a fall, IFU is IF again, a probe begins anew (R317, R318). -/
def LinkFallen (s t : State) (m : Nat) : Prop :=
  t.rb (.mbuLink m) 31 = false ∧ t.rb (.mbuLink m) 23 = (s.rb (.mbuLink m) 23 || s.rb (.mbuLink m) 31) ∧
  (s.rb (.mbuLink m) 31 = true → t.rf (.mbuLink m) 30 28 = t.rf (.mbuCtl m) 30 28 ∧ (t.mbu m).probe = 0)
/-- Only MBU `m` and its registers change. -/
def MbuFrame (s t : State) (m : Nat) (l : List Reg) : Prop :=
  t = { s with regs := t.regs, mbus := t.mbus } ∧ OnlyAt m s.mbu t.mbu ∧ RegsBut l s t

/-- The link of MBU `m` may come up with this coding and rate (R314, R317 to R319). -/
def MayRise (s : State) (m ifu sp : Nat) : Prop :=
  s.rb (.mbuCtl m) 31 = true ∧ s.rb (.mbuLink m) 31 = false ∧ Answers s ∧
  ifu = (if s.rf (.mbuCtl m) 30 28 = 7 then probeIf (s.mbu m).probe else s.rf (.mbuCtl m) 30 28) ∧
  (s.rf (.mbuCtl m) 30 28 < 4 → if s.rf (.mbuCtl m) 30 28 = 2 ∧ s.rf (.mbuCtl m) 27 26 = 3 then sp ≤ 2 else sp = s.rf (.mbuCtl m) 27 26) ∧
  (s.rb (.mbuAn m) 31 = true → s.rb (.mbuLink m) 25 = true ∧ s.rb (.mbuLp m) 5 = true) ∧ ¬ (ifu = 2 ∧ sp = 2 ∧ 32 < s.rf .cmnInci 6 0)

/-- The key of queue `j`'s head descriptor, and of the first byte after its ring (R325). -/
def headKey (s : State) (m j : Nat) : Nat := s.mbuKey m (32 * s.rf (.mbuFqcfg m j) 13 0 + 32 * s.rf (.mbuFqst m j) 7 0)
def ringBase (s : State) (m j : Nat) : Nat := s.mbuKey m (32 * s.rf (.mbuFqcfg m j) 13 0)
/-- The head index lies in its ring. -/
def HeadFits (s : State) (m j : Nat) : Prop := s.rf (.mbuFqst m j) 7 0 < 2 ^ s.rf (.mbuFqcfg m j) 27 24 ∧ s.rf (.mbuFqcfg m j) 27 24 ≤ 8
/-- The queue has no loaded head, no head to read and no result to write. -/
def QueueIdle (s : State) (m j : Nat) : Prop :=
  s.head m j = none ∧ (s.mbu m).want.contains j = false ∧ ((s.mbu m).fin.any fun d => d.queue == j) = false
/-- A descriptor is finished (R331): its head is gone, its result waits to be written, one count moves. -/
def Finished (s t : State) (m j k : Nat) (stamp : DWord) (res : Nat) : Prop :=
  t.head m j = none ∧ (∀ i l, (i, l) ≠ (m, j) → l < 64 → t.head i l = s.head i l) ∧ OnlyAt m s.mbu t.mbu ∧
  (t.mbu m).fin = (s.mbu m).fin ++ [⟨j, stamp, res⟩] ∧ RegsBut [.mbuCnt m k] s t ∧ t.reg (.mbuCnt m k) = satAdd (s.reg (.mbuCnt m k)) 1 ∧
  t = { s with heads := t.heads, mbus := t.mbus, regs := t.regs, reports := t.reports }
/-- LAUNCH_LATE of a queue (R329): SIDX is the global queue number, DA the TIME, DB 1 for a discard. -/
def lateReport (s : State) (m j : Nat) (time : Word) (db : Word) : Report := ⟨s.cycle + 1, 0x11, 4, 64 * m + j, time, db, false⟩
/-- The key of the receive slot at RXHEAD and its size (R322). -/
def rxKey (s : State) (m : Nat) : Nat := s.mbuKey m (s.rf (.mbuRxbase m) 18 0 + s.rf (.mbuRxhead m) 9 0 * (256 * 2 ^ s.rf (.mbuRxcfg m) 10 8))
def rxSize (s : State) (m : Nat) : Nat := 256 * 2 ^ s.rf (.mbuRxcfg m) 10 8
/-- The octets of a frame that are stored (R323, R324). -/
def rxKept (s : State) (m : Nat) (fr : Frame) : Nat := min (min fr.octets.length (rxSize s m - 32)) (fr.ovf.getD fr.octets.length)
/-- Word 0 of the slot header (Table 101). -/
def rxWord0 (s : State) (m : Nat) (fr : Frame) (good fwd : Bool) : Word :=
  1#1 ++ BitVec.ofBool (!good) ++ BitVec.ofBool fr.codeErr ++ BitVec.ofBool (decide (fr.octets.length < 64)) ++
  BitVec.ofBool (decide (rxSize s m - 32 < fr.octets.length)) ++ BitVec.ofBool fr.ovf.isSome ++ BitVec.ofBool fwd ++ 0#12 ++
  BitVec.ofNat 13 (min fr.octets.length 8191)
/-- A frame arrives at an enabled MBU with its link up (R323). -/
def Arrives (s : State) (m : Nat) : Prop := Answers s ∧ s.rb (.mbuCtl m) 31 = true ∧ s.rb (.mbuLink m) 31 = true
/-- A count of MBU_CNT moves exactly when `b` says so. -/
def Counts (s t : State) (m k : Nat) (b : Bool) : Prop := t.reg (.mbuCnt m k) = if b then satAdd (s.reg (.mbuCnt m k)) 1 else s.reg (.mbuCnt m k)
/-- The counts of a received frame's errors (MBU_CNT 1, 2, 3, 5). -/
def ErrorCounts (s t : State) (m : Nat) (fr : Frame) : Prop :=
  Counts s t m 1 (!fcsGood fr.octets) ∧ Counts s t m 2 fr.codeErr ∧ Counts s t m 3 (decide (fr.octets.length < 64)) ∧ Counts s t m 5 fr.ovf.isSome
/-- A descriptor of queue `j` whose frame may be sent: none of its fields is reserved (Table 102). -/
def DescValid (w0 w1 w3 : Word) : Prop :=
  fld w0 28 13 = 0 ∧ 1 ≤ fld w0 12 0 ∧ fld w0 12 0 ≤ 4060 ∧ fld w1 31 19 = 0 ∧ fld w1 18 0 + fld w0 12 0 ≤ 0x80000 ∧ w3 = 0

/-- The codes that the fault unit records (Table 112). -/
def table112 : List Nat :=
  [0x01, 0x02, 0x03, 0x04, 0x05, 0x10, 0x11, 0x12, 0x13, 0x20, 0x21, 0x30, 0x31, 0x32, 0x41, 0x42, 0x50, 0x51, 0x60, 0x61, 0x70, 0x71, 0x72]
/-- `r` is the report to record next: none of an earlier cycle comes before it (R351). -/
def NextReport (s : State) (r : Report) : Prop :=
  r ∈ s.reports ∧ r.cyc < s.cycle ∧ ∀ q ∈ s.reports, q.cyc < s.cycle → q = r ∨ r.cyc < q.cyc ∨ (r.cyc = q.cyc ∧ (r.code < q.code ∨
    (r.code = q.code ∧ (r.skind < q.skind ∨ (r.skind = q.skind ∧ r.sidx < q.sidx)))))
/-- The record of `r` triggers order `o` (R360). -/
def triggered (s : State) (r : Report) (o : Nat) : Bool :=
  decide (s.rb (.sorCtl o) 31 = true ∧ s.rf (.sorCtl o) 7 0 = r.code ∧ (s.rf (.sorCtl o) 23 20 = 15 ∨ s.rf (.sorCtl o) 23 20 = r.skind) ∧
    r.sidx &&& s.rf (.sorSrc o) 27 16 = s.rf (.sorSrc o) 11 0 &&& s.rf (.sorSrc o) 27 16)
/-- Order `o` is pending. -/
def pends (s : State) (o : Nat) : Bool := s.orders.any fun p => p.ord == o
/-- A field as it is after a saturating count of 1. -/
def upOne (w : Word) (hi lo : Nat) : Word := setFld w hi lo (min (2 ^ (hi - lo + 1) - 1) (fld w hi lo + 1))
/-- A write that sets ARM of order `o` is refused (R359, Table 112): a reserved SKIND, a class-S field that would change while
the order is armed or pending, or a new arming of an order that could not act. -/
def ArmRefused (s : State) (o : Nat) (v : Word) : Prop :=
  fld v 23 20 = 14 ∨
  ((s.rb (.sorCtl o) 31 = true ∨ pends s o = true) ∧ ¬ (fld v 30 30 = s.rf (.sorCtl o) 30 30 ∧ fld v 23 20 = s.rf (.sorCtl o) 23 20 ∧ fld v 7 0 = s.rf (.sorCtl o) 7 0)) ∨
  (s.rb (.sorCtl o) 31 = false ∧ (fld v 7 0 ∉ table112 ∨ (fld (s.reg (.sorAct o)) 31 25 = 0) ∨ s.rf (.sorPmov o) 31 24 = 0x21 ∨
    (0x22 < s.rf (.sorPmov o) 31 24 ∧ s.rf (.sorPmov o) 31 24 ≠ 0x3F)))
/-- `p` is the order to execute in this cycle (R362). -/
def NextOrder (s : State) (p : Pend) : Prop :=
  p ∈ s.orders ∧ p.cyc < s.cycle ∧ ∀ q ∈ s.orders, q.cyc < s.cycle → q = p ∨ p.cyc < q.cyc ∨ (p.cyc = q.cyc ∧ p.ord < q.ord)
/-- Pin `p` is one that order `o` moves, and slot `j` is one that it enables (R364). -/
def movesPin (s : State) (o p : Nat) : Bool := s.rb (.sorAct o) 30 && s.rb (.sorPins o (p / 32)) (p % 32) && s.owner p != 0x21
def movesSlot (s : State) (o p j : Nat) : Bool :=
  s.rb (.sorPmov o) (20 + j) && userMatches (s.rf (.sorPmov o) 31 24) (s.slotUser p j).1 (s.slotUser p j).2

/-- Each line is held at most once by a context, by a claim or by one side-store entry (R222). -/
def HeldOnce (s : State) : Prop :=
  Tab.wf (fun _ => none) s.claims = true ∧ ((s.side.map Prod.snd).filter Option.isSome).Nodup ∧ Tab.wf (fun _ => none) s.side = true ∧
  (s.claims.map Prod.fst).all (fun l => decide (l < 0x8000)) = true ∧
  s.side.all (fun e => decide (e.1 < 64) && match e.2 with | some (x, l) => decide (l < 0x8000) && s.claim l != some x | none => true) = true

/-! ### What every state that a run can reach is like -/

/-- The memories are in canonical form; the slot pointer is one of 32 (R54); the waiting commands are well-formed; the complex is
in some kind of OFF exactly in the mode OFF (R16), and only in HOLD is there a mode to return to, a source of the HOLD or a
settled HOLD (R18, R22). -/
structure Legal (s : State) : Prop where
  ram : Memory.wf s.ram = true
  chip : Memory.wf s.chip = true
  sptr : s.sptr < 32
  queue : queueWf s = true
  off : s.mode = .off ↔ s.off ≠ .live
  held : s.mode = .hold → s.heldFrom = .rehearse ∨ s.heldFrom = .run
  free : s.mode ≠ .hold → s.heldFrom = .off ∧ s.holdSrc = .none ∧ s.settled = false

/-! ### Thread instructions -/

/-- A taken branch costs a cycle more (R128). -/
def takenCycles (g : Go) : Nat :=
  match g with
  | .jump _ => 1
  | .seq => 0
  | .back _ => 0
  | .stay => 0
/-- One issue of R56 by thread `g`, of opcode `op`, runs: it begins as `x` (no event, breakpoint, stall or fault of rows 1 to 5
of Table 30 comes first), its condition is true (R90), and its operands are evaluated and read as `y` with no fault (R110). -/
def Runs (s : State) (g op : Nat) (x : Issue) (y : Gathered) : Prop :=
  s.begin g op = .go x ∧ x.holds g = true ∧ x.gather g = .ok y

/-- The state after an issue with the effect `a`: its writes, the next PC, the second half of a pair, the note of the issue. -/
def Done (x : Issue) (g : Nat) (y : Gathered) (a : Act) : State := x.close g (x.conclude g y a)

/-- Every issue of the opcode that runs completes, with the effect `f` of what its body sees. -/
def Performs (cmd : Tid → Instr) (op : Nat) (f : In → State → Act) : Prop :=
  ∀ (g : Tid) (s : State) (x : Issue) (y : Gathered), Runs s g.toNat op x y →
    exec (cmd g) s = .next (Done x g.toNat y (f y.c y.s))

/-- Operand `i` as a bit vector of the width of SZ. -/
def arg (c : In) (i : Nat) : BitVec c.w := BitVec.ofNat c.w (c.v i)

/-- N and Z of a result (R88). -/
def signFlags {w : Nat} (f : Flags) (r : BitVec w) : Flags := { f with n := r.msb, z := r == 0#w }

/-- Operand 1 takes a result, the result flags of R88 the flags given. -/
def takes {w : Nat} (s : State) (r : BitVec w) (f : Flags) : Act := ⟨s, [out 0 r.toNat], some f, .seq, 0⟩
/-- Operand 1 takes a result, N and Z describe it. -/
def takesNZ {w : Nat} (s : State) (c : In) (r : BitVec w) : Act := takes s r (signFlags c.fl r)
/-- The flags alone are written. -/
def flagsOnly (s : State) (f : Flags) : Act := ⟨s, [], some f, .seq, 0⟩

/-- A result of an exact integer: V is 1 exactly when the result, read as signed, is not that integer. -/
def withV {w : Nat} (f : Flags) (r : BitVec w) (exact : Int) : Flags := { signFlags f r with v := decide (r.toInt ≠ exact) }
/-- An exact integer clamped to the signed range of `w` bits. -/
def nearS (w : Nat) (i : Int) : BitVec w :=
  if (BitVec.intMax w).toInt < i then BitVec.intMax w
  else if i < (BitVec.intMin w).toInt then BitVec.intMin w else BitVec.ofInt w i
/-- An exact integer clamped to the unsigned range of `w` bits. -/
def nearU (w : Nat) (i : Int) : BitVec w :=
  if (2 ^ w - 1 : Nat) < i then BitVec.allOnes w else if i < 0 then 0#w else BitVec.ofInt w i
/-- The clamped result with its V. -/
def takesS (s : State) (c : In) (w : Nat) (i : Int) : Act := takes s (nearS w i) (withV c.fl (nearS w i) i)
def takesU (s : State) (c : In) (w : Nat) (i : Int) : Act :=
  takes s (nearU w i) { signFlags c.fl (nearU w i) with v := decide (((nearU w i).toNat : Int) ≠ i) }

/-- The flags of a sum with a carry in: C is the carry out, V signed overflow (R88). -/
def sumFlags {w : Nat} (f : Flags) (a b : BitVec w) (cin : Nat) : Flags :=
  { withV f (a + b + BitVec.ofNat w cin) (a.toInt + b.toInt + cin) with c := decide (2 ^ w ≤ a.toNat + b.toNat + cin) }
/-- The flags of a difference with a borrow in: C is 1 when no borrow occurs, V signed overflow (R88). -/
def diffFlags {w : Nat} (f : Flags) (a b : BitVec w) (bin : Nat) : Flags :=
  { withV f (a - b - BitVec.ofNat w bin) (a.toInt - b.toInt - bin) with c := decide (b.toNat + bin ≤ a.toNat) }

/-- SHL and SHLI by a count: C is the last bit shifted out, 0 past the width (R122). -/
def shiftedLeft (s : State) (c : In) (n : Nat) : Act :=
  takes s (arg c 1 <<< n) { signFlags c.fl (arg c 1 <<< n) with
    c := if n = 0 then c.fl.c else decide (n ≤ c.w) && (arg c 1).getLsbD (c.w - n) }
/-- SHR and SHRI by a count. -/
def shiftedRight (s : State) (c : In) (n : Nat) : Act :=
  takes s (arg c 1 >>> n) { signFlags c.fl (arg c 1 >>> n) with c := if n = 0 then c.fl.c else (arg c 1).getLsbD (n - 1) }
/-- SAR and SARI by a count: past the width every bit shifted out is the sign. -/
def shiftedArith (s : State) (c : In) (n : Nat) : Act :=
  takes s ((arg c 1).sshiftRight n) { signFlags c.fl ((arg c 1).sshiftRight n) with
    c := if n = 0 then c.fl.c else (arg c 1).getLsbD (min n c.w - 1) }
/-- ROL and ROLI by a count: C is the bit that wrapped last. -/
def rotatedLeft (s : State) (c : In) (n : Nat) : Act :=
  takes s ((arg c 1).rotateLeft n) { signFlags c.fl ((arg c 1).rotateLeft n) with
    c := if n = 0 then c.fl.c else ((arg c 1).rotateLeft n).getLsbD 0 }
/-- ROR and RORI by a count. -/
def rotatedRight (s : State) (c : In) (n : Nat) : Act :=
  takes s ((arg c 1).rotateRight n) { signFlags c.fl ((arg c 1).rotateRight n) with
    c := if n = 0 then c.fl.c else ((arg c 1).rotateRight n).msb }

/-- Bit `i` of operand 1 becomes `b`, no other bit is written, and B takes the old bit. -/
def bitTakes (s : State) (c : In) (i : Nat) (b : Bool) : Act :=
  let r := if b then arg c 0 ||| BitVec.twoPow c.w i else arg c 0 &&& ~~~ BitVec.twoPow c.w i
  ⟨s, [⟨0, r.toNat, 2 ^ i⟩], some { c.fl with b := (arg c 0).getLsbD i }, .seq, 0⟩
/-- The single-bit destination and B take a bit (R123). -/
def oneBit (s : State) (c : In) (b : Bool) : Act := ⟨s, [out 0 b.toNat], some { c.fl with b := b }, .seq, 0⟩
/-- The field of operand 1 becomes the low bits of `v`, and no other bit is written (R124). -/
def fieldTakes (s : State) (c : In) (v : BitVec c.w) : Act :=
  let mask : BitVec c.w := (BitVec.allOnes c.len).setWidth c.w <<< c.pos
  let r := (arg c 0 &&& ~~~ mask) ||| ((v.setWidth c.len).setWidth c.w <<< c.pos)
  ⟨s, [⟨0, r.toNat, mask.toNat⟩], some (signFlags c.fl r), .seq, 0⟩

/-- The target that a mode-10 operand word names: the head address + 4 × its signed 27-bit payload (R100, R125). -/
def relTarget (c : In) (i : Nat) : Word := c.pc + 4 * ((c.words.getD i 0).setWidth 27).signExtend 32

/-- P takes a product; N and Z describe all of it (R152). -/
def productIs (s : State) (c : In) (p : DWord) (v : Bool) : Act :=
  ⟨s.setThr c.g { s.thr c.g with p := p }, [], some { signFlags c.fl p with v := v }, .seq, 0⟩
/-- ACC takes a sum modulo 2^80, with V on signed overflow (R130, R153). -/
def accumulates (s : State) (c : In) (k : Int) : Act :=
  let a := (s.thr c.g).acc + BitVec.ofInt 80 k
  ⟨s.setThr c.g { s.thr c.g with acc := a }, [], some (withV c.fl a ((s.thr c.g).acc.toInt + k)), .seq, 0⟩
/-- Q and REM take a quotient and a remainder; N and Z describe the quotient at SZ (R132, R152). -/
def quotientIs {w : Nat} (s : State) (c : In) (n : BitVec w) (q r : DWord) (v : Bool) : Act :=
  ⟨s.setThr c.g { s.thr c.g with q := q, rem := r }, [], some { signFlags c.fl n with v := v }, .stay, 0⟩

/-- The quotient of a signed division by 0 (R132): the highest value for a dividend of 0 or more, else the lowest. -/
def noQuotient {w : Nat} (a : BitVec w) : BitVec w := if a.msb then BitVec.intMin w else BitVec.intMax w
/-- The flags of MULD: V where the signed product, and C where the unsigned one, does not fit in SZ. -/
def productFlags (c : In) (a b : BitVec c.w) : Flags :=
  { withV c.fl (a * b) (a.toInt * b.toInt) with c := decide (2 ^ c.w ≤ a.toNat * b.toNat) }

/-- RETE: PC and FLG from two near words; the reserved bits of FLG stay 0 (R78). -/
def returnsTo (s : State) (g pc flg : Nat) : Act :=
  ⟨s.setThr g { s.thr g with flg := BitVec.ofNat 32 flg &&& 0x11F }, [], none, .back (BitVec.ofNat 32 pc), 0⟩
/-- The wake time of a DOZE: the one of its first issue where an event interrupted it (R79), else its operand. -/
def wakeTime (t : Thread) (c : In) : DWord := ((t.again.find? fun e => e.1 == c.pc).map Prod.snd).getD (BitVec.ofNat 64 (c.v 0))
/-- The thread without the remembered wake time of the DOZE at its PC. -/
def awake (t : Thread) (c : In) : Thread := { t with again := t.again.filter fun e => e.1 != c.pc }
/-- The local thread that XF names. -/
def localThread (c : In) : Nat := 16 * coreOf c.g + c.h.xf

/-- The rounding direction of FPC that the FP unit uses (R150). -/
def roundMode (s : State) (c : In) : Nat := fld (s.fpcNow c.g) 1 0
/-- Operand 1 takes an FP result, FPS its exceptions (R151). -/
def fpIs (s : State) (r : FpRes) : Act := ⟨s, [out 0 r.val], none, .seq, r.ex⟩

/-- A unit's answer: its state and Z (R140). -/
def answers (c : In) (s : State) (granted : Bool) : Act := ⟨s, [], some { c.fl with z := granted }, .seq, 0⟩
/-- The thread waits on a target and stays at its PC (R204). -/
def waitsFor (s : State) (g : Nat) (w : WaitOn) : Act :=
  ⟨s.setThr g { s.thr g with st := .waiting, waitOn := some w }, [], none, .stay, 0⟩
/-- The thread's wait is over. -/
def waitsNoMore (s : State) (g : Nat) : State := s.setThr g { s.thr g with st := .ready, waitOn := none }
/-- The target of a WAIT (R140, R204). -/
def waitTarget (c : In) : WaitOn := ⟨natFld c.h.xf 11 10, c.h.xf.testBit 9, natFld c.h.xf 8 0⟩

/-- The sequencer that PSQ.ACT names: UNIT of the thread's own cluster (R145). -/
def actUnit (c : In) : Nat := 8 * clusterOf c.g + natFld c.h.xf 2 0
/-- PIN.SET, PIN.CLR or PIN.TGL on the pin of XF: OWNER_DENY where it is not given to the core (Table 46). -/
def pinTakes (x : Issue) (g : Nat) (y : Gathered) (f : Bool → Bool) : State :=
  if y.s.given (coreOf g) y.c.h.xf then
    Done x g y ⟨y.s.drivePort (coreOf g) y.c.h.xf (f (y.s.port (coreOf g) y.c.h.xf)), [], none, .seq, 0⟩
  else y.s.faultIssue g x.spill 5 0

/-- The words of a channel's messages, the oldest first. -/
def Machine.Chan.words (c : Chan) : List Word := (upto c.used).map fun i => c.word (c.head + i)

/-- A thread instruction's command and opcode. -/
abbrev ThreadOp := (Tid → Instr) × Nat
/-- The thread instructions with their opcodes (Tables 33 to 37, 39, 40, 42 to 45). -/
def threadOps : List ThreadOp :=
  [(.mov, 0x001), (.ldi, 0x002), (.swap, 0x003), (.clr, 0x004), (.nop, 0x005), (.flgSet, 0x006), (.flgClr, 0x007),
   (.sext, 0x008), (.zext, 0x009), (.bswap, 0x00A), (.lea, 0x00B), (.satnS, 0x010), (.satnU, 0x011)] ++
  [(.add, 0x040), (.addc, 0x041), (.sub, 0x042), (.subc, 0x043), (.addSs, 0x044), (.addSu, 0x045), (.subSs, 0x046),
   (.subSu, 0x047), (.neg, 0x048), (.abs, 0x049), (.addi, 0x04A), (.cmp, 0x050), (.cmn, 0x051), (.cmpi, 0x052),
   (.minS, 0x054), (.minU, 0x055), (.maxS, 0x056), (.maxU, 0x057)] ++
  [(.and, 0x080), (.or, 0x081), (.xor, 0x082), (.andn, 0x083), (.orn, 0x084), (.xnor, 0x085), (.not, 0x086), (.tst, 0x087),
   (.andi, 0x088), (.ori, 0x089), (.xori, 0x08A), (.tsti, 0x08B), (.shl, 0x090), (.shr, 0x091), (.sar, 0x092), (.rol, 0x093),
   (.ror, 0x094)] ++
  [(.shli, 0x098), (.shri, 0x099), (.sari, 0x09A), (.roli, 0x09B), (.rori, 0x09C), (.clz, 0x0A0), (.ctz, 0x0A1),
   (.popc, 0x0A2), (.brev, 0x0A3)] ++
  [(.bset, 0x0C0), (.bclr, 0x0C1), (.btgl, 0x0C2), (.btst, 0x0C3), (.bsetr, 0x0C4), (.bclrr, 0x0C5), (.btglr, 0x0C6),
   (.btstr, 0x0C7), (.bmov, 0x0D0), (.bnot, 0x0D1), (.band, 0x0D2), (.bor, 0x0D3), (.bxor, 0x0D4), (.bandn, 0x0D5),
   (.bld, 0x0D6), (.bstf, 0x0D7), (.bfxU, 0x0E0), (.bfxS, 0x0E1), (.bfi, 0x0E2), (.bfc, 0x0E3)] ++
  [(.b, 0x100), (.jmp, 0x101), (.call, 0x102), (.ret, 0x103), (.rete, 0x104), (.cbr, 0x108), (.djnz, 0x109), (.bbs, 0x10A),
   (.bbc, 0x10B), (.loop, 0x120), (.loopi, 0x121), (.lbrk, 0x122)] ++
  [(.mulU, 0x140), (.mulS, 0x141), (.mulL, 0x142), (.mulhU, 0x143), (.mulhS, 0x144), (.muld, 0x145), (.macU, 0x148),
   (.macS, 0x149), (.msuU, 0x14A), (.msuS, 0x14B), (.accClr, 0x14C), (.accX, 0x14D), (.divU, 0x150), (.divS, 0x151)] ++
  [(.fadd, 0x160), (.fsub, 0x161), (.fmul, 0x162), (.fdiv, 0x163), (.fsqrt, 0x164), (.fma, 0x165), (.fmsub, 0x166),
   (.fmin, 0x168), (.fmax, 0x169), (.fneg, 0x16A), (.fabs, 0x16B), (.fcpys, 0x16C), (.fcmp, 0x170), (.fcmpS, 0x171),
   (.fclass, 0x172), (.fcvtf, 0x178), (.fcvtiS, 0x179), (.fcvtiU, 0x17A), (.icvtf, 0x17B), (.frint, 0x17C)] ++
  [(.doze, 0x1A0), (.swathWait, 0x1A1), (.thrStart, 0x1A4), (.thrEnd, 0x1A5), (.tcmp, 0x1A8)] ++
  [(.lockTry, 0x1C0), (.lockRel, 0x1C1), (.wait, 0x1C2), (.evfSet, 0x1C4), (.evfClr, 0x1C5), (.evfTst, 0x1C6), (.chw, 0x1C8),
   (.che, 0x1C9), (.chr, 0x1CA), (.chd, 0x1CB), (.chs, 0x1CC)] ++
  [(.fenceL, 0x1E0), (.fenceS, 0x1E1), (.fenceA, 0x1E2), (.fenceX, 0x1E3), (.sync, 0x1E8), (.cacheInv, 0x1EA),
   (.slotW, 0x1EC)] ++
  [(.sheafOpen, 0x1F0), (.sheafJoin, 0x1F1), (.sheafClose, 0x1F2), (.sheafStat, 0x1F3), (.psqAct, 0x1F8), (.pinSet, 0x1FA),
   (.pinClr, 0x1FB), (.pinTgl, 0x1FC)]

/-- The thread instructions that touch nothing but their thread and their operands: Tables 33 to 40 and TCMP. -/
def ownOps : List ThreadOp := threadOps.filter fun p => decide (p.2 < 0x180) || p.2 == 0x1A8

/-- A place whose read has no effect and whose write, where there is one, goes to near RAM or bit RAM. -/
def Place.own : Machine.Place → Bool → Bool
  | .near _, _ => true
  | .bits _ _, _ => true
  | .imm _, _ => true
  | .time _ _, _ => true
  | .shared _, w => !w
  | .pi _, w => !w
  | .pin _ _, w => !w
  | .special _, w => !w
  | .port _ _, _ => false

/-- Every operand of an issue is such a place. -/
def OwnPlaces (x : Issue) (y : Gathered) : Prop :=
  (List.zip x.r.opds y.ps).all (fun e => Place.own e.2 e.1.use.writes) = true

/-- The keys that an issue's destinations and pointer updates cover. -/
def storedKeys (x : Issue) (g : Nat) (y : Gathered) : List Nat :=
  ((List.zip x.r.opds y.ps).flatMap fun e => if e.1.use.writes then x.s.keysOf g (x.h.bits e.1.wid) e.2 else []) ++
  y.wk.upd.flatMap fun u => u.map Prod.fst

/-- A thread as a fault leaves it (R60, R81): FAULTED, its context kept. -/
def Machine.Thread.afterFault (t : Thread) (next : Nat) : Thread :=
  { t with st := .faulted, prior := .idle, doze := .none, waitOn := none, step := false, cause := 0, skipBp := false, div := none,
           next := next }

/-- The registers that any issue of a thread may change: its counts, and the error counts and records. -/
def issueRegs (g : Nat) : List Reg :=
  [.coreTissue (coreOf g) (locOf g), .coreSpillcnt (coreOf g), .pwrDzstat (coreOf g), .fltCnt 0x40, .cpxGyield, .cpxUerec, .cpxEinj] ++
  (upto 8).map .cpxEccnt

end Sys2Proof
end

