-- ==== Sys2Proof/Certificates/Slice0/Obligations.lean ====
section
/-! DEFINITION. The statements for the provers: what the commands of each family do, what each leaves unchanged, and what holds of
every state. -/
open Sys2Proof Sys2Proof.Machine

/-- Every issue of ADD, ADDC, SUB, SUBC, their saturating forms, NEG, ABS, ADDI, CMP, CMN, CMPI, the minima and maxima and
TCMP that runs completes: operand 1 takes the sum, difference or choice at the width of SZ; N and Z describe it; C is the
carry out, or 1 when no borrow occurs, or kept; V is 1 exactly when the result read as signed is not the exact one, or when
it was clamped. -/
def Obligations.IntegerInstructionsComputeTable34 : Prop :=
  Performs .add 0x040 (fun c s => takes s (arg c 1 + arg c 2) (sumFlags c.fl (arg c 1) (arg c 2) 0)) ∧
  Performs .addc 0x041 (fun c s => takes s (arg c 1 + arg c 2 + BitVec.ofNat c.w c.fl.c.toNat) (sumFlags c.fl (arg c 1) (arg c
    2) c.fl.c.toNat)) ∧
  Performs .sub 0x042 (fun c s => takes s (arg c 1 - arg c 2) (diffFlags c.fl (arg c 1) (arg c 2) 0)) ∧
  Performs .subc 0x043 (fun c s => takes s (arg c 1 - arg c 2 - BitVec.ofNat c.w (!c.fl.c).toNat) (diffFlags c.fl (arg c 1)
    (arg c 2) (!c.fl.c).toNat)) ∧
  Performs .addSs 0x044 (fun c s => takesS s c c.w ((arg c 1).toInt + (arg c 2).toInt)) ∧
  Performs .addSu 0x045 (fun c s => takesU s c c.w ((c.v 1 : Int) + c.v 2)) ∧
  Performs .subSs 0x046 (fun c s => takesS s c c.w ((arg c 1).toInt - (arg c 2).toInt)) ∧
  Performs .subSu 0x047 (fun c s => takesU s c c.w ((c.v 1 : Int) - c.v 2)) ∧
  Performs .neg 0x048 (fun c s => takes s (-(arg c 1)) (diffFlags c.fl 0#c.w (arg c 1) 0)) ∧
  Performs .abs 0x049 (fun c s => takes s (arg c 1).abs
    { signFlags c.fl (arg c 1).abs with v := arg c 1 == BitVec.intMin c.w }) ∧
  Performs .addi 0x04A (fun c s => takes s (arg c 1 + BitVec.ofInt c.w c.h.imm) (sumFlags c.fl (arg c 1) (BitVec.ofInt c.w
    c.h.imm) 0)) ∧
  Performs .cmp 0x050 (fun c s => flagsOnly s (diffFlags c.fl (arg c 0) (arg c 1) 0)) ∧
  Performs .cmn 0x051 (fun c s => flagsOnly s (sumFlags c.fl (arg c 0) (arg c 1) 0)) ∧
  Performs .cmpi 0x052 (fun c s => flagsOnly s (diffFlags c.fl (arg c 0) (BitVec.ofInt c.w c.h.imm) 0)) ∧
  Performs .minS 0x054 (fun c s => takesNZ s c (if (arg c 2).slt (arg c 1) then arg c 2 else arg c 1)) ∧
  Performs .minU 0x055 (fun c s => takesNZ s c (if (arg c 2).ult (arg c 1) then arg c 2 else arg c 1)) ∧
  Performs .maxS 0x056 (fun c s => takesNZ s c (if (arg c 1).slt (arg c 2) then arg c 2 else arg c 1)) ∧
  Performs .maxU 0x057 (fun c s => takesNZ s c (if (arg c 1).ult (arg c 2) then arg c 2 else arg c 1)) ∧
  Performs .tcmp 0x1A8 (fun c s => flagsOnly s { signFlags c.fl (arg c 0 - arg c 1) with c := false, v := false })

/-- Every issue of MOV, LDI, SWAP, CLR, NOP, FLG.SET, FLG.CLR, SEXT, ZEXT, BSWAP, LEA, SATN.S and SATN.U that runs completes
with the value of Table 33 in its destination: SWAP exchanges both operands, SEXT extends from the width of XF with the
sign, SATN clamps to the width of XF, FLG.SET and FLG.CLR set and clear the bits of the mask in FLG. -/
def Obligations.MovesWriteTheirValues : Prop :=
  Performs .mov 0x001 (fun c s => takesNZ s c (arg c 1)) ∧
  Performs .ldi 0x002 (fun c s => takesNZ s c (BitVec.ofInt c.w c.h.imm)) ∧
  Performs .swap 0x003 (fun c s => ⟨s, [out 0 (c.v 1), out 1 (c.v 0)], none, .seq, 0⟩) ∧
  Performs .clr 0x004 (fun c s => takesNZ s c 0#c.w) ∧
  Performs .nop 0x005 (fun _ s => ⟨s, [], none, .seq, 0⟩) ∧
  Performs .flgSet 0x006 (fun c s => ⟨s.setThr c.g { s.thr c.g with flg := (s.thr c.g).flg ||| BitVec.ofNat 32 c.h.xf }, [],
    none, .seq, 0⟩) ∧
  Performs .flgClr 0x007 (fun c s => ⟨s.setThr c.g { s.thr c.g with flg := (s.thr c.g).flg &&& ~~~ BitVec.ofNat 32 c.h.xf },
    [], none, .seq, 0⟩) ∧
  Performs .sext 0x008 (fun c s => takesNZ s c (BitVec.ofInt c.w (BitVec.ofNat (szBits c.h.xf) (c.v 1)).toInt)) ∧
  Performs .zext 0x009 (fun c s => takesNZ s c ((BitVec.ofNat (szBits c.h.xf) (c.v 1)).setWidth c.w)) ∧
  Performs .bswap 0x00A (fun c s => takesNZ s c (BitVec.ofNat c.w (ofBytes (toBytes (c.w / 8) (c.v 1)).reverse))) ∧
  Performs .lea 0x00B (fun c s => ⟨s, [out 0 (c.v 1)], none, .seq, 0⟩) ∧
  Performs .satnS 0x010 (fun c s => takesS s c (szBits c.h.xf) (arg c 1).toInt) ∧
  Performs .satnU 0x011 (fun c s => takesU s c (szBits c.h.xf) (arg c 1).toInt)

/-- Every issue of the logic, shift, rotate and count instructions that runs completes with the result at the width of SZ. N
and Z describe it and V stays. A shift by a count other than 0 gives in C the last bit shifted out, 0 past the width of a
logical shift; a rotate gives the bit that wrapped last; a count of 0 keeps C. The count is not reduced for shifts: from the
width on the result is 0, or copies of the sign. CLZ and CTZ of 0 are the width. -/
def Obligations.LogicAndShiftsComputeTable35 : Prop :=
  Performs .and 0x080 (fun c s => takesNZ s c (arg c 1 &&& arg c 2)) ∧
  Performs .or 0x081 (fun c s => takesNZ s c (arg c 1 ||| arg c 2)) ∧
  Performs .xor 0x082 (fun c s => takesNZ s c (arg c 1 ^^^ arg c 2)) ∧
  Performs .andn 0x083 (fun c s => takesNZ s c (arg c 1 &&& ~~~ arg c 2)) ∧
  Performs .orn 0x084 (fun c s => takesNZ s c (arg c 1 ||| ~~~ arg c 2)) ∧
  Performs .xnor 0x085 (fun c s => takesNZ s c (~~~ (arg c 1 ^^^ arg c 2))) ∧
  Performs .not 0x086 (fun c s => takesNZ s c (~~~ arg c 1)) ∧
  Performs .tst 0x087 (fun c s => flagsOnly s (signFlags c.fl (arg c 0 &&& arg c 1))) ∧
  Performs .andi 0x088 (fun c s => takesNZ s c (arg c 1 &&& BitVec.ofInt c.w c.h.imm)) ∧
  Performs .ori 0x089 (fun c s => takesNZ s c (arg c 1 ||| BitVec.ofInt c.w c.h.imm)) ∧
  Performs .xori 0x08A (fun c s => takesNZ s c (arg c 1 ^^^ BitVec.ofInt c.w c.h.imm)) ∧
  Performs .tsti 0x08B (fun c s => flagsOnly s (signFlags c.fl (arg c 0 &&& BitVec.ofInt c.w c.h.imm))) ∧
  Performs .shl 0x090 (fun c s => shiftedLeft s c (c.v 2)) ∧
  Performs .shr 0x091 (fun c s => shiftedRight s c (c.v 2)) ∧
  Performs .sar 0x092 (fun c s => shiftedArith s c (c.v 2)) ∧
  Performs .rol 0x093 (fun c s => rotatedLeft s c (c.v 2)) ∧
  Performs .ror 0x094 (fun c s => rotatedRight s c (c.v 2)) ∧
  Performs .shli 0x098 (fun c s => shiftedLeft s c c.h.xf) ∧
  Performs .shri 0x099 (fun c s => shiftedRight s c c.h.xf) ∧
  Performs .sari 0x09A (fun c s => shiftedArith s c c.h.xf) ∧
  Performs .roli 0x09B (fun c s => rotatedLeft s c c.h.xf) ∧
  Performs .rori 0x09C (fun c s => rotatedRight s c c.h.xf) ∧
  Performs .clz 0x0A0 (fun c s => takesNZ s c (arg c 1).clz) ∧
  Performs .ctz 0x0A1 (fun c s => takesNZ s c (arg c 1).ctz) ∧
  Performs .popc 0x0A2 (fun c s => takesNZ s c (arg c 1).cpop) ∧
  Performs .brev 0x0A3 (fun c s => takesNZ s c (arg c 1).reverse)

/-- Every issue of the bit and bit-field instructions of Table 36 that runs completes. BSET, BCLR and BTGL change one bit of
operand 1 and B takes its old value (the R forms use the bit number modulo the width); BTST and BTSTR only test; the
single-bit instructions write the bit and B; BLD and BSTF move B; BFX extracts a field, BFI and BFC replace it and leave the
other bits. -/
def Obligations.BitInstructionsWriteTheirBits : Prop :=
  Performs .bset 0x0C0 (fun c s => bitTakes s c c.h.xf true) ∧
  Performs .bclr 0x0C1 (fun c s => bitTakes s c c.h.xf false) ∧
  Performs .btgl 0x0C2 (fun c s => bitTakes s c c.h.xf (!(arg c 0).getLsbD c.h.xf)) ∧
  Performs .btst 0x0C3 (fun c s => flagsOnly s { c.fl with b := (arg c 0).getLsbD c.h.xf }) ∧
  Performs .bsetr 0x0C4 (fun c s => bitTakes s c (c.v 1 % c.w) true) ∧
  Performs .bclrr 0x0C5 (fun c s => bitTakes s c (c.v 1 % c.w) false) ∧
  Performs .btglr 0x0C6 (fun c s => bitTakes s c (c.v 1 % c.w) (!(arg c 0).getLsbD (c.v 1 % c.w))) ∧
  Performs .btstr 0x0C7 (fun c s => flagsOnly s { c.fl with b := (arg c 0).getLsbD (c.v 1 % c.w) }) ∧
  Performs .bmov 0x0D0 (fun c s => oneBit s c (c.v 1 == 1)) ∧
  Performs .bnot 0x0D1 (fun c s => oneBit s c (!(c.v 1 == 1))) ∧
  Performs .band 0x0D2 (fun c s => oneBit s c (c.v 1 == 1 && c.v 2 == 1)) ∧
  Performs .bor 0x0D3 (fun c s => oneBit s c (c.v 1 == 1 || c.v 2 == 1)) ∧
  Performs .bxor 0x0D4 (fun c s => oneBit s c ((c.v 1 == 1) ^^ (c.v 2 == 1))) ∧
  Performs .bandn 0x0D5 (fun c s => oneBit s c (c.v 1 == 1 && !(c.v 2 == 1))) ∧
  Performs .bld 0x0D6 (fun c s => flagsOnly s { c.fl with b := c.v 0 == 1 }) ∧
  Performs .bstf 0x0D7 (fun c s => ⟨s, [out 0 c.fl.b.toNat], none, .seq, 0⟩) ∧
  Performs .bfxU 0x0E0 (fun c s => takesNZ s c (((arg c 1).extractLsb' c.pos c.len).setWidth c.w)) ∧
  Performs .bfxS 0x0E1 (fun c s => takesNZ s c (((arg c 1).extractLsb' c.pos c.len).signExtend c.w)) ∧
  Performs .bfi 0x0E2 (fun c s => fieldTakes s c (arg c 1)) ∧
  Performs .bfc 0x0E3 (fun c s => fieldTakes s c 0#c.w)

/-- Every issue of B, JMP, CALL, RET, RETE, CBR, DJNZ, BBS, BBC, LOOP, LOOPI and LBRK that runs completes. The first four
branch; CALL also writes the next sequential address; CBR branches on the flags of a − b, DJNZ while the decremented value
is not 0, BBS and BBC on one bit. A loop start sets LS, LE and LC of its level and branches to LE for a count of 0; LBRK
clears LC and branches to LE. RETE takes PC and FLG from near offsets 0 and 4 where both words can be read. -/
def Obligations.BranchesAndLoopsTransferControl : Prop :=
  Performs .b 0x100 (fun c s => ⟨s, [], none, .jump (c.pc + BitVec.ofInt 32 (4 * c.h.imm)), 0⟩) ∧
  Performs .jmp 0x101 (fun c s => ⟨s, [], none, .jump (BitVec.ofNat 32 (c.v 0)), 0⟩) ∧
  Performs .call 0x102 (fun c s => ⟨s, [out 0 c.nxt.toNat], none, .jump (BitVec.ofNat 32 (c.v 1)), 0⟩) ∧
  Performs .ret 0x103 (fun c s => ⟨s, [], none, .jump (BitVec.ofNat 32 (c.v 0)), 0⟩) ∧
  Performs .cbr 0x108 (fun c s => ⟨s, [], some (diffFlags c.fl (arg c 0) (arg c 1) 0), if (diffFlags c.fl (arg c 0) (arg c 1)
    0).holds c.h.xf then .jump (relTarget c 2) else .seq, 0⟩) ∧
  Performs .djnz 0x109 (fun c s => ⟨s, [out 0 (arg c 0 - 1#c.w).toNat], some (signFlags c.fl (arg c 0 - 1#c.w)), if arg c 0 -
    1#c.w = 0#c.w then .seq else .jump (relTarget c 1), 0⟩) ∧
  Performs .bbs 0x10A (fun c s => ⟨s, [], some { c.fl with b := (arg c 0).getLsbD c.h.xf }, if (arg c 0).getLsbD c.h.xf then
    .jump (relTarget c 1) else .seq, 0⟩) ∧
  Performs .bbc 0x10B (fun c s => ⟨s, [], some { c.fl with b := (arg c 0).getLsbD c.h.xf }, if (arg c 0).getLsbD c.h.xf then
    .seq else .jump (relTarget c 1), 0⟩) ∧
  Performs .loop 0x120 (fun c s => ⟨s.setThr c.g ((s.thr c.g).setLoop (c.h.xf % 4) ⟨c.nxt, relTarget c 1, BitVec.ofNat 32 (c.v
    0)⟩), [], none, if c.v 0 = 0 then .jump (relTarget c 1) else .seq, 0⟩) ∧
  Performs .loopi 0x121 (fun c s => ⟨s.setThr c.g ((s.thr c.g).setLoop (c.h.xf % 4) ⟨c.nxt, relTarget c 0, BitVec.ofNat 32
    (natFld c.h.xf 13 2)⟩), [], none, if natFld c.h.xf 13 2 = 0 then .jump (relTarget c 0) else .seq, 0⟩) ∧
  Performs .lbrk 0x122 (fun c s => ⟨s.setThr c.g ((s.thr c.g).setLoop c.h.xf { (s.thr c.g).loop c.h.xf with lc := 0 }), [],
    none, .jump ((s.thr c.g).loop c.h.xf).le, 0⟩) ∧
  (∀ (g : Tid) (s : State) (x : Issue) (y : Gathered) (w1 w2 : Wk) (pc flg : Nat), Runs s g.toNat 0x104 x y →
      y.s.ptrWord g.toNat .start 0 4 = .ok (w1, pc) → y.s.ptrWord g.toNat w1 4 4 = .ok (w2, flg) →
      exec (.rete g) s = .next (Done x g.toNat y (returnsTo (y.s.touchAll w2.reads 1) g.toNat pc flg)))

/-- Every issue of the multiply, accumulate and divide instructions that runs completes: MUL and MULH leave the whole product,
or its high half, in P, MUL.L with V where the signed product does not fit; MULD also writes the low bits, with C and V; MAC
and MSU add to or subtract from ACC modulo 2^80 with V on overflow; ACC.CLR clears ACC; ACC.X gives ACC rounded, shifted and
clamped; DIV gives quotient and remainder toward zero, the highest or lowest quotient with V on division by 0, and V for the
one quotient that does not fit. -/
def Obligations.MultiplyAndDivideWriteTheirRegisters : Prop :=
  Performs .mulU 0x140 (fun c s => productIs s c (BitVec.ofNat 64 (c.v 0 * c.v 1)) c.fl.v) ∧
  Performs .mulS 0x141 (fun c s => productIs s c (BitVec.ofInt 64 ((arg c 0).toInt * (arg c 1).toInt)) c.fl.v) ∧
  Performs .mulL 0x142 (fun c s => productIs s c (BitVec.ofNat 64 (c.v 0 * c.v 1)) (decide ((BitVec.ofInt 64 ((arg c 0).toInt
    * (arg c 1).toInt)).toInt ≠ (arg c 0).toInt * (arg c 1).toInt))) ∧
  Performs .mulhU 0x143 (fun c s => productIs s c (BitVec.ofNat 64 (c.v 0 * c.v 1 / 2 ^ 64)) c.fl.v) ∧
  Performs .mulhS 0x144 (fun c s => productIs s c (BitVec.ofInt 64 ((arg c 0).toInt * (arg c 1).toInt / 2 ^ 64)) c.fl.v) ∧
  Performs .muld 0x145 (fun c s => ⟨s.setThr c.g { s.thr c.g with p := BitVec.ofNat 64 (c.v 1 * c.v 2) },
      [out 0 (arg c 1 * arg c 2).toNat], some (productFlags c (arg c 1) (arg c 2)), .seq, 0⟩) ∧
  Performs .macU 0x148 (fun c s => accumulates s c (c.v 0 * c.v 1)) ∧
  Performs .macS 0x149 (fun c s => accumulates s c ((arg c 0).toInt * (arg c 1).toInt)) ∧
  Performs .msuU 0x14A (fun c s => accumulates s c (-(c.v 0 * c.v 1 : Int))) ∧
  Performs .msuS 0x14B (fun c s => accumulates s c (-((arg c 0).toInt * (arg c 1).toInt))) ∧
  Performs .accClr 0x14C (fun c s => ⟨s.setThr c.g { s.thr c.g with acc := 0 }, [], none, .seq, 0⟩) ∧
  Performs .accX 0x14D (fun c s => takesS s c c.w (((s.thr c.g).acc.toInt + (if c.h.xf.testBit 7 ∧ 0 < natFld c.h.xf 6 0 then
    2 ^ (natFld c.h.xf 6 0 - 1) else 0)) / 2 ^ natFld c.h.xf 6 0)) ∧
  Performs .divU 0x150 (fun c s =>
      if c.v 1 = 0 then quotientIs s c (BitVec.allOnes c.w) ((BitVec.allOnes c.w).setWidth 64) ((arg c 0).setWidth 64) true
      else quotientIs s c (arg c 0 / arg c 1) ((arg c 0 / arg c 1).setWidth 64) ((arg c 0 % arg c 1).setWidth 64) false) ∧
  Performs .divS 0x151 (fun c s =>
      if c.v 1 = 0 then quotientIs s c (noQuotient (arg c 0)) ((noQuotient (arg c 0)).signExtend 64) ((arg c 0).signExtend 64)
    true
      else quotientIs s c ((arg c 0).sdiv (arg c 1)) (((arg c 0).sdiv (arg c 1)).signExtend 64)
        (((arg c 0).srem (arg c 1)).signExtend 64) (arg c 0 == BitVec.intMin c.w && arg c 1 == BitVec.allOnes c.w)) ∧
  (∀ (g : Nat) (s : State) (d : DivPend), (s.thr g).div = some d → d.doneAt ≤ s.cycle → d.upd = [] →
      ((s.finishDiv g).thr g).q = d.q ∧ ((s.finishDiv g).thr g).rem = d.rem ∧
      ((s.finishDiv g).thr g).flg = d.flg.getD (s.thr g).flg ∧ ((s.finishDiv g).thr g).div = none)

/-- Every issue of the floating-point instructions that runs completes: arithmetic, conversions and FRINT with the value and
the exceptions of 06 for the rounding mode of FPC as the FP unit sees it (or the mode of XF), FNEG, FABS and FCPYS by the
sign bit alone with no exception, FCMP and FCMP.S with the flags of Table 41, FCLASS with the class bit. -/
def Obligations.FloatingPointInstructionsComputeTable40 : Prop :=
  Performs .fadd 0x160 (fun c s => fpIs s (fpAdd c.w (roundMode s c) (c.v 1) (c.v 2))) ∧
  Performs .fsub 0x161 (fun c s => fpIs s (fpSub c.w (roundMode s c) (c.v 1) (c.v 2))) ∧
  Performs .fmul 0x162 (fun c s => fpIs s (fpMul c.w (roundMode s c) (c.v 1) (c.v 2))) ∧
  Performs .fdiv 0x163 (fun c s => fpIs s (fpDiv c.w (roundMode s c) (c.v 1) (c.v 2))) ∧
  Performs .fsqrt 0x164 (fun c s => fpIs s (fpSqrt c.w (roundMode s c) (c.v 1))) ∧
  Performs .fma 0x165 (fun c s => fpIs s (fpFma c.w (roundMode s c) false (c.v 1) (c.v 2) (c.v 0))) ∧
  Performs .fmsub 0x166 (fun c s => fpIs s (fpFma c.w (roundMode s c) true (c.v 1) (c.v 2) (c.v 0))) ∧
  Performs .fmin 0x168 (fun c s => fpIs s (fpMinMax c.w false (c.v 1) (c.v 2))) ∧
  Performs .fmax 0x169 (fun c s => fpIs s (fpMinMax c.w true (c.v 1) (c.v 2))) ∧
  Performs .fneg 0x16A (fun c s => fpIs s ⟨(arg c 1 ^^^ BitVec.intMin c.w).toNat, 0⟩) ∧
  Performs .fabs 0x16B (fun c s => fpIs s ⟨(arg c 1 &&& ~~~ BitVec.intMin c.w).toNat, 0⟩) ∧
  Performs .fcpys 0x16C (fun c s => fpIs s ⟨((arg c 1 &&& ~~~ BitVec.intMin c.w) ||| (arg c 2 &&& BitVec.intMin c.w)).toNat,
    0⟩) ∧
  Performs .fcmp 0x170 (fun c s => ⟨s, [], some (fpCmp c.w false (c.v 0) (c.v 1)).1, .seq, if fpSnan c.w (c.v 0) ∨ fpSnan c.w
    (c.v 1) then 16 else 0⟩) ∧
  Performs .fcmpS 0x171 (fun c s => ⟨s, [], some (fpCmp c.w true (c.v 0) (c.v 1)).1, .seq, if fpNan c.w (c.v 0) ∨ fpNan c.w
    (c.v 1) then 16 else 0⟩) ∧
  Performs .fclass 0x172 (fun c s => fpIs s ⟨fpClass c.w (c.v 1), 0⟩) ∧
  Performs .fcvtf 0x178 (fun c s => fpIs s (fpToFp c.w (roundMode s c) (96 - c.w) (c.v 1))) ∧
  Performs .fcvtiS 0x179 (fun c s => fpIs s (fpToInt c.w (if c.h.xf.testBit 1 then 1 else roundMode s c) (if c.h.xf.testBit 0
    then 64 else 32) true (c.v 1))) ∧
  Performs .fcvtiU 0x17A (fun c s => fpIs s (fpToInt c.w (if c.h.xf.testBit 1 then 1 else roundMode s c) (if c.h.xf.testBit 0
    then 64 else 32) false (c.v 1))) ∧
  Performs .icvtf 0x17B (fun c s => fpIs s (fpFromInt c.w (roundMode s c) (szBits (c.h.xf % 4)) (c.h.xf.testBit 2) (c.v 1))) ∧
  Performs .frint 0x17C (fun c s => fpIs s (fpInt c.w (if c.h.xf = 4 then roundMode s c else c.h.xf) (c.v 1)))

/-- A DOZE whose time (or, after an event interrupted it, its first time) is reached completes as NOP does; else the thread
DOZES until then. SWATH.WAIT of a thread with LDG_TBUD.EN = 1 waits for its boundary, and is ILLOP where EN is 0. THR.START
starts an IDLE local thread and Z tells whether it did; a CORE_TCMD of the same cycle for that thread prevails. THR.END
leaves the thread IDLE with its PC at the next instruction. -/
def Obligations.DozeAndThreadControlChangeThreadState : Prop :=
  Performs .doze 0x1A0 (fun c s =>
      if atOrAfter s.now (wakeTime (s.thr c.g) c) then ⟨s.setThr c.g (awake (s.thr c.g) c), [], none, .seq, 0⟩
      else ⟨s.setThr c.g { awake (s.thr c.g) c with st := .dozing, doze := .til (wakeTime (s.thr c.g) c) c.nxt }, [], none,
    .stay, 0⟩) ∧
  (∀ (g : Tid) (s : State) (x : Issue) (y : Gathered), Runs s g.toNat 0x1A1 x y →
      exec (.swathWait g) s = .next (if y.s.rb (.ldgTbud g.toNat) 31
        then Done x g.toNat y ⟨y.s.swathWait g.toNat, [], none, .seq, 0⟩ else y.s.faultIssue g.toNat x.spill 1 0)) ∧
  Performs .thrStart 0x1A4 (fun c s =>
      if (s.thr (localThread c)).st = .idle ∧ (s.thr (localThread c)).tcmd ≠ some s.cycle
      then ⟨s.startThread (localThread c), [], some { c.fl with z := true }, .seq, 0⟩
      else ⟨s, [], some { c.fl with z := false }, .seq, 0⟩) ∧
  Performs .thrEnd 0x1A5 (fun c s => ⟨(s.setThr c.g { s.thr c.g with pc := c.nxt }).toIdle c.g, [], none, .stay, 0⟩) ∧
  (∀ (s : State) (g : Nat), (s.thr g).st = .idle → ((s.startThread g).thr g).st = .ready ∧ s.cycle < ((s.startThread g).thr
    g).next ∧
      ((s.startThread g).thr g).pc = (s.thr g).pc) ∧
  (∀ (s : State) (g : Nat), ((s.toIdle g).thr g).st = .idle ∧ ((s.toIdle g).thr g).mem = none ∧
      ((s.toIdle g).thr g).pc = (s.thr g).pc ∧ ((s.toIdle g).thr g).flg = (s.thr g).flg ∧ ((s.toIdle g).thr g).p = (s.thr g).p
    ∧
      ((s.toIdle g).thr g).acc = (s.thr g).acc)

/-- Every issue of LOCK.TRY, LOCK.REL, WAIT, EVF.SET, EVF.CLR and EVF.TST that runs completes. A free lock goes to the thread
that tries it and Z is 1; a held one stays with its holder and Z is 0; only the holder releases it. A WAIT whose target is
met ends, with the lock taken where it names one; otherwise the thread WAITS at its PC. A flag that is set reads 1 from the
next cycle on and the present cycle still reads the old value; a clear loses to a set of the same cycle; other flags stay.
-/
def Obligations.LocksWaitsAndFlagsFollowTheirUnits : Prop :=
  Performs .lockTry 0x1C0 (fun c s => match s.lock c.lockAt with
      | none => answers c (s.setLock c.lockAt (some c.g)) true
      | some _ => answers c s false) ∧
  Performs .lockRel 0x1C1 (fun c s => if s.lock c.lockAt = some c.g then answers c (s.setLock c.lockAt none) true else answers
    c s false) ∧
  Performs .wait 0x1C2 (fun c s =>
      if s.waitMet c.g (waitTarget c) = true then
        ⟨waitsNoMore (if natFld c.h.xf 11 10 = 0 then s.setLock c.lockAt (some c.g) else s) c.g, [], none, .seq, 0⟩
      else waitsFor s c.g (waitTarget c)) ∧
  Performs .evfSet 0x1C4 (fun c s => ⟨s.setFlag (clusterOf c.g) c.h.xf, [], none, .seq, 0⟩) ∧
  Performs .evfClr 0x1C5 (fun c s => ⟨s.clrFlag (clusterOf c.g) c.h.xf, [], none, .seq, 0⟩) ∧
  Performs .evfTst 0x1C6 (fun c s => ⟨s, [], some { c.fl with b := s.flagSet (clusterOf c.g) c.h.xf }, .seq, 0⟩) ∧
  (∀ (s : State) (c f : Nat), (s.flag c f).since ≤ s.cycle → (s.setFlag c f).flagNow c f = s.flagNow c f ∧
      ∀ n, s.cycle < n → ({ s.setFlag c f with cycle := n } : State).flagNow c f = true) ∧
  (∀ (s : State) (c f : Nat), (s.setFlag c f).flagSet c f = true ∧ ((s.setFlag c f).clrFlag c f).flagSet c f = true ∧
      ((s.flag c f).last ≠ s.cycle + 1 → (s.clrFlag c f).flagSet c f = false)) ∧
  (∀ (s : State) (c f c' f' : Nat), 256 * c + f ≠ 256 * c' + f' →
      (s.setFlag c f).flag c' f' = s.flag c' f' ∧ (s.clrFlag c f).flag c' f' = s.flag c' f')

/-- Every issue of CHW, CHE, CHR, CHD and CHS that runs completes with Z telling whether the channel accepted it; a CHR
without a word writes no destination. On the channel: an accepted CHW adds its word behind the words held and changes none
of them; CHE closes the thread's open message; CHR reserves the closed head message for the thread and delivers its words
one after the other; CHD removes the head message's words and frees the reservation; what is refused changes nothing. Other
channels stay. -/
def Obligations.ChannelsAreFifosOfMessages : Prop :=
  Performs .chw 0x1C8 (fun c s => answers c (s.setChan c.chanAt ((s.chan c.chanAt).write c.g (BitVec.ofNat 32 (c.v 0))).1)
    ((s.chan c.chanAt).write c.g (BitVec.ofNat 32 (c.v 0))).2) ∧
  Performs .che 0x1C9 (fun c s => answers c (s.setChan c.chanAt ((s.chan c.chanAt).close c.g).1) ((s.chan c.chanAt).close
    c.g).2) ∧
  Performs .chr 0x1CA (fun c s => match ((s.chan c.chanAt).read c.g).2.1 with
      | some w => ⟨s.setChan c.chanAt ((s.chan c.chanAt).read c.g).1, [out 0 w.toNat], some { c.fl with z := true }, .seq, 0⟩
      | none => answers c (s.setChan c.chanAt ((s.chan c.chanAt).read c.g).1) false) ∧
  Performs .chd 0x1CB (fun c s => answers c (s.setChan c.chanAt ((s.chan c.chanAt).discardHead c.g).1) ((s.chan
    c.chanAt).discardHead c.g).2) ∧
  Performs .chs 0x1CC (fun c s => ⟨s, [out 0 (s.chstat c.chanAt).toNat], none, .seq, 0⟩) ∧
  (∀ (c : Chan) (g : Nat) (w : Word), (c.write g w).2 = c.canWrite g ∧
      (c.canWrite g = true → (c.write g w).1.words = c.words ++ [w] ∧ (c.write g w).1.used = c.used + 1) ∧
      (c.canWrite g = false → (c.write g w).1 = c)) ∧
  (∀ (c : Chan) (g : Nat), (c.close g).2 = c.heldBy g ∧ (c.close g).1.words = c.words ∧
      (c.heldBy g = true → (c.close g).1.opn = none) ∧ (c.heldBy g = false → (c.close g).1 = c)) ∧
  (∀ (c : Chan) (g : Nat) (m : Msg), c.msgs.head? = some m → m.closed = true → (c.res = none ∨ c.res = some g) →
      (c.read g).1.res = some g ∧ (c.read g).1.words = c.words ∧
      (c.cur < m.len → (c.read g).2 = (c.words[c.cur]?, true) ∧ (c.read g).1.cur = c.cur + 1) ∧
      (m.len ≤ c.cur → (c.read g).2 = (none, false) ∧ (c.read g).1.cur = c.cur) ∧
      (c.discardHead g).2 = true ∧ (c.discardHead g).1.words = c.words.drop m.len ∧ (c.discardHead g).1.res = none ∧
      (c.discardHead g).1.cur = 0 ∧ (c.discardHead g).1.msgs = c.msgs.tail) ∧
  (∀ (c : Chan) (g h : Nat), c.res = some h → h ≠ g → (c.read g).2 = (none, false) ∧ (c.read g).1 = c ∧ c.discardHead g = (c,
    false))

/-- Every issue of the fences, SYNC and CACHE.INV that runs completes; FENCE.L and SYNC change nothing but by their own
cycles. After FENCE.S, FENCE.A or FENCE.X every later write of the thread is performed after each write it has posted.
CACHE.INV leaves no line of the core that serves more than one fetch and no branch target. SLOT.W is refused with OWNER_DENY
where the thread's SLW is 0; a reserved entry or owner is reported as CFG_REJECT and changes nothing; else the entry takes
the owner, and the old one stays in use for 5 cycles. -/
def Obligations.FencesAndCoreControlComplete : Prop :=
  Performs .fenceL 0x1E0 (fun _ s => ⟨s, [], none, .seq, 0⟩) ∧
  Performs .fenceS 0x1E1 (fun c s => ⟨s.fenceStores c.g, [], none, .seq, 0⟩) ∧
  Performs .fenceA 0x1E2 (fun c s => ⟨s.fenceStores c.g, [], none, .seq, 0⟩) ∧
  Performs .fenceX 0x1E3 (fun c s => ⟨s.fenceStores c.g, [], none, .seq, 0⟩) ∧
  Performs .sync 0x1E8 (fun _ s => ⟨s, [], none, .seq, 0⟩) ∧
  Performs .cacheInv 0x1EA (fun c s => ⟨s.cacheInv (coreOf c.g), [], none, .seq, 0⟩) ∧
  (∀ (s : State) (g : Nat), (∀ w ∈ s.posted, w.core = coreOf g → w.thr = g → w.perf < ((s.fenceStores g).thr g).fence) ∧
      (s.thr g).fence ≤ ((s.fenceStores g).thr g).fence ∧
      { (s.fenceStores g).thr g with fence := (s.thr g).fence } = s.thr g) ∧
  (∀ (s : State) (n : Nat), ((s.cacheInv n).core n).btb = [] ∧ (∀ l ∈ ((s.cacheInv n).core n).cache, 4 ≤ l.way) ∧
      (∀ g k, coreOf g = n → k < 2 ^ 26 → ((s.cacheInv n).thr g).miss ≠ some k) ∧ OnlyAt n s.core (s.cacheInv n).core) ∧
  (∀ (g : Tid) (s : State) (x : Issue) (y : Gathered), Runs s g.toNat 0x1EC x y →
      exec (.slotW g) s = .next (
        if bit (y.s.tcb g.toNat) 3 = false then y.s.faultIssue g.toNat x.spill 5 0
        else if 31 < y.c.v 0 ∨ 16 < y.c.v 1 then
          Done x g.toNat y ⟨y.s.report 0x60 0 g.toNat y.c.pc 0x100, [], none, .seq, 0⟩
        else Done x g.toNat y ⟨(y.s.lag (.slot (coreOf g.toNat) (y.c.v 0)) (y.s.reg (.coreSlot (coreOf g.toNat) (y.c.v
    0)))).setReg
          (.coreSlot (coreOf g.toNat) (y.c.v 0)) (BitVec.ofNat 32 (y.c.v 1)), [], none, .seq, 0⟩))

/-- Every issue of SHEAF.OPEN, SHEAF.JOIN, SHEAF.CLOSE and SHEAF.STAT that runs completes with Z telling whether the sheaf
unit accepted it. An eligible thread without a membership opens an enabled FREE context by SHEAF.OPEN alone: a new
generation with one member; either instruction joins an OPEN context with room. A close ends the membership; it counts in a
generation that is OPEN, which becomes COMPLETE with the last of its members. A thread with a membership, an ineligible one,
or one with four swath sheaves is refused and nothing changes. -/
def Obligations.SheafMembershipFollowsTable73 : Prop :=
  Performs .sheafOpen 0x1F0 (fun c s => answers c (s.sheafJoin c.g c.h.xf true).1 (s.sheafJoin c.g c.h.xf true).2) ∧
  Performs .sheafJoin 0x1F1 (fun c s => answers c (s.sheafJoin c.g c.h.xf false).1 (s.sheafJoin c.g c.h.xf false).2) ∧
  Performs .sheafClose 0x1F2 (fun c s => answers c (s.sheafClose c.g c.h.xf).1 (s.sheafClose c.g c.h.xf).2) ∧
  Performs .sheafStat 0x1F3 (fun c s => ⟨s, [out 0 (s.cstWord c.h.xf).toNat], none, .seq, 0⟩) ∧
  (∀ (s : State) (g x : Nat) (start : Bool),
      (s.thr g).mem ≠ none ∨ s.eligible g x = false ∨ 4 ≤ s.sheafCount g → s.sheafJoin g x start = (s, false)) ∧
  (∀ (s : State) (g x : Nat) (start : Bool), (s.thr g).mem = none → s.eligible g x = true → s.sheafCount g < 4 →
      ((s.ctx x).st = .free → start = true → s.rb (.shfCtx x) 31 = true →
        (s.sheafJoin g x start).2 = true ∧
        ((s.sheafJoin g x start).1.ctx x) =
    { st := .opened, gen := (s.ctx x).gen + 1, uid := (s.ctx x).uid + 1, joined := 1, closed := 0, reh := s.mode == .rehearse, members := [g], cyc := s.cycle, held := [] }
    ∧
        ((s.sheafJoin g x start).1.thr g).mem = some (x, (s.ctx x).uid + 1)) ∧
      ((s.ctx x).st = .opened → (s.ctx x).joined < s.ctxExp x →
        (s.sheafJoin g x start).2 = true ∧ ((s.sheafJoin g x start).1.ctx x).joined = (s.ctx x).joined + 1 ∧
        ((s.sheafJoin g x start).1.thr g).mem = some (x, (s.ctx x).uid)) ∧
      ((s.ctx x).st = .free → start = false → s.sheafJoin g x start = (s, false))) ∧
  (∀ (s : State) (g x : Nat), (s.thr g).mem = some (x, (s.ctx x).uid) → (s.ctx x).st = .opened →
      ((s.sheafClose g x).1.thr g).mem = none ∧ (s.sheafClose g x).2 = true ∧
      ((s.sheafClose g x).1.ctx x).closed = (s.ctx x).closed + 1 ∧
      ((s.sheafClose g x).1.ctx x).st = if (s.ctx x).closed + 1 = s.ctxExp x then .complete else .opened) ∧
  (∀ (s : State) (x : Nat) (c : Ctx), s.ctx x = c → c.joined < 1024 → c.closed < 1024 → fld (s.cstWord x) 31 29 = c.st.code ∧
      fld (s.cstWord x) 28 28 = c.reh.toNat ∧ fld (s.cstWord x) 27 18 = c.joined ∧ fld (s.cstWord x) 17 8 = c.closed ∧
      fld (s.cstWord x) 7 0 = c.gen.toNat)

/-- Every issue of PSQ.ACT that runs completes: a reserved word is reported as CFG_REJECT, one whose time has come as an
action too late, and each gives Z = 0; a direct one enters the action FIFO where it has room; a held one needs the thread's
open membership of the named context, and reserves its place. PIN.SET, PIN.CLR and PIN.TGL change one bit of the core's
private port where the pin is given to the core, and fault with OWNER_DENY elsewhere. -/
def Obligations.ActionsAndPrivatePinsAreOffered : Prop :=
  Performs .psqAct 0x1F8 (fun c s =>
      if c.h.xf.testBit 3 then
        answers c (s.holdAction c.g (natFld c.h.xf 11 4) (actUnit c) (BitVec.ofNat 64 (c.v 0))).1
          (s.holdAction c.g (natFld c.h.xf 11 4) (actUnit c) (BitVec.ofNat 64 (c.v 0))).2
      else if actBad (BitVec.ofNat 64 (c.v 0)) then answers c (s.report 0x60 0 c.g (s.thr c.g).pc 0x101) false
      else if reached (lo32 s.nextTime) (BitVec.ofNat 32 (c.v 0)) then
        answers c (s.actionLate (actUnit c) (BitVec.ofNat 64 (c.v 0)) 0) false
      else answers c (s.queueAction (actUnit c) (BitVec.ofNat 64 (c.v 0))).1 (s.queueAction (actUnit c) (BitVec.ofNat 64 (c.v
    0))).2) ∧
  (∀ (s : State) (g x q : Nat) (a : DWord), s.openMember g = some x → actBad a = false →
      reached (lo32 s.nextTime) (actTime a) = false → (s.psq q).fifo.length + (s.psq q).rsvd < 64 →
      (s.holdAction g x q a).2 = true ∧ ((s.holdAction g x q a).1.psq q).rsvd = (s.psq q).rsvd + 1 ∧
      ((s.holdAction g x q a).1.ctx x).held = (s.ctx x).held ++ [(q, a)] ∧ ((s.holdAction g x q a).1.psq q).fifo = (s.psq
    q).fifo) ∧
  (∀ (s : State) (g x q : Nat) (a : DWord), s.openMember g ≠ some x → s.holdAction g x q a = (s, false)) ∧
  (∀ (g : Tid) (s : State) (x : Issue) (y : Gathered),
      (Runs s g.toNat 0x1FA x y → exec (.pinSet g) s = .next (pinTakes x g.toNat y fun _ => true)) ∧
      (Runs s g.toNat 0x1FB x y → exec (.pinClr g) s = .next (pinTakes x g.toNat y fun _ => false)) ∧
      (Runs s g.toNat 0x1FC x y → exec (.pinTgl g) s = .next (pinTakes x g.toNat y fun b => !b))) ∧
  (∀ (s : State) (n p : Nat) (b : Bool), (s.drivePort n p b).port n p = b ∧
      (∀ n' p', 256 * n' + p' ≠ 256 * n + p → (s.drivePort n p b).port n' p' = s.port n' p') ∧
      (s.portOld = [] → (s.drivePort n p b).portOut n p = s.port n p))

/-- For every thread instruction, thread and state: where the core does not issue this opcode of the thread in this cycle,
nothing changes. Where the issue faults before its operands, the command answers the state with that fault recorded. Where
the condition is false, no operand, pointer word, flag or special register is written: alone and in no STEP, only the
thread's place, its core's note and the counts of issues change, the PC by the loop-end check. Where an operand stops it,
the issue ends in the fault or does not happen. A thread that its core does not choose, or whose next instruction is
another, issues none of it. -/
def Obligations.ThreadCommandsActOnTheirIssueOnly : Prop :=
  (∀ (p : ThreadOp) (g : Tid) (s : State), p ∈ threadOps → s.begin g.toNat p.2 = .no → Idle (p.1 g) s) ∧
  (∀ (p : ThreadOp) (g : Tid) (s t : State), p ∈ threadOps → s.begin g.toNat p.2 = .bad t → exec (p.1 g) s = .next t) ∧
  (∀ (p : ThreadOp) (g : Tid) (s : State) (x : Issue), p ∈ threadOps → s.begin g.toNat p.2 = .go x → x.holds g.toNat = false →
      exec (p.1 g) s = .next (x.close g.toNat (x.s.pass g.toNat x.h x.r x.ws))) ∧
  (∀ (p : ThreadOp) (g : Tid) (s : State) (x : Issue) (e : Stop), p ∈ threadOps → s.begin g.toNat p.2 = .go x → x.holds
    g.toNat = true →
      x.gather g.toNat = .error e → exec (p.1 g) s = .next (x.stop g.toNat s e)) ∧
  (∀ (g op : Nat) (s : State), s.issuer (coreOf g) ≠ some (g, false) → s.issuer (coreOf g) ≠ some (g, true) → (s.thr g).div =
    none → s.begin g op = .no) ∧
  (∀ (p : ThreadOp) (g : Tid) (s : State) (x : Issue), p ∈ threadOps → s.begin g.toNat p.2 = .go x → x.holds g.toNat = false →
    x.step = false →
      x.s.pairWith g.toNat x.h = none → Leads (p.1 g) s fun t => t =
    { x.s with threads := t.threads, cores := t.cores, regs := t.regs } ∧
        t.thr g.toNat =
    { endCheck (fld (x.s.tcbNow g.toNat) 11 8) ((x.s.thr g.toNat).pc + BitVec.ofNat 32 (4 * (1 + x.h.n))) [3, 2, 1, 0] (x.s.thr g.toNat) with next := (t.thr g.toNat).next, skipBp := false }
    ∧ x.s.cycle < (t.thr g.toNat).next ∧
        OnlyAt g.toNat x.s.thr t.thr ∧ OnlyAt (coreOf g.toNat) x.s.core t.core ∧
        RegsBut [.coreTissue (coreOf g.toNat) (locOf g.toNat), .coreSpillcnt (coreOf g.toNat), .pwrDzstat (coreOf g.toNat)]
    x.s t)

/-- For every thread instruction whose operands end in a fault: the command answers a state in which the thread is FAULTED,
CORE_TFAULT(t) shows VALID and the code, CORE_TFPC(t) the PC of the instruction, and a report with the code, the thread, its
PC and the datum of Table 112 is on its way to the fault unit, before those of the messages that it leaves open (R209).
Memory, the flags, the accumulators, the PC and every other thread are as they were when the issue began. The thread's slots
go to the spill set, since a FAULTED thread is not READY. -/
def Obligations.ThreadFaultsAreRecordedAndHaveNoEffect : Prop :=
  (∀ (p : ThreadOp) (g : Tid) (s s' : State) (x : Issue) (code : Nat) (db : Word), p ∈ threadOps → s.begin g.toNat p.2 = .go x
    →
      x.holds g.toNat = true → x.gather g.toNat = .error (.fault code db s') → s.mode = .run ∨ s.mode = .rehearse → Leads (p.1
    g) s fun t =>
        t.thr g.toNat = (x.s.thr g.toNat).afterFault (x.s.cycle + 1) ∧ OnlyAt g.toNat x.s.thr t.thr ∧
        t.reg (.coreTfault (coreOf g.toNat) (locOf g.toNat)) = BitVec.ofNat 32 (0x80000000 + code) ∧
        t.reg (.coreTfpc (coreOf g.toNat) (locOf g.toNat)) = (x.s.thr g.toNat).pc ∧
        t.reports.take (x.s.reports.length + 1) = x.s.reports ++ [⟨s.cycle + 1, code, 0, g.toNat, (x.s.thr g.toNat).pc, db,
    false⟩] ∧
        (t.reports.drop (x.s.reports.length + 1)).all (fun r => r.code == 0x21) = true ∧
        t.ram = x.s.ram ∧ t.posted = x.s.posted ∧ t.locks = x.s.locks ∧ t.flags = x.s.flags ∧ t.psqs = x.s.psqs ∧ t.pins =
    x.s.pins ∧
        t.ports = x.s.ports ∧ t.side = x.s.side ∧ t.ctxs = x.s.ctxs ∧ t.pending = s.pending ∧ t.countsReady g.toNat = false)

/-- For every instruction of Tables 33 to 40 and TCMP whose issue runs with operands in near RAM, bit RAM, immediates, time
items, or sources elsewhere but sequencer ports: the next state differs from the old one only in this thread, its core's
note, memory and its error marks, the counts of the issue and of errors, and what the memory's own checks note. Every byte
of every RAM outside the destinations and the updated pointer words reads as before; no other thread and no other register
changes. -/
def Obligations.OwnInstructionsWriteOnlyTheirOperands : Prop :=
  (∀ (p : ThreadOp) (g : Tid) (s : State) (x : Issue) (y : Gathered), p ∈ ownOps → Runs s g.toNat p.2 x y → OwnPlaces x y →
    WindowFits s →
      (s.thr g.toNat).div = none → Leads (p.1 g) s fun t =>
        t =
    { s with threads := t.threads, cores := t.cores, ram := t.ram, ecc := t.ecc, scrubs := t.scrubs, gleaner := t.gleaner, regs := t.regs, bitOld := t.bitOld }
    ∧
        OnlyAt g.toNat s.thr t.thr ∧ OnlyAt (coreOf g.toNat) s.core t.core ∧ RegsBut (issueRegs g.toNat) s t ∧
        (∀ k, k < 0x1000000 → k ∉ storedKeys x g.toNat y → t.byteAt k = s.byteAt k)) ∧
  (∀ (p : ThreadOp) (g : Tid) (s : State) (x : Issue) (y : Gathered), p ∈ ownOps → p.2 < 0x140 → Runs s g.toNat p.2 x y →
    OwnPlaces x y →
      (s.thr g.toNat).div = none → x.s.pairWith g.toNat x.h = none → Leads (p.1 g) s fun t =>
        (t.thr g.toNat).p = (s.thr g.toNat).p ∧ (t.thr g.toNat).acc = (s.thr g.toNat).acc ∧ (t.thr g.toNat).q = (s.thr
    g.toNat).q ∧
        (t.thr g.toNat).rem = (s.thr g.toNat).rem ∧ (t.thr g.toNat).plb = (s.thr g.toNat).plb ∧ (t.thr g.toNat).fpc = (s.thr
    g.toNat).fpc ∧
        (t.thr g.toNat).fps = (s.thr g.toNat).fps ∧ (t.thr g.toNat).mem = (s.thr g.toNat).mem ∧
        (x.h.s = 0 → x.h.op ≠ 0x104 → x.h.op ≠ 0x006 → x.h.op ≠ 0x007 → (t.thr g.toNat).flg = (s.thr g.toNat).flg))

/-- For every completed issue of a deterministic thread outside a pair and a STEP, whose one destination is near operand 1:
the bytes of the destination read back as the result at the operand's width; with S = 1 the flags N, Z, C, V and B are those
of the result, and with S = 0 they stay; an instruction that goes on in sequence takes the PC of the loop-end check, a taken
branch its target; the thread is due again after the latency of the issue. -/
def Obligations.DestinationsAndFlagsTakeTheResult : Prop :=
  (∀ (g : Nat) (x : Issue) (y : Gathered) (a : Act) (o v b : Nat) (tgt : Word), x.r.lat ≠ .div → x.step = false → x.s.pairWith
    g x.h = none →
      x.s.det g = true → a.s.tcbNow g = x.s.tcbNow g → a.s.thr g = x.s.thr g → a.s.gleaner.ph ≠ .test → a.s.gleaner.ph ≠
    .restore →
      (x.r.opds.head?.map fun d => x.h.bits d.wid) = some b → b ∈ [8, 16, 32, 64] → y.ps.head? = some (.near o) → y.wk.upd =
    [] → a.outs = [out 0 v] → v < 2 ^ b →
      x.s.winNow g = a.s.winNow g →
      let t := Done x g y a
      ofBytes ((t.keysOf g b (.near o)).map t.byteAt) = v ∧
      (x.h.s = 1 → a.fl = none ∨ a.fl = some (Flags.of (t.thr g).flg)) ∧ (x.h.s = 0 → (t.thr g).flg = (x.s.thr g).flg) ∧
      (a.go = .seq → (t.thr g).pc = (endCheck (fld (x.s.tcbNow g) 11 8) y.c.nxt [3, 2, 1, 0] (x.s.thr g)).pc) ∧
      (a.go = .jump tgt → (t.thr g).pc = tgt) ∧ (t.thr g).next = x.s.cycle + x.lat g y + takenCycles a.go)

/-- The rows MODE_REQ_RETAIN, MODE_REQ_CONFIGURE, MODE_REQ_REHEARSE, MODE_REQ_RUN and MODE_REQ_HOLD, by the host or the Camin
port. A request for the present mode with none pending is accepted and changes nothing but the request shown. One of Table
11 becomes pending, and where it takes effect at a D0 boundary only with D0 enabled. A pending request, a transition that
Table 11 lacks, or D0 disabled refuses it with CFG_REJECT. A HOLD request from REHEARSE or RUN takes effect at once,
whatever is pending. RETAIN makes no report of a refusal; OFF answers nothing. -/
def Obligations.ModeRequestsFollowTable11 : Prop :=
  (∀ (acc : Acc) (s : State), acc.path ≠ .mailbox → s.mode ≠ .off → s.pend = none → ∀ r ∈ modeRequests acc,
      (s.mode = r.2.1 → exec r.1 s = .next (s.setRf .cpxCtl 2 0 r.2.2)) ∧
      ((s.mode, r.2.1) ∈ noBoundary ∨ ((s.mode, r.2.1) ∈ atD0 s ∧ s.domEn 0 = true) →
        exec r.1 s = .next { s.setRf .cpxCtl 2 0 r.2.2 with pend := some r.2.1, pendCyc := s.cycle })) ∧
  (∀ (acc : Acc) (s : State), Open s acc → ∀ r ∈ modeRequests acc,
      s.pend ≠ none ∨ (s.mode ≠ r.2.1 ∧ (s.mode, r.2.1) ∉ noBoundary ∧ ((s.mode, r.2.1) ∈ atD0 s → s.domEn 0 = false)) →
        exec r.1 s = .next (refusal s acc 0x60 0x100)) ∧
  (∀ (acc : Acc) (s : State), Open s acc → s.active = true → Leads (.modeReqHold acc) s fun t => t.mode = .hold ∧ t.pend =
    none ∧ t.heldFrom = s.mode ∧
      t.holdSrc = (if acc.path = .camin then .camin else .cpxCtl) ∧ t.settled = false ∧ t.rf .cpxCtl 2 0 = 5) ∧
  (∀ (acc : Acc) (s : State), Open s acc → s.mode = .hold → s.pend = none → exec (.modeReqHold acc) s = .next (s.setRf .cpxCtl
    2 0 5)) ∧
  (∀ (acc : Acc) (s : State), Open s acc → s.mode = .configure ∨ (s.mode = .hold ∧ s.pend ≠ none) → exec (.modeReqHold acc) s
    = .next (refusal s acc 0x60 0x100)) ∧
  (∀ (acc : Acc) (s : State), s.mode = .off ∨ acc.path = .mailbox → ∀ r ∈ modeRequests acc, Idle r.1 s) ∧
  (∀ (acc : Acc) (s : State), s.mode = .off ∨ s.mode = .retain ∨ acc.path = .mailbox → Idle (.modeReqHold acc) s)

/-- MODE_REQ_HOLD in REHEARSE or RUN. A READY thread has a halt pending, a WAITING, DOZING or FAULTED one becomes HALTED with
cause 4 and remembers its state; IDLE and HALTED threads stay; no thread's PC or flags change. Every sequencer that is not
STOPPED becomes HELD with its PC kept, and pending reflexes go. Every core is in GATE. Pending orders are dropped on leaving
RUN. Memories, locks, channels, flags, sheaves, timers and domains keep what they hold. HOLD_SETTLED follows once every
thread has stopped and every sequencer is STOPPED or HELD. -/
def Obligations.HoldFreezesThreadsAndSequencers : Prop :=
  (∀ (acc : Acc) (g : Nat) (s : State), Open s acc → s.active = true → Leads (.modeReqHold acc) s fun t => (t.thr g).pc =
    (s.thr g).pc ∧
      (t.thr g).flg = (s.thr g).flg ∧ ((s.thr g).st = .idle → t.thr g = s.thr g) ∧
      ((s.thr g).st = .ready → (t.thr g).st = .ready ∧ (t.thr g).haltReq.isSome = true) ∧
      ((s.thr g).st = .halted → (t.thr g).st = .halted ∧ (t.thr g).cause = (s.thr g).cause) ∧
      ((s.thr g).st = .waiting ∨ (s.thr g).st = .dozing ∨ (s.thr g).st = .faulted →
        (t.thr g).st = .halted ∧ (t.thr g).cause = 4 ∧ (t.thr g).prior = (s.thr g).st)) ∧
  (∀ (acc : Acc) (q : Nat) (s : State), Open s acc → s.active = true → Leads (.modeReqHold acc) s fun t => (t.psq q).pc =
    (s.psq q).pc ∧
      (t.psq q).rfx = [] ∧ (t.psq q).fifo = (s.psq q).fifo ∧
      (t.psq q).st = if (s.psq q).st = .stopped then .stopped else .held) ∧
  (∀ (acc : Acc) (n : Nat) (s : State), Open s acc → s.active = true → Leads (.modeReqHold acc) s fun t => (n < 32 → (t.core
    n).dz = 1) ∧
      (s.mode = .run → t.orders = []) ∧
      RegsBut ([.cpxCtl, .cpxTdrres] ++ s.orders.map fun p => .sorStat p.ord) s t ∧ t =
    { s with mode := t.mode, pend := t.pend, heldFrom := t.heldFrom, holdSrc := t.holdSrc, settled := t.settled, regs := t.regs, commons := { s.commons with holdT := s.now }, threads := t.threads, cores := t.cores, psqs := t.psqs, pins := t.pins, tdrPin := t.tdrPin, gleaner := t.gleaner, orders := t.orders }) ∧
  (∀ (s : State), s.mode = .hold → (∀ g, (s.thr g).st = .idle ∨ (s.thr g).st = .halted) →
      (∀ q, (s.psq q).st = .stopped ∨ (s.psq q).st = .held) → exec (.holdSettled) s = .next { s with settled := true }) ∧
  (∀ (g : Nat) (s : State), s.mode ≠ .hold ∨ ((s.thr g).st ≠ .idle ∧ (s.thr g).st ≠ .halted) → Idle (.holdSettled) s)

/-- RETURN_FROM_HOLD, REHEARSE_RUN_SWITCH, ENTER_RETAIN and RETAIN_EXIT. At the D0 boundary after its request the complex
returns to the mode that HOLD was entered from: threads halted by HOLD resume their prior state, HELD sequencers run their
instruction again, SLIDE timers advance by the time that passed, cores return to RUN and the slot pointers are 0. The switch
between REHEARSE and RUN changes the mode, what pins present, and drops pending orders. RETAIN is entered once accesses in
flight have completed, with every link down. It ends 64,000 units after the request, with Commons time as it was kept,
SYNC_LOST reported and caches empty. Without its request, or before its point, each changes nothing. -/
def Obligations.ModeChangesTakeEffectAtTheirPoint : Prop :=
  (∀ (g q ch n : Nat) (s : State), s.mode = .hold → DueAtD0 s s.heldFrom → Leads (.returnFromHold) s fun t => t.mode =
    s.heldFrom ∧
      t.pend = none ∧ t.heldFrom = .off ∧ t.holdSrc = .none ∧ t.settled = false ∧ t.sptr = 0 ∧ t.ram = s.ram ∧ t.commons =
    s.commons ∧
      (t.thr g).flg = (s.thr g).flg ∧
      ((s.thr g).st = .halted → (s.thr g).cause = 4 → (s.thr g).prior ≠ .dozing →
        (t.thr g).st = (s.thr g).prior ∧ (t.thr g).pc = (s.thr g).pc) ∧
      ((s.thr g).st ≠ .halted ∨ (s.thr g).cause ≠ 4 → (t.thr g).st = (s.thr g).st ∧ (t.thr g).pc = (s.thr g).pc) ∧
      (t.psq q).pc = (s.psq q).pc ∧ (t.psq q).st = (if (s.psq q).st = .held then .running else (s.psq q).st) ∧
      (ch < 32 → (t.timer ch).next =
        if s.rf (.tmrCtl ch) 21 20 = 2 then (s.timer ch).next + (s.now - s.commons.holdT) else (s.timer ch).next) ∧
      (n < 32 → (t.core n).dz = 0)) ∧
  (∀ (s : State), s.mode ≠ .hold ∨ ¬ DueAtD0 s s.heldFrom → Idle (.returnFromHold) s) ∧
  (∀ (p : Nat) (s : State), s.mode = .rehearse → DueAtD0 s .run → Leads (.rehearseRunSwitch) s fun t => t.mode = .run ∧ t.pend
    = none ∧
      (t.pin p).reh = none ∧ OnlyAt p (fun k => { s.pin k with reh := none }) (fun k => { t.pin k with reh := none }) ∧
      t = { s with mode := t.mode, pend := t.pend, pins := t.pins }) ∧
  (∀ (s : State), s.mode = .run → DueAtD0 s .rehearse → Leads (.rehearseRunSwitch) s fun t => t.mode = .rehearse ∧ t.pend =
    none ∧ t.orders = [] ∧
      RegsBut (s.orders.map fun p => .sorStat p.ord) s t ∧
      t = { s with mode := t.mode, pend := t.pend, pins := t.pins, orders := t.orders, regs := t.regs }) ∧
  (∀ (s : State), ¬ (s.mode = .rehearse ∧ DueAtD0 s .run) → ¬ (s.mode = .run ∧ DueAtD0 s .rehearse) → Idle
    (.rehearseRunSwitch) s) ∧
  (∀ (m : Nat) (s : State), s.mode = .configure → s.pend = some .retain → s.quiet = true → Leads (.enterRetain) s fun t =>
    t.mode = .retain ∧
      t.pend = none ∧ (m < 16 → t.linkUp m = false) ∧ RegsBut ((upto 16).map .mbuLink) s t ∧
      t = { s with mode := t.mode, pend := t.pend, pins := t.pins, gleaner := t.gleaner, mbus := t.mbus, regs := t.regs }) ∧
  (∀ (s : State), s.mode ≠ .configure ∨ s.pend ≠ some .retain ∨ s.quiet = false → Idle (.enterRetain) s) ∧
  (∀ (n : Nat) (s : State), s.mode = .retain → s.pend = some .configure → 64000 ≤ (s.cycle - s.pendCyc) * s.span → Leads
    (.retainExit) s fun t =>
      t.mode = .configure ∧ t.pend = none ∧ t.commons = s.commons ∧ t.ram = s.ram ∧ (t.core n).cache = [] ∧ (t.core n).btb =
    [] ∧
      t.rb .cmnStat 29 = true ∧ t.rb .cmnSync 30 = false ∧ RegsBut [.cmnStat, .cmnSync, .cpxTdrres] s t ∧
      t.reports = s.reports ++ [⟨s.cycle + 1, 0x51, 10, 0, 1, 0, false⟩]) ∧
  (∀ (s : State), s.mode ≠ .retain ∨ s.pend ≠ some .configure ∨ (s.cycle - s.pendCyc) * s.span < 64000 → Idle (.retainExit) s)

/-- ENTER_CONFIGURE at a D0 boundary after its request, or from HOLD in a later cycle than the request. Afterwards every
WAITING or DOZING thread is HALTED with cause 6, a READY one has a halt pending, a HOLD halt has cause 6, other threads keep
their state and every PC stays; every sequencer is STOPPED at its PC with an empty action FIFO; no commit is in progress, no
context of a swath sheaf is in use and no thread holds a membership; every core is in GATE. LEAVE_CONFIGURE at a D0
boundary: slot pointers 0, caches empty, cores in RUN, AUTO sequencers running at ENTRY, AUTO threads READY, members of a
domain DOZING until its boundary. Without the request or before its point each changes nothing. -/
def Obligations.ConfigureStopsEverything : Prop :=
  (∀ (g q x n : Nat) (s : State), s.pend = some .configure → (s.active = true ∧ DueAtD0 s .configure) ∨ (s.mode = .hold ∧
    s.pendCyc < s.cycle) →
      Leads (.enterConfigure) s fun t => t.mode = .configure ∧ t.pend = none ∧ t.heldFrom = .off ∧ t.holdSrc = .none ∧
    t.settled = false ∧
      t.chip = s.chip ∧ t.commons = s.commons ∧ t.locks = s.locks ∧ t.log = s.log ∧ t.commits = [] ∧
      (t.thr g).pc = (s.thr g).pc ∧ (t.thr g).flg = (s.thr g).flg ∧ (t.thr g).mem = none ∧
      ((s.thr g).st = .ready → (t.thr g).st = .ready ∧ (t.thr g).haltReq.isSome = true) ∧
      ((s.thr g).st = .halted →
        (t.thr g).st = .halted ∧ (t.thr g).cause = (if (s.thr g).cause = 4 then 6 else (s.thr g).cause)) ∧
      ((s.thr g).st = .waiting ∨ (s.thr g).st = .dozing →
        (t.thr g).st = .halted ∧ (t.thr g).cause = 6 ∧ (t.thr g).prior = (s.thr g).st) ∧
      ((s.thr g).st = .idle ∨ (s.thr g).st = .faulted → (t.thr g).st = (s.thr g).st) ∧
      (t.psq q).st = .stopped ∧ (t.psq q).pc = (s.psq q).pc ∧ (t.psq q).fifo = [] ∧
      (s.isFault x = false → (t.ctx x).st = .free) ∧ (n < 32 → (t.core n).dz = 1)) ∧
  (∀ (s : State), s.pend ≠ some .configure ∨ s.cycle ≤ s.pendCyc ∨ (s.mode ≠ .hold ∧ s.boundaryDue 0 = false) → Idle
    (.enterConfigure) s) ∧
  (∀ (m : Mode) (g q n : Nat) (s : State), s.mode = .configure → m = .rehearse ∨ m = .run → DueAtD0 s m → Leads
    (.leaveConfigure) s fun t =>
      t.mode = m ∧ t.pend = none ∧ t.sptr = 0 ∧ t.ram = s.ram ∧ t.regs = s.regs ∧
      (t.core n).cache = [] ∧ (t.core n).btb = [] ∧ (n < 32 → (t.core n).dz = 0) ∧
      (q < 64 → (s.psq q).st = .stopped → s.rb (.psqCtl q) 31 = true →
        (t.psq q).st = .running ∧ (t.psq q).pc = BitVec.ofNat 8 (s.rf (.psqCtl q) 7 0)) ∧
      (q < 64 → s.rb (.psqCtl q) 31 = false → t.psq q = s.psq q) ∧
      (g < 512 → (s.thr g).stopReq = none → (s.thr g).haltReq = none → (t.thr g).pc = (s.thr g).pc ∧
        ((s.memberDom g).isSome = true → (s.thr g).st = .idle ∨ ((s.thr g).st = .halted ∧ (s.thr g).cause = 6) →
          (t.thr g).st = .dozing ∧ (t.thr g).doze = .swath) ∧
        ((s.memberDom g).isSome = false → (s.thr g).st = .idle →
          (t.thr g).st = if bit (s.tcb g) 4 then .ready else .idle))) ∧
  (∀ (s : State), s.mode ≠ .configure ∨ ¬ (DueAtD0 s .rehearse ∨ DueAtD0 s .run) → Idle (.leaveConfigure) s)

/-- POWER_ON_RESET, POWER_REMOVAL, WARM_RESET, RESET_RELEASE and INIT_COMPLETE. A power-on reset and power removal put the
block in OFF with nothing kept. A warm reset puts it in OFF and keeps what every agent would read from the memories, with
their check bits. Release begins initialisation where the conditions of R367 hold; else ready needs a further reset. At its
end the block is in CONFIGURE with every unit in its initial state and, after a warm reset, the memories as they were but
secure RAM, which is zero. Outside these points each changes nothing. -/
def Obligations.ResetsLeaveTheirState : Prop :=
  (∀ (s : State), exec (.powerOnReset) s = .next (inOff s .heldCold)) ∧
  (∀ (s : State), exec (.powerRemoval) s = .next (inOff s .unpowered)) ∧
  (∀ (s : State), s.off = .unpowered → Idle (.warmReset) s) ∧
  (∀ (s : State), s.off ≠ .unpowered → s.gleanBase + 256 ≤ 0x1010000 → Leads (.warmReset) s fun t =>
      t = { inOff s (if s.off = .heldCold ∨ s.off = .initCold then .heldCold else .heldWarm) with ram := t.ram, ecc := s.ecc }
    ∧
      ∀ k, k < 0x1010000 ∨ 0x1010100 ≤ k → t.cell k = s.byteAt k) ∧
  (∀ (good : Bool) (s : State), (s.off = .heldCold → exec (.resetRelease good) s = .next
    { s with off := if good then .initCold else .failed }) ∧
      (s.off = .heldWarm → exec (.resetRelease good) s = .next { s with off := if good then .initWarm else .failed }) ∧
      (s.off ≠ .heldCold → s.off ≠ .heldWarm → Idle (.resetRelease good) s)) ∧
  (∀ (s : State), s.off = .initCold → exec (.initComplete) s = .next (afterInit s)) ∧
  (∀ (s : State), s.off = .initWarm → Leads (.initComplete) s fun t => t = { afterInit s with ram := t.ram, ecc := t.ecc } ∧
      ∀ k, t.cell k = (if 0x580000 ≤ k ∧ k < 0x590000 then 0 else s.cell k) ∧
        t.mark k = (if 0x580000 ≤ k ∧ k < 0x590000 then .clean else s.mark k)) ∧
  (∀ (s : State), s.off ≠ .initCold → s.off ≠ .initWarm → Idle (.initComplete) s)

/-- REGISTER_WRITE of a register whose write starts nothing. Where no field would take a reserved encoding, no class-S field
would change while its unit runs, and the access may write the register, each field takes the written value by its access
code and nothing else changes. For every register, word held and word written: an RW field takes the written value, an RO or
WO field keeps its own, a W1C field loses and a W1S field gains the bits written as 1, and a bit of no field keeps its
value. A reserved encoding, a class-S field that would change, a reserved offset, the fast status page, an 8-bit or 16-bit
access or an unaligned 64-bit one is refused with its code and changes nothing. A 64-bit write acts as two 32-bit writes,
the lower address first, each judged on its own. Outside the accessible set of RETAIN, and in OFF, a write changes nothing.
-/
def Obligations.RegisterWritesSetTheirFields : Prop :=
  (∀ (acc : Acc) (size : Size) (off : BitVec 20) (val : DWord) (r : Reg) (s : State), Open s acc → plain r = true → r.inRange
    = true → 0x100 ≤ r.off → (r.caminOnly = true → acc.path = .camin) →
      s.secureBars acc r (lo32 val) = false → s.judge r (lo32 val) = none → off = BitVec.ofNat 20 r.off → size = .b32 →
      exec (.registerWrite acc size off val) s = .next (s.setReg r (applyFields r.fields (s.reg r) (lo32 val)))) ∧
  (∀ (acc : Acc) (size : Size) (off : BitVec 20) (val : DWord) (r : Reg) (s : State), Open s acc → plain r = true → r.inRange
    = true → 0x100 ≤ r.off → (r.caminOnly = true → acc.path = .camin) →
      s.secureBars acc r (lo32 val) = false → off = BitVec.ofNat 20 r.off → size = .b32 →
      s.reservedIn r (lo32 val) = true ∨ (s.stoppedFor r = false ∧ ∃ f ∈ r.fields, f.cls = .stopped ∧ fld (s.reg r) f.hi f.lo
    ≠ fld (lo32 val) f.hi f.lo) →
      exec (.registerWrite acc size off val) s = .next (refusal s acc 0x60 r.off)) ∧
  (∀ (acc : Acc) (size : Size) (off : BitVec 20) (val : DWord) (r : Reg) (s : State), Open s acc → r.inRange = true → 0x100 ≤
    r.off → r.caminOnly = true → acc.path ≠ .camin → off = BitVec.ofNat 20 r.off →
      size = .b32 → exec (.registerWrite acc size off val) s = .next (refusal s acc 0x05 r.off)) ∧
  (∀ (acc : Acc) (size : Size) (off : BitVec 20) (val : DWord) (s : State), Open s acc → off.toNat < 0x100 ∨ regAt off.toNat =
    none ∨ size = .b8 ∨ size = .b16 → size ≠ .b64 →
      exec (.registerWrite acc size off val) s = .next (refusal s acc 0x04 off.toNat)) ∧
  (∀ (acc : Acc) (size : Size) (off : BitVec 20) (val : DWord) (s : State), Open s acc → size = .b64 → off.toNat % 8 ≠ 0 →
    exec (.registerWrite acc size off val) s = .next (refusal s acc 0x04 off.toNat)) ∧
  (∀ (acc : Acc) (off : BitVec 20) (val : DWord) (s t : State), off.toNat % 8 = 0 → (∀ q, regAt (off.toNat + 4) ≠ some
    (.psqActHi q)) →
      exec (.registerWrite acc .b32 off (val.setWidth 32 |>.setWidth 64)) s = .next t →
      exec (.registerWrite acc .b64 off val) s = exec (.registerWrite acc .b32 (off + 4) (val >>> 32)) t) ∧
  (∀ (acc : Acc) (size : Size) (off : BitVec 20) (val : DWord) (s : State), s.mode = .off ∨ (s.mode = .retain ∧ acc.path =
    .mailbox) ∨
      (s.mode = .retain ∧ size = .b32 ∧ retainOpen off.toNat = false) → Idle (.registerWrite acc size off val) s) ∧
  (∀ (r : Reg) (cur v : Word) (i : Nat), r.inRange = true → i < 32 →
      (∀ f ∈ r.fields, f.lo ≤ i → i ≤ f.hi → bit (applyFields r.fields cur v) i = match f.acc with
        | .rw => bit v i
        | .ro => bit cur i
        | .wo => bit cur i
        | .w1c => bit cur i && !bit v i
        | .w1s => bit cur i || bit v i) ∧
      ((∀ f ∈ r.fields, i < f.lo ∨ f.hi < i) → bit (applyFields r.fields cur v) i = bit cur i))

/-- For every register that the block has, at every index it has, the map from offsets to registers gives that register at its
offset; and whatever register the map gives at an offset stands at that offset. So no two registers share an offset, and no
register is out of reach. The registers below 0x100 are the words of the fast status page that have no register of their own
elsewhere. -/
def Obligations.RegisterMapRoundTrip : Prop :=
  (∀ r : Reg, r.inRange = true → 0x100 ≤ r.off → regAt r.off = some r) ∧
  (∀ (o : Nat) (r : Reg), 0x100 ≤ o → regAt o = some r → r.off = o ∧ r.inRange = true)

/-- For every address and every list of bytes below the Gleaner's shadow: after an agent's write, each written byte reads as
written and every other byte reads as before, in whatever phase the Gleaner is and whichever granules held errors. The
memories keep their canonical form. A little-endian word written reads as that word. -/
def Obligations.MemoryReadsBackWhatIsWritten : Prop :=
  (∀ (s : State) (k j : Nat) (bs : List Byte), WindowFits s → k + bs.length ≤ 0x1010000 → j < 0x1010000 →
      (s.memWrite k bs).byteAt j = if k ≤ j ∧ j < k + bs.length then bs.getD (j - k) 0 else s.byteAt j) ∧
  (∀ (s : State) (k : Nat) (bs : List Byte), (Memory.wf s.ram = true → Memory.wf (s.memWrite k bs).ram = true) ∧
      (s.memWrite k bs).chip = s.chip) ∧
  (∀ (s : State) (k : Nat) (w : Word), WindowFits s → k + 4 ≤ 0x1010000 → (s.setWord k w).word k = w) ∧
  (∀ (s : State) (a b : Nat) (x : Byte), (s.setChip a x).chipByte b = (if b = a then x else s.chipByte b) ∧
      (Memory.wf s.chip = true → Memory.wf (s.setChip a x).chip = true))

/-- APERTURE_READ and APERTURE_WRITE by the host or the Camin port. Table 15 names what is open: by region and mode, secure
RAM only to a secure access and not while a wipe runs. Outside CONFIGURE a host access must lie in an enabled window, a
write in one that permits writes. An allowed read of bytes without errors delivers them, lowest first, and changes nothing
else; one that meets an uncorrectable error delivers 0 and reports it. An allowed write stores its bytes and leaves every
other byte. Anything else delivers 0 or changes nothing and reports SPACE with the offset. -/
def Obligations.ApertureFollowsTable15 : Prop :=
  (∀ (s : State) (acc : Acc) (o : Nat) (w : Bool), s.regionOpen acc o w = true ↔ ∃ r ∈ table15, r.1 ≤ o ∧ o ≤ r.2.1 ∧
      (if s.mode = .configure then (if w then r.2.2.2.1 else r.2.2.1) else (if w then r.2.2.2.2.2 else r.2.2.2.2.1)) = true ∧
      (r.1 = 0x580000 → acc.secure = true ∧ s.rb .cpxSwipe 30 = false)) ∧
  (∀ (s : State) (acc : Acc) (o n : Nat) (w : Bool), s.apertureOk acc o n w = true ↔ s.mode ≠ .retain ∧ o % n = 0 ∧
      s.regionOpen acc o w = true ∧ (s.mode = .configure ∨ acc.path = .camin ∨ ∃ i, i < 4 ∧ s.rb (.cpxAwin i) 31 = true ∧
        (w = true → s.rb (.cpxAwin i) 30 = true) ∧ 4096 * s.rf (.cpxAwin i) 11 0 ≤ o ∧
        o + n ≤ 4096 * s.rf (.cpxAwin i) 11 0 + 4096 * 2 ^ s.rf (.cpxAwin i) 15 12)) ∧
  (∀ (acc : Acc) (size : Size) (off : BitVec 24) (s : State), acc.path ≠ .mailbox → s.mode ≠ .off → s.apertureOk acc off.toNat
    (sizeLen size) false = true →
      Clean s (s.apertureKey off.toNat) (sizeLen size) →
      exec (.apertureRead acc size off) s = .next (s.setRead acc.path (BitVec.ofNat 64 (ofBytes (s.bytesAt (s.apertureKey
    off.toNat) (sizeLen size)))))) ∧
  (∀ (acc : Acc) (size : Size) (off : BitVec 24) (g : Nat) (s : State), acc.path ≠ .mailbox → s.mode ≠ .off → s.apertureOk acc
    off.toNat (sizeLen size) false = true →
      s.gleaner.ph ≠ .test → granules (s.apertureKey off.toNat) (sizeLen size) = [g] → s.mark g = .bad → Leads (.apertureRead
    acc size off) s fun t =>
        t.readData acc.path = 0 ∧ t.reports = s.reports ++ [⟨s.cycle + 1, 0x41, 8, (regionOf g).elim 7 Prod.fst, ueWord g, 3,
    false⟩] ∧
        RegsBut [.cpxUerec] s t ∧ t = { s with rdata := t.rdata, reports := t.reports, regs := t.regs }) ∧
  (∀ (acc : Acc) (size : Size) (off : BitVec 24) (s : State), Open s acc → s.apertureOk acc off.toNat (sizeLen size) false =
    false →
      exec (.apertureRead acc size off) s = .next
    (({ s with reports := s.reports ++ [⟨s.cycle + 1, 0x04, pathSkind acc.path, 0, BitVec.ofNat 32 off.toNat, 1, false⟩] } :
    State).setRead acc.path 0)) ∧
  (∀ (acc : Acc) (size : Size) (off : BitVec 24) (val : DWord) (s : State), Open s acc → s.apertureOk acc off.toNat (sizeLen
    size) true = false →
      exec (.apertureWrite acc size off val) s = .next
    { s with reports := s.reports ++ [⟨s.cycle + 1, 0x04, pathSkind acc.path, 0, BitVec.ofNat 32 off.toNat, 1, false⟩] }) ∧
  (∀ (acc : Acc) (size : Size) (off : BitVec 24) (val : DWord) (j : Nat) (s : State), Open s acc → WindowFits s → s.apertureOk
    acc off.toNat (sizeLen size) true = true →
      Leads (.apertureWrite acc size off val) s fun t => (j < 0x1010000 → t.byteAt j =
        if s.apertureKey off.toNat ≤ j ∧ j < s.apertureKey off.toNat + sizeLen size then
          BitVec.ofNat 8 (val.toNat >>> (8 * (j - s.apertureKey off.toNat)))
        else s.byteAt j) ∧
        t = { s with ram := t.ram, ecc := t.ecc, scrubs := t.scrubs, regs := t.regs, gleaner := t.gleaner }) ∧
  (∀ (acc : Acc) (size : Size) (off : BitVec 24) (s : State), s.mode = .off ∨ acc.path = .mailbox → Idle (.apertureRead acc
    size off) s) ∧
  (∀ (acc : Acc) (size : Size) (off : BitVec 24) (val : DWord) (s : State), s.mode = .off ∨ acc.path = .mailbox → Idle
    (.apertureWrite acc size off val) s)

/-- WIDE_READ_LOW, TIMER_CAPTURE_READ, PROGRAM_RAM_READ, CAPTURE_FIFO_READ and GLOBAL_CHANNEL_PEEK. A read of the low word of
a 64-bit value delivers it and latches the high word of the same instant on its path; the high-word read delivers the latch;
a 64-bit read delivers both; no path's latch is another's. A read of a capture FIFO delivers the oldest entry, 0 from an
empty FIFO, and removes it. A program word is read at PSQ_PADDR, which moves on. A peek delivers the ring word that
CPX_GCHSEL selects, to a Camin-port access alone, and changes no channel. -/
def Obligations.WideReadsAreOneValue : Prop :=
  (∀ (acc : Acc) (size : Size) (off : BitVec 20) (r : Reg) (v : DWord) (s : State), Open s acc → r.inRange = true → wide s r =
    some v → off = BitVec.ofNat 20 r.off → size = .b32 →
      Leads (.wideReadLow acc size off) s fun t => t.readData acc.path = (lo32 v).setWidth 64 ∧ t =
    { s with latch := t.latch, rdata := t.rdata } ∧
        exec (.wideReadLow acc .b32 (BitVec.ofNat 20 (highWord r).off)) t = .next (t.setRead acc.path ((hi32 v).setWidth 64))
    ∧
        ∀ p ∈ [Path.host, .camin, .mailbox], p ≠ acc.path → t.readData p = s.readData p) ∧
  (∀ (acc : Acc) (size : Size) (off : BitVec 20) (r : Reg) (v : DWord) (s : State), Open s acc → r.inRange = true → wide s r =
    some v → off = BitVec.ofNat 20 r.off → size = .b64 →
      Leads (.wideReadLow acc size off) s fun t => t.readData acc.path = v ∧ t =
    { s with latch := t.latch, rdata := t.rdata }) ∧
  (∀ (acc : Acc) (size : Size) (ch : BitVec 5) (v : DWord) (l : List DWord) (s : State), Open s acc → size = .b64 → (s.timer
    ch.toNat).caps = v :: l → (s.timer ch.toNat).lost = none →
      Leads (.timerCaptureRead acc size ch) s fun t => t.readData acc.path = v ∧ t.timer ch.toNat =
    { s.timer ch.toNat with caps := l } ∧
        OnlyAt ch.toNat s.timer t.timer ∧ t = { s with latch := t.latch, rdata := t.rdata, timers := t.timers }) ∧
  (∀ (acc : Acc) (size : Size) (ch : BitVec 5) (s : State), Open s acc → size = .b32 ∨ size = .b64 → (s.timer ch.toNat).caps =
    [] →
      Leads (.timerCaptureRead acc size ch) s fun t => t.readData acc.path = 0 ∧ t =
    { s with latch := t.latch, rdata := t.rdata }) ∧
  (∀ (acc : Acc) (q : BitVec 6) (s : State), Open s acc → Leads (.programRamRead acc q) s fun t =>
      t.readData acc.path = (s.progWord q.toNat (s.rf (.psqPaddr q.toNat) 7 0)).setWidth 64 ∧
      t.rf (.psqPaddr q.toNat) 7 0 = (s.rf (.psqPaddr q.toNat) 7 0 + 1) % 256 ∧ RegsBut [.psqPaddr q.toNat] s t ∧
      t = { s with rdata := t.rdata, regs := t.regs }) ∧
  (∀ (src : PortSrc) (q : BitVec 6) (l : BitVec 3) (acc : Acc) (w : Word) (b : Bool) (l' : List (Word × Bool)) (s : State),
    src = .bus acc → Open s acc → (s.lane q.toNat l.toNat).caps = (w, b) :: l' →
      Leads (.captureFifoRead src q l) s fun t => t.readData acc.path = mk64 (BitVec.ofNat 32 b.toNat) w ∧
        (t.lane q.toNat l.toNat) = { s.lane q.toNat l.toNat with caps := l' } ∧
        t = { s with latch := t.latch, rdata := t.rdata, lanes := t.lanes }) ∧
  (∀ (src : PortSrc) (q : BitVec 6) (l : BitVec 3) (g : Tid) (w : Word) (b : Bool) (l' : List (Word × Bool)) (s : State), src
    = .thread g → s.portReach g.toNat q.toNat = true →
      (s.lane q.toNat l.toNat).caps = (w, b) :: l' →
      exec (.captureFifoRead src q l) s = .next (s.setLane q.toNat l.toNat { s.lane q.toNat l.toNat with caps := l' })) ∧
  (∀ (src : PortSrc) (q : BitVec 6) (l : BitVec 3) (g : Tid) (s : State), src = .thread g → s.portReach g.toNat q.toNat =
    false ∨ (s.lane q.toNat l.toNat).caps = [] → Idle (.captureFifoRead src q l) s) ∧
  (∀ (acc : Acc) (s : State), Open s acc → acc.path = .camin → exec (.globalChannelPeek acc) s = .next (s.setRead .camin
      (((s.chan (0x100 + s.rf .cpxGchsel 10 4)).word (s.rf .cpxGchsel 3 0)).setWidth 64))) ∧
  (∀ (acc : Acc) (s : State), Open s acc → acc.path ≠ .camin → exec (.globalChannelPeek acc) s = .next ((refusal s acc 0x05
    0x414).setRead acc.path 0))

/-- For every state, every command and every rest of a queue: the step of the state whose queue is that command followed by
that rest is the command's effect on the state whose queue is the rest. On an empty queue time passes (log 1, the model's
own choice). -/
def Obligations.StepRunsTheFrontCommand : Prop :=
  (∀ (c : Instr) (r : List Instr) (s : State), step { s with pending := c :: r } = exec c { s with pending := r }) ∧
  (∀ (s : State), s.pending = [] → step s = .next s.tick)

/-- For every legal state, whatever command is at the front of its queue or whether time passes: if the step answers a next
state, that state is legal. The memories list no byte that is 0 and no address twice; the slot pointer is one of 32; only
commands that name units the block has wait; the block is in a kind of OFF exactly in mode OFF; and only HOLD has a mode to
return to, a source or a settled state. That time queues its own commands when the queue is empty is the model's choice (log
1). -/
def Obligations.EveryStepKeepsLegal : Prop :=
  (∀ (s t : State), Legal s → step s = .next t → Legal t)

/-- The state after reset satisfies the invariant that every step keeps: canonical memories, a slot pointer in range, an empty
and so well-formed queue, mode CONFIGURE and no HOLD. -/
def Obligations.ResetIsLegal : Prop :=
  (Legal State.reset)

/-- For every state whose waiting commands are well-formed, the step answers a next state whose waiting commands are
well-formed again; the machine never stops on them. The one command that stops is a sample of a supply monitor that Table
109 does not have. For every command and state: if the command answers a next state, the waiting commands, the half of the
cycle and the count of cycles are as before; only time passing moves them (log 1, the model's own choice). -/
def Obligations.EveryStepAnswers : Prop :=
  (∀ (s : State), queueWf s = true → ∃ t, step s = .next t ∧ queueWf t = true) ∧
  (∀ (r : BitVec 4) (mv : Half) (s : State), 10 ≤ r.toNat → exec (.supplySample r mv) s = .fault .noSuchMonitor) ∧
  (∀ (c : Instr) (s t : State), exec c s = .next t → t.pending = s.pending ∧ t.half = s.half ∧ t.cycle = s.cycle)

/-- The step that begins a cycle moves the slot pointer of every core on by 1, from 31 to 0, and no command moves it but
these: the entry to REHEARSE or RUN from CONFIGURE and the return from HOLD, which leave it 0, and resets. In OFF and RETAIN
it stands still. CORE_STAT.SPTR shows it. A cycle is two steps on an empty queue, of which the first begins it (the model's
choice, log 1). -/
def Obligations.SlotPointersAdvanceEveryCycle : Prop :=
  (∀ (s : State), s.pending = [] → s.mode ≠ .off → s.mode ≠ .retain → s.half = false →
      ∃ t, step s = .next t ∧ t.sptr = (s.sptr + 1) % 32 ∧ t.cycle = s.cycle + 1) ∧
  (∀ (s : State), s.pending = [] → s.mode = .off ∨ s.mode = .retain ∨ s.half = true → ∃ t, step s = .next t ∧ t.sptr = s.sptr) ∧
  (∀ (c : Instr) (s t : State), exec c s = .next t → t.sptr = s.sptr ∨ (t.sptr = 0 ∧
      (t.mode = .off ∨ s.mode = .off ∨ c = .leaveConfigure ∨ c = .returnFromHold))) ∧
  (∀ (m : Mode) (s : State), s.mode = .configure → m = .rehearse ∨ m = .run → DueAtD0 s m →
      Leads (.leaveConfigure) s fun t => t.mode = m ∧ t.sptr = 0) ∧
  (∀ (s : State), s.mode = .hold → DueAtD0 s s.heldFrom → Leads (.returnFromHold) s fun t => t.mode = s.heldFrom ∧ t.sptr = 0) ∧
  (∀ (s : State) (n : Nat), s.sptr < 32 → (s.core n).rptr < 256 → fld (s.coreStatWord n) 7 0 = s.sptr)

/-- The step that begins a cycle adds to Commons time the increment, the fraction increment and the rate adjustment in force
with the fraction carried, the slew unit and the accepted steps of the cycle; the fraction keeps the rest. A carry out of
bit 63 adds 1 to the era and a borrow takes 1 from it. In OFF and RETAIN the time stands still. No commit of CMN_TIME is
pending here. -/
def Obligations.TimeAdvancesByTheRate : Prop :=
  (∀ (s : State), s.pending = [] → s.mode ≠ .off → s.mode ≠ .retain → s.half = false → s.commons.set = none → s.holdReq = none
    →
      ∃ t, step s = .next t ∧
        (t.commons.time.toNat : Int) = (s.commons.time.toNat + (s.commons.adv + s.commons.frac.toNat) / 2 ^ 32 + s.commons.u +
    s.commons.v) % 2 ^ 64 ∧
        (t.commons.frac.toNat : Int) = (s.commons.adv + s.commons.frac.toNat) % 2 ^ 32 ∧
        t.commons.era = (if 2 ^ 64 ≤ s.commons.time.toNat + (s.commons.adv + s.commons.frac.toNat) / 2 ^ 32 + s.commons.u +
    s.commons.v then s.commons.era + 1
          else if s.commons.time.toNat + (s.commons.adv + s.commons.frac.toNat) / 2 ^ 32 + s.commons.u + s.commons.v < 0 then
    s.commons.era - 1
          else s.commons.era) ∧
        t.commons.adv = (s.rf .cmnInci 6 0 * 2 ^ 32 + (s.reg .cmnIncf).toNat : Nat) + (s.reg .cmnRadj).toInt ∧
        t.commons.u = 0 ∧ t.commons.v = 0) ∧
  (∀ (s : State), s.pending = [] → s.mode = .off ∨ s.mode = .retain → ∃ t, step s = .next t ∧ t.commons = s.commons)

/-- For every command and state: if a thread holds a lock, it still holds it after the command, unless the command is LOCK.REL
by that thread, a host release of that lock (LOCK_RELEASE_HOST, or REGISTER_WRITE of the release register) or a reset.
Thread states and mode changes release none. A host release of a free lock changes nothing and reports nothing. -/
def Obligations.HeldLocksAreFreedOnlyByRelease : Prop :=
  (∀ (c : Instr) (s t : State) (k g : Nat), s.lock k = some g → exec c s = .next t → t.lock k = some g ∨ (t.lock k = none ∧
      ((∃ h : Tid, c = .lockRel h ∧ h.toNat = g) ∨ hostRelease c = true ∨ t.mode = .off ∨ s.mode = .off))) ∧
  (∀ (acc : Acc) (u : LockUnit) (lock : BitVec 9) (s : State), Open s acc → lockListed u lock.toNat = true → Leads
    (.lockReleaseHost acc u lock) s fun t => t = { s with locks := t.locks } ∧
      t.lock (lockIndex u lock.toNat) = none ∧ OnlyAt (lockIndex u lock.toNat) s.lock t.lock) ∧
  (∀ (acc : Acc) (u : LockUnit) (lock : BitVec 9) (s : State), Open s acc → lockListed u lock.toNat = false → exec
    (.lockReleaseHost acc u lock) s = .next (refusal s acc 0x60
      (releaseReg u).off)) ∧
  (∀ (acc : Acc) (u : LockUnit) (lock : BitVec 9) (s : State), s.mode = .off ∨ s.mode = .retain ∨ acc.path = .mailbox → Idle
    (.lockReleaseHost acc u lock) s)

/-- INIT_COMPLETE after either reset: every thread IDLE with FLG, P, ACC, Q, REM, FPC, FPS, loop registers and CORE_PC 0;
every slot entry OPEN and the slot pointers 0; every core in GATE; every domain and every ledger entry disabled; every
context FREE with GEN 0; every lock free, flag 0 and channel empty; every sequencer STOPPED with an empty action FIFO; every
pin owned by 0x3F with its slots disabled and its output disabled; every MBU disabled with its link down; time, era and F 0
and every timer disabled; the log empty with the next SEQ 0 and every standing order disarmed; the Gleaner at the first
window of region 0. -/
def Obligations.InitialStateIsTable117 : Prop :=
  (∀ (g n e d m x k q p ch o : Nat) (s : State), s.off = .initCold ∨ s.off = .initWarm → Leads (.initComplete) s fun t =>
      ((t.thr g).st = .idle ∧ (t.thr g).flg = 0 ∧ (t.thr g).p = 0 ∧ (t.thr g).acc = 0 ∧ (t.thr g).q = 0 ∧ (t.thr g).rem = 0 ∧
        (t.thr g).fpc = 0 ∧ (t.thr g).fps = 0 ∧ (t.thr g).pc = 0 ∧ (∀ i, i < 4 → (t.thr g).loop i = ⟨0, 0, 0⟩)) ∧
      (n < 32 → e < 32 → t.rf (.coreSlot n e) 4 0 = 0x10) ∧ t.sptr = 0 ∧ (t.core n).dz = 1 ∧
      (d < 4 → t.domEn d = false) ∧ (g < 512 → t.rb (.ldgTbud g) 31 = false) ∧ (m < 32 → t.rb (.ldgMbud m) 31 = false) ∧
      (t.ctx x).st = .free ∧ (t.ctx x).gen = 0 ∧ t.lock k = none ∧ (∀ f, t.flagNow k f = false) ∧ (t.chan k).msgs = [] ∧
      (t.psq q).st = .stopped ∧ (t.psq q).fifo = [] ∧
      (p < 256 → t.owner p = 0x3F ∧ (∀ j, j < 4 → t.slotEn p j = false) ∧ t.pinOut p = some (false, false)) ∧
      (m < 16 → t.rb (.mbuCtl m) 31 = false ∧ t.linkUp m = false) ∧
      t.commons.time = 0 ∧ t.commons.era = 0 ∧ t.commons.frac = 0 ∧ (ch < 32 → t.rb (.tmrCtl ch) 31 = false) ∧
      t.log = [] ∧ t.seq = 0 ∧ (o < 32 → t.rb (.sorCtl o) 31 = false) ∧ t.gleaner.reg = 0 ∧ t.gleaner.win = 0 ∧ t.gleaner.ph =
    .idle)

/-- For every width and all values: the comparison that the model uses for Commons time, short times, swath numbers and
generations holds exactly when (a − b) modulo 2^n is below 2^(n−1), and a value is after another when it is at or after it
and not equal to it. -/
def Obligations.ComparisonsAreModuloTheWidth : Prop :=
  (∀ (n : Nat) (a b : BitVec n), 0 < n → (atOrAfter a b = true ↔ (a.toNat + (2 ^ n - b.toNat)) % 2 ^ n < 2 ^ (n - 1)) ∧
      (after a b = true ↔ atOrAfter a b = true ∧ a ≠ b))

/-- DOMAIN_ENABLE of a disabled domain whose PERIOD is legal sets EN and DBG_GRACE, and the first boundary time is the
earliest START + k × 16 × PERIOD, k ≥ 0, later than the time of the next cycle, with the number NUMBASE + k; nothing else
changes. For an enabled domain it sets only DBG_GRACE. DOMAIN_DISABLE of a running domain outside CONFIGURE is refused under
R9; in CONFIGURE it clears EN and TICKING and brings a pending PERIOD into force, and NUM stays. -/
def Obligations.DomainsBeginAtTheNextBoundaryTime : Prop :=
  (∀ (acc : Acc) (d : BitVec 2) (grace : Bool) (s : State), Open s acc → s.domEn d.toNat = false → 2000 ≤ s.rf (.swdPeriod
    d.toNat) 24 0 → Leads (.domainEnable acc d grace) s fun t =>
      t = { s with regs := t.regs, doms := t.doms } ∧ RegsBut [.swdCtl d.toNat] s t ∧ OnlyAt d.toNat s.dom t.dom ∧ t.domEn
    d.toNat = true ∧
      t.rb (.swdCtl d.toNat) 1 = grace ∧ (t.dom d.toNat).bcyc = (s.dom d.toNat).bcyc ∧
      ∃ k, (t.dom d.toNat).next = firstBoundary s d.toNat k ∧ (t.dom d.toNat).nextNum = s.reg (.swdNumbase d.toNat) +
    BitVec.ofNat 32 k ∧
        after (firstBoundary s d.toNat k) s.nextTime = true ∧ ∀ j, j < k → after (firstBoundary s d.toNat j) s.nextTime =
    false) ∧
  (∀ (acc : Acc) (d : BitVec 2) (grace : Bool) (s : State), Open s acc → s.domEn d.toNat = true → Leads (.domainEnable acc d
    grace) s fun t => t = { s with regs := t.regs } ∧ RegsBut [.swdCtl d.toNat] s t ∧
      t.domEn d.toNat = true ∧ t.rb (.swdCtl d.toNat) 1 = grace) ∧
  (∀ (acc : Acc) (d : BitVec 2) (grace : Bool) (s : State), Open s acc → s.domEn d.toNat = true → s.mode ≠ .configure → exec
    (.domainDisable acc d grace) s = .next (refusal s acc 0x60 (Reg.swdCtl d.toNat).off)) ∧
  (∀ (acc : Acc) (d : BitVec 2) (grace : Bool) (s : State), Open s acc → s.domEn d.toNat = false ∨ s.mode = .configure → Leads
    (.domainDisable acc d grace) s fun t =>
      t = { s with regs := t.regs, held := t.held } ∧ RegsBut [.swdCtl d.toNat, .swdStat d.toNat] s t ∧ t.domEn d.toNat =
    false ∧
      t.rb (.swdCtl d.toNat) 1 = grace ∧ (s.domEn d.toNat = true → t.rb (.swdStat d.toNat) 0 = false ∧
        t.inForce (.swdPeriod d.toNat) = s.reg (.swdPeriod d.toNat)))

/-- SWATH_BOUNDARY of an enabled domain whose boundary time has come takes one boundary, however many boundary times have
passed: NUM and BTIME show the last one passed, SKIPB counts those not taken, TICKING is 1 and the next boundary is one
period later. Each member in SWATH.WAIT becomes READY from the next cycle and takes part in the swath. A thread that takes
part in the ending swath, has not finished and is not exempt by grace is LATE with KIND 1; an exempt one counts in GRACECNT.
In CONFIGURE no thread is released and nothing is checked. Other domains and threads outside the domain are untouched. Where
no boundary is due nothing changes. -/
def Obligations.BoundariesBeginSwaths : Prop :=
  (∀ (d : BitVec 2) (s : State), s.boundaryDue d.toNat = false → Idle (.swathBoundary d) s) ∧
  (∀ (d : BitVec 2) (s : State), s.boundaryDue d.toNat = true → 2000 ≤ (s.promote (.swdPeriod d.toNat)).ff (.swdPeriod
    d.toNat) 24 0 → Leads (.swathBoundary d) s fun t =>
      OnlyAt d.toNat s.dom t.dom ∧ t.periodUnits d.toNat = (s.promote (.swdPeriod d.toNat)).periodUnits d.toNat ∧
      (t.dom d.toNat).bcyc = s.cycle ∧ t.rb (.swdStat d.toNat) 0 = true ∧
      t.reg (.swdNum d.toNat) = (s.dom d.toNat).nextNum + BitVec.ofNat 32 (missed s t d.toNat) ∧ (t.dom d.toNat).nextNum =
    t.reg (.swdNum d.toNat) + 1 ∧
      t.reg64 (.swdBtime d.toNat) = (s.dom d.toNat).next + BitVec.ofNat 64 (missed s t d.toNat * t.periodUnits d.toNat) ∧
      (t.dom d.toNat).next = t.reg64 (.swdBtime d.toNat) + BitVec.ofNat 64 (t.periodUnits d.toNat) ∧
      atOrAfter s.now (t.reg64 (.swdBtime d.toNat)) = true ∧ after (t.dom d.toNat).next s.now = true ∧
      t.rf (.swdStat d.toNat) 31 16 = min 65535 (s.rf (.swdStat d.toNat) 31 16 + missed s t d.toNat) ∧
      t.mode = s.mode ∧ t.commons = s.commons ∧ t.locks = s.locks ∧ t.chans = s.chans ∧ t.pins = s.pins ∧ t.cores = s.cores) ∧
  (∀ (d : BitVec 2) (g : Nat) (s : State), s.boundaryDue d.toNat = true → s.mode ≠ .configure → s.memberDom g = some d.toNat →
      (s.thr g).st = .dozing → (s.thr g).doze = .swath → Leads (.swathBoundary d) s fun t => (t.thr g).st = .ready ∧ (t.thr
    g).doze = .none ∧
        (t.thr g).pc = (s.thr g).pc ∧ s.cycle < (t.thr g).next ∧ (t.thr g).part = some ⟨d.toNat, t.reg (.swdNum d.toNat),
    s.cycle, false, false, 0, false⟩) ∧
  (∀ (d : BitVec 2) (g : Nat) (p : Part) (s : State), s.boundaryDue d.toNat = true → s.ledgerOn = true → (s.thr g).part = some
    p → p.dom = d.toNat →
      p.start ≠ s.cycle → p.passed = 0 → p.done = false → Leads (.swathBoundary d) s fun t =>
        if s.rb (.swdCtl d.toNat) 1 = true ∧ p.halted = true then (s.reg (.ldgGracecnt d.toNat)).toNat < (t.reg (.ldgGracecnt
    d.toNat)).toNat ∨ s.reg (.ldgGracecnt d.toNat) = 0xFFFFFFFF
        else (⟨s.cycle + 1, 0x10, 0, g, p.swath, lateDb 1 d.toNat, s.mode == .rehearse⟩ : Report) ∈ t.reports) ∧
  (∀ (d : BitVec 2) (g : Nat) (s : State), s.mode = .configure ∨ (s.memberDom g ≠ some d.toNat ∧ ∀ p, (s.thr g).part = some p
    → p.dom ≠ d.toNat) →
      Leads (.swathBoundary d) s fun t => (t.thr g).st = (s.thr g).st ∧ (t.thr g).pc = (s.thr g).pc ∧ (t.thr g).next = (s.thr
    g).next ∧
        (s.mode = .configure → t.reports.all (fun r => r.code != 0x10 && r.code != 0x13) = s.reports.all (fun r => r.code !=
    0x10 && r.code != 0x13)))

/-- BUDGET_EXPIRY of a thread that takes part in a swath, has not finished, in the cycle numbered BUDGET: it is checked, and
no later check of that swath follows; where DBG_GRACE is 1 and it was HALTED in the swath, GRACECNT counts and nothing is
reported; otherwise LATE with KIND 0 is reported, LATECNT counts, the LATE record takes it, and each open or complete sheaf
of the domain of which it is a member aborts. A registered mover that has not finished gives MOVER_STARVED and no abort. A
thread that has finished, has no budget, or whose cycle is another is not checked. -/
def Obligations.TheLedgerReportsLateMembers : Prop :=
  (∀ (g : Tid) (p : Part) (s : State), s.ledgerOn = true → (s.thr g.toNat).part = some p → p.passed = 0 → p.done = false →
      s.ff (.ldgTbud g.toNat) 23 0 ≠ 0 → s.ff (.ldgTbud g.toNat) 23 0 = s.cycle - p.start → s.rb (.swdCtl p.dom) 1 = true →
    p.halted = true →
      Leads (.budgetExpiry (.thread g)) s fun t => t = { s with threads := t.threads, regs := t.regs } ∧ RegsBut [.ldgGracecnt
    p.dom] s t ∧
        t.reg (.ldgGracecnt p.dom) = satAdd (s.reg (.ldgGracecnt p.dom)) 1 ∧ OnlyAt g.toNat s.thr t.thr ∧
        t.thr g.toNat = { s.thr g.toNat with part := some { p with done := true } }) ∧
  (∀ (g : Tid) (p : Part) (s : State), s.ledgerOn = true → (s.thr g.toNat).part = some p → p.passed = 0 → p.done = false →
    p.dom < 4 →
      s.ff (.ldgTbud g.toNat) 23 0 ≠ 0 → s.ff (.ldgTbud g.toNat) 23 0 = s.cycle - p.start → s.rb (.swdCtl p.dom) 1 = false ∨
    p.halted = false →
      Leads (.budgetExpiry (.thread g)) s fun t =>
        t.reports.getLast? = some ⟨s.cycle + 1, 0x10, 0, g.toNat, p.swath, lateDb 0 p.dom, s.mode == .rehearse⟩ ∧
        t.reg (.ldgLatecnt p.dom) = satAdd (s.reg (.ldgLatecnt p.dom)) 1 ∧ t.reg (.ldgLswn p.dom) = p.swath ∧ t.rb (.ldgLstat
    p.dom) 31 = true ∧
        t.rb (.ldgLmap p.dom (g.toNat / 32)) (g.toNat % 32) = true ∧
        (s.reg (.ldgLswn p.dom) = p.swath → s.rb (.ldgLstat p.dom) 31 = true → t.rf (.ldgLstat p.dom) 8 0 = s.rf (.ldgLstat
    p.dom) 8 0 ∧
          t.rf (.ldgLstat p.dom) 18 9 = min 1023 (s.rf (.ldgLstat p.dom) 18 9 + 1)) ∧
        (s.reg (.ldgLswn p.dom) ≠ p.swath → t.rf (.ldgLstat p.dom) 8 0 = g.toNat ∧ t.rf (.ldgLstat p.dom) 18 9 = 1 ∧ t.rb
    (.ldgLstat p.dom) 28 = false ∧
          t.rb (.ldgLstat p.dom) 29 = (s.mode == .rehearse) ∧ t.rb (.ldgLstat p.dom) 30 = (s.rb (.ldgLstat p.dom) 31 || s.rb
    (.ldgLstat p.dom) 30)) ∧
        (∀ x, s.isFault x = false → s.ctxDom x = p.dom → g.toNat ∈ (s.ctx x).members → (s.ctx x).st = .opened ∨ (s.ctx x).st =
    .complete → (t.ctx x).st = .aborted) ∧
        (t.thr g.toNat).part = some { p with done := true } ∧ (t.thr g.toNat).st = (s.thr g.toNat).st ∧ (t.thr g.toNat).pc =
    (s.thr g.toNat).pc ∧
        t.locks = s.locks ∧ t.chans = s.chans ∧ t.pins = s.pins) ∧
  (∀ (m : BitVec 5) (s : State), s.moverBudgetDue m.toNat = true → Leads (.budgetExpiry (.mover m)) s fun t => t =
    { s with movers := t.movers, reports := t.reports } ∧
        t.mover m.toNat = { s.mover m.toNat with done := true } ∧ OnlyAt m.toNat s.mover t.mover ∧
        t.reports = s.reports ++ [⟨s.cycle + 1, 0x13, 1, m.toNat, s.reg (.swdNum (s.rf (.ldgMbud m.toNat) 29 28)), lateDb 0
    (s.rf (.ldgMbud m.toNat) 29 28), s.mode == .rehearse⟩]) ∧
  (∀ (g : Tid) (s : State), (s.thr g.toNat).part = none ∨ s.ff (.ldgTbud g.toNat) 23 0 = 0 ∨ s.ledgerOn = false ∨
      (∃ p, (s.thr g.toNat).part = some p ∧ (p.done = true ∨ 0 < p.passed ∨ s.ff (.ldgTbud g.toNat) 23 0 ≠ s.cycle - p.start))
    → Idle (.budgetExpiry (.thread g)) s) ∧
  (∀ (m : BitVec 5) (s : State), s.moverBudgetDue m.toNat = false → Idle (.budgetExpiry (.mover m)) s)

/-- CORE_TCMD START of an IDLE thread makes it READY at its PC, to issue from the next cycle on. STOP of a READY thread is
pending until its next instruction boundary; of a WAITING, DOZING, FAULTED or HALTED one it makes it IDLE at once. CLEAR
makes a FAULTED thread IDLE. A thread that becomes IDLE keeps its context and loses its membership and reservations, and the
messages it had open are abandoned and reported. At the boundary a pending stop makes the thread IDLE and prevails over a
pending halt, which makes it HALTED with its cause and PRIOR. Any other command is refused with CFG_REJECT, and no other
thread changes. -/
def Obligations.ThreadCommandsFollowTable20 : Prop :=
  (∀ (acc : Acc) (g : Tid) (s : State), Open s acc → (s.thr g.toNat).st = .idle → Leads (.coreTcmdStart acc g) s fun t => t =
    { s with threads := t.threads } ∧ OnlyAt g.toNat s.thr t.thr ∧
      t.thr g.toNat =
    { s.thr g.toNat with st := .ready, next := max (s.thr g.toNat).next (s.cycle + 1), tcmd := some s.cycle, part := (s.thr g.toNat).part.map fun p => { p with restarted := true } }) ∧
  (∀ (acc : Acc) (g : Tid) (s : State), Open s acc → (s.thr g.toNat).st ≠ .idle → exec (.coreTcmdStart acc g) s = .next
    (refusal s acc 0x60 (Reg.coreTcmd (coreOf g.toNat)).off)) ∧
  (∀ (acc : Acc) (g : Tid) (s : State), Open s acc → (s.thr g.toNat).st = .idle → exec (.coreTcmdStop acc g) s = .next
    (refusal s acc 0x60 (Reg.coreTcmd (coreOf g.toNat)).off)) ∧
  (∀ (acc : Acc) (g : Tid) (s : State), Open s acc → (s.thr g.toNat).st = .ready → Leads (.coreTcmdStop acc g) s fun t => t =
    { s with threads := t.threads } ∧ OnlyAt g.toNat s.thr t.thr ∧
      t.thr g.toNat = { s.thr g.toNat with stopReq := some ((s.thr g.toNat).stopReq.getD s.cycle), tcmd := some s.cycle }) ∧
  (∀ (acc : Acc) (g : Tid) (s : State), Open s acc → (s.thr g.toNat).st ≠ .idle → (s.thr g.toNat).st ≠ .ready → Leads
    (.coreTcmdStop acc g) s fun t => BecomesIdle s t g.toNat ∧ (t.thr g.toNat).tcmd = some s.cycle) ∧
  (∀ (acc : Acc) (g : Tid) (s : State), Open s acc → (s.thr g.toNat).st = .faulted → Leads (.coreTcmdClear acc g) s fun t =>
    BecomesIdle s t g.toNat ∧ (t.thr g.toNat).tcmd = some s.cycle) ∧
  (∀ (acc : Acc) (g : Tid) (s : State), Open s acc → (s.thr g.toNat).st ≠ .faulted → exec (.coreTcmdClear acc g) s = .next
    (refusal s acc 0x60 (Reg.coreTcmd (coreOf g.toNat)).off)) ∧
  (∀ (g : Tid) (c : Nat) (s : State), (s.thr g.toNat).st = .ready → (s.thr g.toNat).next ≤ s.cycle → (s.thr g.toNat).stopReq =
    some c → c < s.cycle → Leads (.threadStopAtBoundary g) s fun t =>
      BecomesIdle s t g.toNat) ∧
  (∀ (g : Tid) (k c : Nat) (s : State), (s.thr g.toNat).st = .ready → (s.thr g.toNat).next ≤ s.cycle → (s.thr g.toNat).stopReq
    = none →
      (s.thr g.toNat).haltReq = some (k, c) → c < s.cycle → Leads (.threadStopAtBoundary g) s fun t => t =
    { s with threads := t.threads } ∧ OnlyAt g.toNat s.thr t.thr ∧
      (t.thr g.toNat).st = .halted ∧ (t.thr g.toNat).prior = .ready ∧ (t.thr g.toNat).cause = k ∧ (t.thr g.toNat).haltReq =
    none ∧ (t.thr g.toNat).pc = (s.thr g.toNat).pc) ∧
  (∀ (g : Tid) (s : State), s.stopDue g.toNat = false → Idle (.threadStopAtBoundary g) s)

/-- From the Camin port in REHEARSE and RUN: HALT of a READY thread is pending with CAUSE 1, of a WAITING, DOZING or FAULTED
one takes effect at once and records PRIOR; RESUME of a thread halted with CAUSE 1, 2, 3 or 5 returns it to PRIOR, to issue
after the next cycle at the earliest; STEP lets it issue once. Otherwise the command is refused. A breakpoint that an issue
would hit halts the thread with CAUSE 2, the instruction does not issue, and ACT 2 requests HOLD. A committed debug write of
an IDLE or HALTED thread's special register but PC is read back, with reserved bits 0, and is in force at once; other
commits are refused. Every other path is refused with OWNER_DENY. -/
def Obligations.DebugCommandsFollowTable118 : Prop :=
  (∀ (acc : Acc) (g : Tid) (s : State), Open s acc → acc.path ≠ .camin → exec (.debugHalt acc g) s = .next (refusal s acc 0x05
    (Reg.coreDbgcmd (coreOf g.toNat)).off)) ∧
  (∀ (acc : Acc) (g : Tid) (s : State), Open s acc → acc.path = .camin → s.active = false ∨ (s.thr g.toNat).st = .idle ∨
    (s.thr g.toNat).st = .halted →
      exec (.debugHalt acc g) s = .next (refusal s acc 0x60 (Reg.coreDbgcmd (coreOf g.toNat)).off)) ∧
  (∀ (acc : Acc) (g : Tid) (s : State), Open s acc → acc.path = .camin → s.active = true → (s.thr g.toNat).st = .waiting ∨
    (s.thr g.toNat).st = .dozing ∨ (s.thr g.toNat).st = .faulted →
      Leads (.debugHalt acc g) s fun t => t = { s with threads := t.threads } ∧ OnlyAt g.toNat s.thr t.thr ∧ (t.thr
    g.toNat).st = .halted ∧ (t.thr g.toNat).cause = 1 ∧
        (t.thr g.toNat).prior = (s.thr g.toNat).st ∧ (t.thr g.toNat).pc = (s.thr g.toNat).pc ∧ (t.thr g.toNat).doze = (s.thr
    g.toNat).doze) ∧
  (∀ (acc : Acc) (g : Tid) (s : State), Open s acc → acc.path = .camin → s.active = true → (s.thr g.toNat).st = .ready →
    (s.thr g.toNat).haltReq = none →
      Leads (.debugHalt acc g) s fun t => t = { s with threads := t.threads } ∧ OnlyAt g.toNat s.thr t.thr ∧ t.thr g.toNat =
    { s.thr g.toNat with haltReq := some (1, s.cycle) }) ∧
  (∀ (acc : Acc) (g : Tid) (s : State), Open s acc → acc.path ≠ .camin → exec (.debugResume acc g) s = .next (refusal s acc
    0x05 (Reg.coreDbgcmd (coreOf g.toNat)).off)) ∧
  (∀ (acc : Acc) (g : Tid) (s : State), Open s acc → acc.path = .camin → s.active = false ∨ (s.thr g.toNat).debugHalted =
    false → exec (.debugResume acc g) s = .next (refusal s acc 0x60 (Reg.coreDbgcmd (coreOf g.toNat)).off)) ∧
  (∀ (acc : Acc) (g : Tid) (s : State), Open s acc → acc.path = .camin → s.active = true → (s.thr g.toNat).debugHalted = true
    → (s.thr g.toNat).prior ≠ .dozing → Leads (.debugResume acc g) s fun t =>
      t = { s with threads := t.threads } ∧ OnlyAt g.toNat s.thr t.thr ∧ (t.thr g.toNat).st = (s.thr g.toNat).prior ∧ (t.thr
    g.toNat).cause = 0 ∧
      s.cycle + 2 ≤ (t.thr g.toNat).next ∧ (t.thr g.toNat).pc = (s.thr g.toNat).pc ∧ ((s.thr g.toNat).cause = 2 → (t.thr
    g.toNat).skipBp = true)) ∧
  (∀ (acc : Acc) (g : Tid) (s : State), Open s acc → acc.path ≠ .camin → exec (.debugStep acc g) s = .next (refusal s acc 0x05
    (Reg.coreDbgcmd (coreOf g.toNat)).off)) ∧
  (∀ (acc : Acc) (g : Tid) (s : State), Open s acc → acc.path = .camin → s.active = false ∨ (s.thr g.toNat).debugHalted =
    false ∨ ((s.thr g.toNat).prior ≠ .ready ∧ (s.thr g.toNat).prior ≠ .waiting) →
      exec (.debugStep acc g) s = .next (refusal s acc 0x60 (Reg.coreDbgcmd (coreOf g.toNat)).off)) ∧
  (∀ (acc : Acc) (g : Tid) (s : State), Open s acc → acc.path = .camin → s.active = true → (s.thr g.toNat).debugHalted = true
    → (s.thr g.toNat).prior = .ready ∨ (s.thr g.toNat).prior = .waiting →
      Leads (.debugStep acc g) s fun t => t = { s with threads := t.threads } ∧ OnlyAt g.toNat s.thr t.thr ∧ (t.thr
    g.toNat).st = .halted ∧ (t.thr g.toNat).step = true ∧
        (t.thr g.toNat).eff = (s.thr g.toNat).prior ∧ s.cycle + 2 ≤ (t.thr g.toNat).next) ∧
  (∀ (g : Tid) (b : Nat) (sp : Bool) (s : State), (s.thr g.toNat).div = none → s.issuer (coreOf g.toNat) = some (g.toNat, sp)
    → s.bpHit g.toNat = some b → Leads (.breakpointHit g) s fun t =>
      t = { s with threads := t.threads, cores := t.cores, regs := t.regs, holdReq := t.holdReq } ∧ OnlyAt g.toNat s.thr t.thr
    ∧
      (t.thr g.toNat).st = .halted ∧ (t.thr g.toNat).cause = 2 ∧ (t.thr g.toNat).bp = b ∧ (t.thr g.toNat).prior = .ready ∧
    (t.thr g.toNat).pc = (s.thr g.toNat).pc ∧
      (t.thr g.toNat).haltReq = none ∧ RegsBut [.coreEmpty (coreOf g.toNat)] s t ∧
      t.holdReq = (if s.rf (.coreBpc (coreOf g.toNat) b) 31 30 = 2 then some (.camin, s.cycle + 1) else s.holdReq)) ∧
  (∀ (g : Tid) (s : State), (s.thr g.toNat).div = none → s.bpHit g.toNat = none ∨ s.issuer (coreOf g.toNat) = none → Idle
    (.breakpointHit g) s) ∧
  (∀ (acc : Acc) (n : BitVec 5) (val : DWord) (s : State), Open s acc → acc.path ≠ .camin → Leads (.debugRegisterWrite acc n
    val) s fun t => t = { s with reports := t.reports }) ∧
  (∀ (acc : Acc) (n : BitVec 5) (val : DWord) (i g : Nat) (s : State), Open s acc → acc.path = .camin → i = s.rf (.coreDsr
    n.toNat) 7 0 → g = 16 * n.toNat + s.rf (.coreDsr n.toNat) 11 8 →
      i ≠ 0 → spWidth i ≠ none → spBad i val = false → (s.thr g).st = .idle ∨ (s.thr g).st = .halted → Leads
    (.debugRegisterWrite acc n val) s fun t =>
        t = { s with threads := t.threads, cores := t.cores, regs := t.regs, lags := t.lags } ∧ t.spRead g i = val &&& spMask
    i ∧
        RegsBut [.coreWin n.toNat (g % 16), .coreEvv n.toNat (g % 16), .coreTctl n.toNat (g % 16)] s t ∧ OnlyAt g s.thr t.thr
    ∧ (t.thr g).pc = (s.thr g).pc ∧
        (t.thr g).st = (s.thr g).st ∧ (i = 0x04 → t.tcbNow g = t.tcb g) ∧ (i = 0x02 → t.winNow g = lo32 val &&& 0x00FFFF00)) ∧
  (∀ (acc : Acc) (n : BitVec 5) (val : DWord) (i g : Nat) (s : State), Open s acc → acc.path = .camin → i = s.rf (.coreDsr
    n.toNat) 7 0 → g = 16 * n.toNat + s.rf (.coreDsr n.toNat) 11 8 →
      i = 0 ∨ spBad i val = true ∨ ((s.thr g).st ≠ .idle ∧ (s.thr g).st ≠ .halted) → Leads (.debugRegisterWrite acc n val) s
    fun t =>
        t = { s with cores := t.cores, reports := t.reports } ∧ (t.core n.toNat).dsrd = (val.setWidth 32).setWidth 64 ∧
        t.reports = s.reports ++ [⟨s.cycle + 1, 0x60, pathSkind acc.path, 0, BitVec.ofNat 32 (Reg.coreDsrd n.toNat 1).off, 0,
    false⟩])

/-- EVENT_ENTRY of a thread that its core issues and that has a pending enabled input with FLG.EE = 1: PC and FLG go to window
offsets 0x000 and 0x004, FLG.EE becomes 0, the PC is EVV + 0x20 times the input, ACLR clears the flag, and the thread is due
again in 2 cycles. A WAIT is left, a DOZE keeps its wake time for its second issue, a DIV in progress is abandoned with Q,
REM and the flags as they were. No other thread and nothing else changes. DOZE_WAKE makes a thread whose wake time has come
READY after its DOZE. -/
def Obligations.EventsEnterAtTheirVector : Prop :=
  (∀ (g : Tid) (j : Nat) (sp : Bool) (s : State), s.issuer (coreOf g.toNat) = some (g.toNat, sp) → s.eventNow g.toNat = some j
    → (s.thr g.toNat).div = none →
      s.badWrite (s.keysOf g.toNat 32 (.near 0)) = none → s.gleaner.ph ≠ .test → WindowFits s → Leads (.eventEntry g) s fun t
    =>
        t =
    { s with threads := t.threads, cores := t.cores, regs := t.regs, ram := t.ram, ecc := t.ecc, scrubs := t.scrubs, flags := t.flags }
    ∧
        OnlyAt g.toNat s.thr t.thr ∧ (t.thr g.toNat).st = (if (s.thr g.toNat).step then .halted else .ready) ∧ (t.thr
    g.toNat).waitOn = none ∧
        (t.thr g.toNat).flg = setBit (s.thr g.toNat).flg 8 false ∧ (t.thr g.toNat).pc = s.evvNow g.toNat + BitVec.ofNat 32
    (0x20 * j) ∧
        (t.thr g.toNat).p = (s.thr g.toNat).p ∧ (t.thr g.toNat).acc = (s.thr g.toNat).acc ∧ (t.thr g.toNat).next = s.cycle + 2
    ∧
        (s.det g.toNat = true → ofBytes ((s.keysOf g.toNat 32 (.near 0)).map t.byteAt) = (s.thr g.toNat).pc.toNat ∧
          ofBytes ((s.keysOf g.toNat 32 (.near 4)).map t.byteAt) = (s.thr g.toNat).flg.toNat) ∧
        (s.det g.toNat = false → (t.thr g.toNat).sb.length = (s.thr g.toNat).sb.length + 2) ∧
        (s.rb (thrReg .coreEvcfg g.toNat) (4 + j) = false → t.flags = s.flags)) ∧
  (∀ (g : Tid) (j : Nat) (d : DivPend) (sp : Bool) (s : State), s.issuer (coreOf g.toNat) = some (g.toNat, sp) → s.eventNow
    g.toNat = some j → (s.thr g.toNat).div = some d →
      s.cycle < d.doneAt → s.badWrite (s.keysOf g.toNat 32 (.near 0)) = none → Leads (.eventEntry g) s fun t => (t.thr
    g.toNat).div = none ∧
        (t.thr g.toNat).q = (s.thr g.toNat).q ∧ (t.thr g.toNat).rem = (s.thr g.toNat).rem ∧ (t.thr g.toNat).flg = setBit
    (s.thr g.toNat).flg 8 false) ∧
  (∀ (g : Tid) (s : State), (s.thr g.toNat).div = none → s.eventNow g.toNat = none ∨ (s.thr g.toNat).ee = false ∨ s.issuer
    (coreOf g.toNat) = none → Idle (.eventEntry g) s) ∧
  (∀ (g : Tid) (w : DWord) (nxt : Word) (s : State), (s.thr g.toNat).st = .dozing → (s.thr g.toNat).doze = .til w nxt →
    s.active = true → atOrAfter s.now w = true →
      Leads (.dozeWake g) s fun t => t = { s with threads := t.threads } ∧ OnlyAt g.toNat s.thr t.thr ∧ (t.thr g.toNat).st =
    .ready ∧ (t.thr g.toNat).doze = .none ∧
        (t.thr g.toNat).pc = (endCheck (fld (s.tcbNow g.toNat) 11 8) nxt [3, 2, 1, 0] (s.thr g.toNat)).pc) ∧
  (∀ (g : Tid) (s : State), (s.thr g.toNat).st ≠ .dozing ∨ (s.thr g.toNat).doze = .swath ∨ s.active = false → Idle (.dozeWake
    g) s) ∧
  (∀ (g : Tid) (w : DWord) (nxt : Word) (s : State), (s.thr g.toNat).doze = .til w nxt → atOrAfter s.now w = false → Idle
    (.dozeWake g) s)

/-- EVENT_FLAG_SET_HOST sets every flag of the mask, and EVENT_FLAG_CLEAR_HOST clears those that no agent sets in this cycle;
no other flag and nothing else changes. FORCE_CLOSE, from the Camin port and with the open message OPEN_HALTED or ABANDONED,
closes it as it stands, TRUNCATED, with all words kept; DISCARD removes it with its words; RESET in CONFIGURE removes every
message and reservation. Only that channel changes. FORCE_CLOSE and DISCARD by another path are refused with OWNER_DENY; a
requirement not met, or a channel that the unit does not have, with CFG_REJECT. -/
def Obligations.HostFlagAndChannelCommandsAct : Prop :=
  (∀ (acc : Acc) (c : BitVec 3) (w : BitVec 3) (mask : Word) (c' i : Nat) (s : State), Open s acc → Leads (.eventFlagSetHost
    acc c w mask) s fun t => t = { s with flags := t.flags } ∧
      (i < 256 → t.flagSet c' i = (s.flagSet c' i || (c' == c.toNat && i / 32 == w.toNat && bit mask (i % 32))))) ∧
  (∀ (acc : Acc) (c : BitVec 3) (w : BitVec 3) (mask : Word) (c' i : Nat) (s : State), Open s acc → Leads (.eventFlagClearHost
    acc c w mask) s fun t => t = { s with flags := t.flags } ∧
      (i < 256 → t.flagSet c' i = (s.flagSet c' i && !(c' == c.toNat && i / 32 == w.toNat && bit mask (i % 32) && (s.flag c'
    i).last != s.cycle + 1)))) ∧
  (∀ (acc : Acc) (u : LockUnit) (ch : BitVec 7) (k : Nat) (s : State), Open s acc → acc.path = .camin → chanListed u ch.toNat
    = true → k = chanIndex u ch.toNat → s.ostate (s.chan k) = 2 ∨ s.ostate (s.chan k) = 3 →
      Leads (.forceClose acc u ch) s fun t => t = { s with chans := t.chans } ∧ OnlyAt k s.chan t.chan ∧ (t.chan k).words =
    (s.chan k).words ∧ t.ostate (t.chan k) = 0 ∧
        (t.chan k).msgs.map Msg.len = (s.chan k).msgs.map Msg.len ∧ (t.chan k).msgs.dropLast = (s.chan k).msgs.dropLast ∧
    (t.chan k).res = (s.chan k).res ∧
        (t.chan k).msgs.getLast?.map Msg.trunc = some true ∧ (t.chan k).msgs.getLast?.map Msg.closed = some true) ∧
  (∀ (acc : Acc) (u : LockUnit) (ch : BitVec 7) (k : Nat) (s : State), Open s acc → acc.path = .camin → chanListed u ch.toNat
    = true → k = chanIndex u ch.toNat → s.ostate (s.chan k) = 2 ∨ s.ostate (s.chan k) = 3 →
      Leads (.discard acc u ch) s fun t => t = { s with chans := t.chans } ∧ OnlyAt k s.chan t.chan ∧ (t.chan k).msgs =
    (s.chan k).msgs.dropLast ∧
        (t.chan k).words = (s.chan k).words.take (t.chan k).used ∧ (t.chan k).res = (s.chan k).res) ∧
  (∀ (acc : Acc) (u : LockUnit) (ch : BitVec 7) (k : Nat) (s : State), Open s acc → s.mode = .configure → chanListed u
    ch.toNat = true → k = chanIndex u ch.toNat →
      Leads (.channelReset acc u ch) s fun t => t = { s with chans := t.chans } ∧ OnlyAt k s.chan t.chan ∧ (t.chan k).msgs =
    [] ∧ (t.chan k).res = none ∧ (t.chan k).used = 0) ∧
  (∀ (acc : Acc) (u : LockUnit) (ch : BitVec 7) (s : State), Open s acc → acc.path ≠ .camin → exec (.forceClose acc u ch) s =
    .next (refusal s acc 0x05 (chanReg u).off)) ∧
  (∀ (acc : Acc) (u : LockUnit) (ch : BitVec 7) (s : State), Open s acc → acc.path ≠ .camin → exec (.discard acc u ch) s =
    .next (refusal s acc 0x05 (chanReg u).off)) ∧
  (∀ (acc : Acc) (u : LockUnit) (ch : BitVec 7) (s : State), Open s acc → acc.path = .camin → chanListed u ch.toNat = false ∨
    (s.ostate (s.chan (chanIndex u ch.toNat)) ≠ 2 ∧ s.ostate (s.chan (chanIndex u ch.toNat)) ≠ 3) →
      exec (.forceClose acc u ch) s = .next (refusal s acc 0x60 (chanReg u).off)) ∧
  (∀ (acc : Acc) (u : LockUnit) (ch : BitVec 7) (s : State), Open s acc → acc.path = .camin → chanListed u ch.toNat = false ∨
    (s.ostate (s.chan (chanIndex u ch.toNat)) ≠ 2 ∧ s.ostate (s.chan (chanIndex u ch.toNat)) ≠ 3) →
      exec (.discard acc u ch) s = .next (refusal s acc 0x60 (chanReg u).off)) ∧
  (∀ (acc : Acc) (u : LockUnit) (ch : BitVec 7) (s : State), Open s acc → chanListed u ch.toNat = false ∨ s.mode ≠ .configure
    → exec (.channelReset acc u ch) s = .next (refusal s acc 0x60 (chanReg u).off))

/-- DEADLOCK on a set whose rule holds in REHEARSE or RUN and that is not yet reported: GLK_DLCNT counts, the report with the
source and the participant count goes to the fault unit, GLK_DLSTAT and GLK_DLMAP take the set unless a record is valid, and
the set counts as reported. A set already reported, or a cluster whose live threads are a reported wait group, changes
nothing; a set whose rule does not hold may be reported anew. Then at least one thread waits, every thread of the set is
WAITING, and none of them is removed or changed. -/
def Obligations.DeadlocksAreReportedOnce : Prop :=
  (∀ (set : DlSet) (s : State), s.deadlocked set = true → s.dlDone.contains (dlIdx set) = false → s.dlTwin set = false → Leads
    (.deadlock set) s fun t =>
      t = { s with regs := t.regs, reports := t.reports, dlDone := t.dlDone } ∧ t.dlDone = s.dlDone ++ [dlIdx set] ∧
      t.reg .glkDlcnt = satAdd (s.reg .glkDlcnt) 1 ∧ t.rb .glkDlstat 31 = true ∧
      (s.rb .glkDlstat 31 = true → t.reg .glkDlstat = s.reg .glkDlstat) ∧
      (s.rb .glkDlstat 31 = false → s.dlSet set ≠ [] ∧ t.rf .glkDlstat 9 0 = (s.dlSet set).length ∧ ∀ g, g < 512 → (t.rb
    (.glkDlmap (g / 32)) (g % 32) = true ↔ g ∈ s.dlSet set)) ∧
      t.reports = s.reports ++ [⟨s.cycle + 1, 0x20, 9, (match set with | .cluster c => c.toNat | .group g => 0x10 + g.toNat),
    BitVec.ofNat 32 (s.dlSet set).length, 0, false⟩] ∧
      (∀ g ∈ s.dlSet set, (s.thr g).st = .waiting) ∧ RegsBut ([.glkDlcnt, .glkDlstat] ++ (upto 16).map .glkDlmap) s t) ∧
  (∀ (set : DlSet) (s : State), s.deadlocked set = true → s.dlDone.contains (dlIdx set) = true ∨ s.dlTwin set = true → Idle
    (.deadlock set) s) ∧
  (∀ (set : DlSet) (s : State), s.deadlocked set = false → Leads (.deadlock set) s fun t => t = { s with dlDone := t.dlDone }
    ∧ dlIdx set ∉ t.dlDone)

/-- POSTED_WRITE_PERFORM performs the posted writes of the core that are due; their bytes read as written, all others as
before, and the others stay posted. STORE_BUFFER_DRAIN takes the oldest store: a near one is written, another is posted with
all its cells, ready now, unless its sheaf generation has aborted, when it goes nowhere. ICACHE_FILL brings the awaited
line: the core then serves its 64 bytes of chip memory. A scrub write clears the mark of the oldest corrected granule and
changes no data. None of them touches another thread, register or unit, and with nothing to do nothing changes. -/
def Obligations.StoresReachMemoryInOrder : Prop :=
  (∀ (n : BitVec 5) (s : State), s.posted.all (fun w => w.core != n.toNat || decide (s.cycle < w.perf)) = true → Idle
    (.postedWritePerform n) s) ∧
  (∀ (n : BitVec 5) (s : State), WindowFits s → Leads (.postedWritePerform n) s fun t =>
      t = { s with posted := t.posted, ram := t.ram, ecc := t.ecc, scrubs := t.scrubs, gleaner := t.gleaner, regs := t.regs }
    ∧
      t.posted = s.posted.filter (fun w => w.core != n.toNat || decide (s.cycle < w.perf)) ∧
      ∀ k, k < 0x1010000 → s.posted.all (fun w => (w.core != n.toNat || decide (s.cycle < w.perf)) || w.cells.all fun c => c.1
    != k) = true → t.byteAt k = s.byteAt k) ∧
  (∀ (n : BitVec 5) (w : Posted) (c : Nat × Byte) (s : State), WindowFits s → w ∈ s.posted → w.core = n.toNat → w.perf ≤
    s.cycle → c ∈ w.cells → c.1 < 0x1010000 →
      (s.posted.filter fun v => (v.core == n.toNat && decide (v.perf ≤ s.cycle)) && v.cells.any fun d => d.1 == c.1) = [w] →
    (w.cells.filter fun d => d.1 == c.1) = [c] →
      Leads (.postedWritePerform n) s fun t => t.byteAt c.1 = c.2) ∧
  (∀ (g : Tid) (s : State), (s.thr g.toNat).sb = [] ∨ s.mode = .retain ∨ s.mode = .off → Idle (.storeBufferDrain g) s) ∧
  (∀ (g : Tid) (e : StoreEnt) (r : List StoreEnt) (s : State), (s.thr g.toNat).sb = e :: r → e.space = 0 → s.mode ≠ .retain →
    s.mode ≠ .off → WindowFits s → Leads (.storeBufferDrain g) s fun t =>
      t = { s with threads := t.threads, ram := t.ram, ecc := t.ecc, scrubs := t.scrubs, gleaner := t.gleaner, regs := t.regs }
    ∧ OnlyAt g.toNat s.thr t.thr ∧
      t.thr g.toNat = { s.thr g.toNat with sb := r } ∧ (∀ k, k < 0x1010000 → k ∉ e.cells.map Prod.fst → t.byteAt k = s.byteAt
    k) ∧
      ∀ c ∈ e.cells, c.1 < 0x1010000 → (e.cells.filter fun d => d.1 == c.1) = [c] → t.byteAt c.1 = c.2) ∧
  (∀ (g : Tid) (e : StoreEnt) (r : List StoreEnt) (s : State), (s.thr g.toNat).sb = e :: r → e.space ≠ 0 → s.mode ≠ .retain →
    s.mode ≠ .off → Leads (.storeBufferDrain g) s fun t =>
      t = { s with threads := t.threads, posted := t.posted } ∧ OnlyAt g.toNat s.thr t.thr ∧ t.thr g.toNat =
    { s.thr g.toNat with sb := r } ∧
      t.posted.take s.posted.length = s.posted ∧ ((t.posted.drop s.posted.length).flatMap Posted.cells) = (if s.genTakes e.gen
    then e.cells else []) ∧
      (t.posted.drop s.posted.length).all (fun w => w.core == coreOf g.toNat && w.thr == g.toNat && w.ready == s.cycle &&
    decide (s.cycle ≤ w.perf)) = true) ∧
  (∀ (g : Tid) (s : State), s.active = false ∨ s.awaited g.toNat = none → Idle (.icacheFill g) s) ∧
  (∀ (g : Tid) (l i : Nat) (s : State), s.active = true → s.awaited g.toNat = some l → l < 2 ^ 26 → i < 64 → Leads
    (.icacheFill g) s fun t =>
      t = { s with threads := t.threads, cores := t.cores, ram := t.ram } ∧ OnlyAt g.toNat s.thr t.thr ∧ t.thr g.toNat =
    { s.thr g.toNat with miss := none } ∧
      OnlyAt (coreOf g.toNat) s.core t.core ∧ t.icByte g.toNat (64 * l + i) = s.chipByte (64 * l + i) ∧ (t.cached g.toNat
    l).isSome = true ∧
      ∀ k, k < 0x500000 ∨ 0x580000 ≤ k → t.cell k = s.cell k) ∧
  (∀ (g : Tid) (l : Nat) (s : State), s.active = true → s.awaited g.toNat = some l → 2 ^ 26 ≤ l → Leads (.icacheFill g) s fun
    t =>
      t = { s with threads := t.threads, cores := t.cores } ∧ t.thr g.toNat = { s.thr g.toNat with miss := none } ∧ (t.cached
    g.toNat (l - 2 ^ 26)).isSome = true) ∧
  (∀ (s : State), s.scrubs = [] ∨ s.mode = .off ∨ s.mode = .retain → Idle (.scrubWrite) s) ∧
  (∀ (k : Nat) (r : List Nat) (s : State), s.scrubs = k :: r → s.mode ≠ .off → s.mode ≠ .retain → Leads (.scrubWrite) s fun t
    => t = { s with scrubs := r, ecc := t.ecc } ∧
      t.mark k = (if s.mark k = .fixable then .clean else s.mark k) ∧ OnlyAt k s.mark t.mark)

/-- GLEANER_COPY puts the window into the shadow, unless an uncorrectable error ends it untested with ECC_UE; GLEANER_TEST of
a copied window serves it from the shadow; GLEANER_RESTORE writes it back with fresh check bits and goes on to the next
window, or, where an access ended the test, waits 1,024 cycles for GLEANER_RETRY, which copies anew. A bit that fails is
reported with GLEAN_FAIL, fills CPX_GFAIL unless it is valid, and the window is restored. Through all of them every byte of
every RAM reads as before. In a mode in which the Gleaner does not run, or out of turn, they change nothing. -/
def Obligations.TheGleanerLeavesContentsAlone : Prop :=
  (∀ (k : Nat) (s : State), s.gleanRuns = true → s.gleaner.ph = .idle → WindowFits s → k < 0x1000000 → Leads (.gleanerCopy) s
    fun t => t.byteAt k = s.byteAt k ∧
      (t.gleaner.ph = .copy ∨ t.gleaner.ph = .idle) ∧ (t.gleaner.ph = .copy → ∀ i, i < 256 → t.cell (gshadowKey i) = t.cell
    (t.gleanBase + i)) ∧
      t.threads = s.threads ∧ t.locks = s.locks ∧ t.psqs = s.psqs ∧ t.commons = s.commons ∧
      (s.gleanEn s.gleaner.reg = true → s.badGran s.gleanBase 256 = none → t.gleaner =
    { s.gleaner with ph := .copy, yielded := false } ∧ t.reports = s.reports) ∧
      (s.gleanEn s.gleaner.reg = true → s.badGran s.gleanBase 256 ≠ none → t.gleaner.ph = .idle ∧ t.rb .cpxUerec 31 = true ∧
    t.reports.getLast?.map Report.code = some 0x41)) ∧
  (∀ (s : State), s.gleanRuns = false ∨ s.gleaner.ph ≠ .idle ∨ (∀ r, r < 7 → s.gleanEn r = false) → Idle (.gleanerCopy) s) ∧
  (∀ (bad : Option BadBit) (k : Nat) (s : State), s.gleanRuns = true → s.gleaner.ph = .copy → (∀ i, i < 256 → s.cell
    (gshadowKey i) = s.cell (s.gleanBase + i)) → s.rb .cpxEinj 31 = false →
      k < 0x1000000 → Leads (.gleanerTest bad) s fun t => t =
    { s with gleaner := t.gleaner, regs := t.regs, reports := t.reports } ∧ t.byteAt k = s.byteAt k ∧ RegsBut [.cpxGfail] s t
    ∧
        (bad = none → t.gleaner.ph = .test ∧ t.reports = s.reports) ∧
        (bad ≠ none → t.gleaner.ph = .restore ∧ t.reports.length = s.reports.length + 1 ∧ t.reports.getLast?.map Report.code =
    some 0x42 ∧
          t.rb .cpxGfail 31 = true ∧ (s.rb .cpxGfail 31 = true → t.reg .cpxGfail = s.reg .cpxGfail))) ∧
  (∀ (bad : Option BadBit) (s : State), s.gleanRuns = false ∨ s.gleaner.ph ≠ .copy → Idle (.gleanerTest bad) s) ∧
  (∀ (k : Nat) (s : State), s.gleaner.ph = .test ∨ s.gleaner.ph = .restore → s.mode ≠ .off → s.mode ≠ .retain → WindowFits s →
    k < 0x1000000 → Leads (.gleanerRestore) s fun t =>
      t.byteAt k = s.byteAt k ∧ (s.inWindow k = true → t.mark (granOf k) = .clean) ∧ (s.inWindow (granOf k) = false → t.mark
    (granOf k) = s.mark (granOf k)) ∧
      t = { s with gleaner := t.gleaner, regs := t.regs, ram := t.ram, ecc := t.ecc, scrubs := t.scrubs } ∧ RegsBut
    [.cpxGstat] s t ∧
      (s.gleaner.yielded = true → s.mode ≠ .hold → t.gleaner =
    { s.gleaner with ph := .wait, retry := s.cycle + 1024, yielded := false }) ∧
      (s.gleaner.yielded = false → t.gleaner.ph = .idle ∧ (s.gleanEn s.gleaner.reg = true → s.gleaner.win + 1 < (regionSpan
    s.gleaner.reg).2 / 256 →
        t.gleaner.reg = s.gleaner.reg ∧ t.gleaner.win = s.gleaner.win + 1))) ∧
  (∀ (s : State), (s.gleaner.ph ≠ .test ∧ s.gleaner.ph ≠ .restore) ∨ s.mode = .off ∨ s.mode = .retain → Idle (.gleanerRestore)
    s) ∧
  (∀ (s : State), s.gleanRuns = true → s.gleaner.ph = .wait → s.gleaner.retry ≤ s.cycle → exec (.gleanerRetry) s = exec
    .gleanerCopy { s with gleaner := { s.gleaner with ph := .idle } }) ∧
  (∀ (s : State), s.gleanRuns = true → s.gleaner.ph = .wait → s.gleaner.retry ≤ s.cycle → s.gleanEn s.gleaner.reg = true →
    s.badGran s.gleanBase 256 = none →
      Leads (.gleanerRetry) s fun t => t.gleaner = { s.gleaner with ph := .copy, yielded := false }) ∧
  (∀ (s : State), s.gleanRuns = false ∨ s.gleaner.ph ≠ .wait ∨ s.cycle < s.gleaner.retry → Idle (.gleanerRetry) s)

/-- MOVER_FLAG_START with EN = 1, TRIG = 0b01 and SFLAG set in REHEARSE and RUN starts an idle mover at MDESC, sets BUSY and
clears the flag; a start while BUSY only counts in LOST; a reserved encoding in MCTL or MDESC stops it with CFG_REJECT and
the offset of the word. MOVER_DESCRIPTOR_DONE copies LEN bytes between disjoint ranges inside their spaces, leaves every
other byte, and takes the next descriptor or ends the chain; a reserved descriptor gives CFG_REJECT and a byte outside its
space gives SPACE. MOVER_CHAIN_COMPLETE counts in MDONE, clears BUSY and sets DFLAG with SETEN = 1. Otherwise they change
nothing. -/
def Obligations.MoversCopyTheirDescriptors : Prop :=
  (∀ (m : BitVec 5) (w : Word) (s : State), w = s.mctl m.toNat → s.active = false ∨ bit w 31 = false ∨ fld w 30 29 ≠ 1 ∨
    s.flagNow (moverCl m.toNat) (fld w 7 0) = false → Idle (.moverFlagStart m) s) ∧
  (∀ (m : BitVec 5) (w d : Word) (s : State), w = s.mctl m.toNat → d = s.moverWord m.toNat (moverBlk m.toNat 1) → s.active =
    true → bit w 31 = true → fld w 30 29 = 1 →
      s.flagNow (moverCl m.toNat) (fld w 7 0) = true → ControlClean s m.toNat → WindowFits s → Leads (.moverFlagStart m) s fun
    t => MoverFrame s t m.toNat ∧
      t.flagSet (moverCl m.toNat) (fld w 7 0) = ((s.flag (moverCl m.toNat) (fld w 7 0)).last == s.cycle + 1) ∧
      (∀ k, k < 0x1010000 → ¬ InControl m.toNat 2 k → t.byteAt k = s.byteAt k) ∧
      (if (s.mover m.toNat).on = true then t.movers = s.movers ∧ t.reports = s.reports ∧
          fld (t.moverWord m.toNat (moverBlk m.toNat 2)) 15 8 = min 255 (fld (s.moverWord m.toNat (moverBlk m.toNat 2)) 15 8 +
    1)
        else if mctlBad w = true ∨ mdescBad d = true then (t.mover m.toNat).on = false ∧ MoverStopped s t m.toNat 0x60
    (BitVec.ofNat 32 (moverBlk m.toNat (if mctlBad w = true then 0 else 1)))
        else (t.mover m.toNat).on = true ∧ (t.mover m.toNat).last = false ∧ (t.mover m.toNat).desc = fld d 18 0 ∧ t.reports =
    s.reports ∧
          bit (t.moverWord m.toNat (moverBlk m.toNat 2)) 31 = true ∧ fld (t.moverWord m.toNat (moverBlk m.toNat 2)) 15 8 = fld
    (s.moverWord m.toNat (moverBlk m.toNat 2)) 15 8)) ∧
  (∀ (m : BitVec 5) (s : State), (s.mover m.toNat).on = false ∨ (s.mover m.toNat).last = true ∨ (s.mover m.toNat).held = true
    ∨ s.moverRuns = false → Idle (.moverDescriptorDone m) s) ∧
  (∀ (m : BitVec 5) (k n ssp dsp src dst : Nat) (w0 w3 : Word) (s : State), MoverAt s m.toNat k w0 w3 ssp dsp src dst n →
    descBad w0 w3 = none → ssp ≠ 0 → dsp ≠ 0 →
      src + n ≤ spaceSize ssp → dst + n ≤ spaceSize dsp → (∀ k, s.mark k = .clean) → s.gleaner.ph ≠ .test → s.rb .cpxEinj 31 =
    false → WindowFits s →
      (∀ i j, i < n → j < n → s.spaceKey (moverCl m.toNat) ssp (src + i) ≠ s.spaceKey (moverCl m.toNat) dsp (dst + j)) → Leads
    (.moverDescriptorDone m) s fun t =>
        (∀ i, i < n → t.byteAt (s.spaceKey (moverCl m.toNat) dsp (dst + i)) = s.byteAt (s.spaceKey (moverCl m.toNat) ssp (src
    + i))) ∧
        (∀ k, k < 0x1010000 → (∀ i, i < n → k ≠ s.spaceKey (moverCl m.toNat) dsp (dst + i)) → t.byteAt k = s.byteAt k) ∧
        t.mover m.toNat =
    { s.mover m.toNat with last := bit w3 31, desc := if bit w3 31 then k else fld w0 18 0, held := s.mode == .hold } ∧
        t = { s with movers := t.movers, ram := t.ram, ecc := t.ecc, scrubs := t.scrubs } ∧ OnlyAt m.toNat s.mover t.mover) ∧
  (∀ (m : BitVec 5) (k n ssp dsp src dst q : Nat) (w0 w3 : Word) (s : State), MoverAt s m.toNat k w0 w3 ssp dsp src dst n →
    descBad w0 w3 = some q → s.badGran (sharedKey (moverCl m.toNat) k) 16 = none →
      ControlClean s m.toNat → WindowFits s → Leads (.moverDescriptorDone m) s fun t => MoverFrame s t m.toNat ∧ (t.mover
    m.toNat).on = false ∧ MoverStopped s t m.toNat 0x60 (BitVec.ofNat 32 (k + 4 * q)) ∧
        (∀ k, k < 0x1010000 → ¬ InControl m.toNat 2 k → t.byteAt k = s.byteAt k)) ∧
  (∀ (m : BitVec 5) (k n ssp dsp src dst : Nat) (w0 w3 : Word) (s : State), MoverAt s m.toNat k w0 w3 ssp dsp src dst n →
    descBad w0 w3 = none →
      spaceSize ssp ≤ src ∨ spaceSize dsp ≤ dst → s.badGran (sharedKey (moverCl m.toNat) k) 16 = none → ControlClean s m.toNat
    → WindowFits s → Leads (.moverDescriptorDone m) s fun t =>
        (t.mover m.toNat).on = false ∧ MoverStopped s t m.toNat 0x04 (BitVec.ofNat 32 k) ∧ (∀ k, k < 0x1010000 → ¬ InControl
    m.toNat 2 k → t.byteAt k = s.byteAt k)) ∧
  (∀ (m : BitVec 5) (s : State), (s.mover m.toNat).on = false ∨ (s.mover m.toNat).last = false ∨ s.moverRuns = false → Idle
    (.moverChainComplete m) s) ∧
  (∀ (m : BitVec 5) (s : State), (s.mover m.toNat).on = true → (s.mover m.toNat).last = true → s.moverRuns = true → WindowFits
    s → Leads (.moverChainComplete m) s fun t => MoverFrame s t m.toNat ∧
      t.reports = s.reports ∧ (t.mover m.toNat).on = false ∧ (t.mover m.toNat).fin = true ∧ bit (t.moverWord m.toNat (moverBlk
    m.toNat 2)) 31 = false ∧
      t.moverWord m.toNat (moverBlk m.toNat 3) = s.moverWord m.toNat (moverBlk m.toNat 3) + 1 ∧
      (bit (s.mctl m.toNat) 24 = true → t.flagSet (moverCl m.toNat) (fld (s.mctl m.toNat) 23 16) = true) ∧ (bit (s.mctl
    m.toNat) 24 = false → t.flags = s.flags) ∧
      (∀ k, k < 0x1010000 → ¬ InControl m.toNat 2 k → ¬ InControl m.toNat 3 k → t.byteAt k = s.byteAt k))

/-- The commit decision at a boundary with one context due, for every state. If its generation is COMPLETE and unmarked in
REHEARSE or RUN: every line that it holds, claimed or in the side store, then reads as the generation's version, and every
other line as before; the context is FREE and holds nothing; in RUN its held actions go to the commit in progress, in
REHEARSE they are discarded and counted. If it is OPEN, ABORTED, marked, or the complex is in HOLD, every live byte reads as
before and the context is FREE and holds nothing. Lines are held once, as every claim makes them; the generation's posted
writes are performed. COMMIT_COMPLETE of the oldest commit that began earlier delivers its actions and writes the fast
status page. -/
def Obligations.SheavesCommitWholeOrNotAtAll : Prop :=
  (∀ (s : State) (d x line a : Nat) (num : Word), s.dueCtxs d = [x] → (s.ctx x).st = .complete → (s.ctx x).reh = false →
    s.active = true → HeldOnce s → WindowFits s →
      s.posted.all (fun w => w.gen != some (x, (s.ctx x).uid)) = true → a < 0x200000 → line = a / 64 →
      (s.commitDecision d num).byteAt ((s.commitDecision d num).liveKey a) = (if s.holds x line = true then s.byteAt (s.ctxKey
    x a) else s.byteAt (s.liveKey a)) ∧
      ((s.commitDecision d num).ctx x).st = .free ∧ (s.commitDecision d num).holds x line = false ∧
      (s.mode = .run → (s.commitDecision d num).commits = s.commits ++ [⟨s.cycle, some (d, num), (s.ctx x).held, true⟩]) ∧
      (s.mode = .rehearse → (s.commitDecision d num).reg (.shfCnt 5) = satAdd (s.reg (.shfCnt 5)) (s.ctx x).held.length) ∧
      (s.commitDecision d num).reg (.shfCnt 0) = satAdd (s.reg (.shfCnt 0)) 1) ∧
  (∀ (s : State) (d x line a : Nat) (num : Word), s.dueCtxs d = [x] → (s.ctx x).st ≠ .complete ∨ (s.ctx x).reh = true ∨ s.mode
    = .hold → a < 0x200000 → line = a / 64 →
      (s.commitDecision d num).byteAt ((s.commitDecision d num).liveKey a) = s.byteAt (s.liveKey a) ∧ ((s.commitDecision d
    num).ctx x).st = .free ∧
      ((s.ctx x).st = .aborted → s.holds x line = false → (s.commitDecision d num).holds x line = false) ∧ ((s.ctx x).st ≠
    .aborted → (s.commitDecision d num).holds x line = false) ∧
      (s.commitDecision d num).reg (.fastLast d) = s.reg (.fastLast d)) ∧
  (∀ (s : State), s.commits = [] ∨ s.mode = .off ∨ (s.commits.all fun c => decide (s.cycle ≤ c.start)) = true → Idle
    (.commitComplete) s) ∧
  (∀ (c : Commit) (r : List Commit) (s : State), s.commits = c :: r → c.start < s.cycle → s.mode ≠ .off → c.held = [] → Leads
    (.commitComplete) s fun t =>
      t = { s with commits := r, regs := t.regs } ∧ RegsBut ([.shfWsweep] ++ (upto 4).map .fastLast ++ [.shfCnt 5]) s t ∧
    c.page.all (fun e => t.reg (.fastLast e.1) == e.2) = true ∧
      t.rf .shfWsweep 7 0 = max (s.rf .shfWsweep 7 0) (min (s.cycle - c.start) 150)) ∧
  (∀ (c : Commit) (r : List Commit) (q : Nat) (act : DWord) (s : State), s.commits = c :: r → c.start < s.cycle → s.mode ≠
    .off → c.held = [(q, act)] → c.deliver = true →
      reached s.now32 (actTime act) = false → Leads (.commitComplete) s fun t => t =
    { s with commits := r, regs := t.regs, psqs := t.psqs } ∧ OnlyAt q s.psq t.psq ∧
        t.psq q = { s.psq q with fifo := (s.psq q).fifo ++ [act], rsvd := (s.psq q).rsvd - 1 }) ∧
  (∀ (c : Commit) (r : List Commit) (q : Nat) (act : DWord) (s : State), s.commits = c :: r → c.start < s.cycle → s.mode ≠
    .off → c.held = [(q, act)] → c.deliver = false → Leads (.commitComplete) s fun t =>
      t = { s with commits := r, regs := t.regs, psqs := t.psqs } ∧ t.psq q = { s.psq q with rsvd := (s.psq q).rsvd - 1 } ∧
    t.reg (.shfCnt 5) = satAdd (s.reg (.shfCnt 5)) 1)

/-- DOZE_ENTER puts a core that may leave RUN into the deepest state whose wake delay plus 1,600 units fits before its next
known event and that its caps allow; WAKE_START of a dozing core that a known event or another cause calls sets the end of
its wake; WAKE_COMPLETE at that end returns it to RUN; no thread, memory or other core changes. A SUPPLY_SAMPLE of an
enabled monitor shows the sample and its extremes, and the Nth sample in a row outside the window sets OUT and reports
SUPPLY; one of an absent monitor faults. A tamper input or lifecycle change starts a wipe; its end makes every byte of
secure RAM 0, leaves every other byte, and reports TAMPER_WIPE in every mode but OFF. -/
def Obligations.PowerSupplyAndWipeEventsAct : Prop :=
  (∀ (n : BitVec 5) (s : State), (s.core n.toNat).dz = 0 → s.mayDoze n.toNat = true → s.dozeChoice n.toNat ≠ 0 → Leads
    (.dozeEnter n) s fun t => t = { s with cores := t.cores } ∧ OnlyAt n.toNat s.core t.core ∧
      t.core n.toNat = { s.core n.toNat with dz := (t.core n.toNat).dz, wakeAt := none, slow := false, delayed := [] } ∧
      (t.core n.toNat).dz ≤ s.rf (.pwrDzcfg n.toNat) 1 0 ∧ s.wakeDelay (t.core n.toNat).dz + 1600 ≤ s.horizon n.toNat ∧
      (s.gateCap n.toNat = true → (t.core n.toNat).dz ≤ 1) ∧
      (∀ st, st ≤ 3 → (t.core n.toNat).dz < st → s.rf (.pwrDzcfg n.toNat) 1 0 < st ∨ s.horizon n.toNat < s.wakeDelay st + 1600
    ∨ (s.gateCap n.toNat = true ∧ 1 < st))) ∧
  (∀ (n : BitVec 5) (s : State), (s.core n.toNat).dz ≠ 0 ∨ s.mayDoze n.toNat = false ∨ s.dozeChoice n.toNat = 0 → Idle
    (.dozeEnter n) s) ∧
  (∀ (n : BitVec 5) (s : State), s.wakeDue n.toNat = true → Leads (.wakeStart n) s fun t => t = { s with cores := t.cores } ∧
    OnlyAt n.toNat s.core t.core ∧
      t.core n.toNat = { s.core n.toNat with wakeAt := (t.core n.toNat).wakeAt, slow := (t.core n.toNat).slow } ∧ (t.core
    n.toNat).wakeAt.isSome = true ∧
      ((s.core n.toNat).dz ≠ 1 → (t.core n.toNat).wakeAt = some (s.now.toNat + s.wakeDelay (s.core n.toNat).dz))) ∧
  (∀ (n : BitVec 5) (s : State), s.wakeDue n.toNat = false → Idle (.wakeStart n) s) ∧
  (∀ (n : BitVec 5) (s : State), (s.core n.toNat).dz ≠ 0 → s.wakeDone n.toNat = true → Leads (.wakeComplete n) s fun t => t =
    { s with cores := t.cores } ∧ OnlyAt n.toNat s.core t.core ∧
      (t.core n.toNat).dz = 0 ∧ (t.core n.toNat).wakeAt = none ∧ (t.core n.toNat).rptr = (s.core n.toNat).rptr ∧
      ((s.core n.toNat).dz = 3 → (t.core n.toNat).cache = [] ∧ (t.core n.toNat).btb = []) ∧ ((s.core n.toNat).dz ≠ 3 → (t.core
    n.toNat).cache = (s.core n.toNat).cache)) ∧
  (∀ (n : BitVec 5) (s : State), (s.core n.toNat).dz = 0 ∨ s.wakeDone n.toNat = false → Idle (.wakeComplete n) s) ∧
  (∀ (r : BitVec 4) (mv : Half) (s : State), 10 ≤ r.toNat → exec (.supplySample r mv) s = .fault .noSuchMonitor) ∧
  (∀ (r : BitVec 4) (mv : Half) (s : State), r.toNat < 10 → s.mode = .off ∨ (s.mode = .retain ∧ r.toNat ≠ 1) ∨ s.rb (.pwrSmcfg
    r.toNat) 31 = false → Idle (.supplySample r mv) s) ∧
  (∀ (r : BitVec 4) (mv : Half) (s : State), r.toNat < 10 → s.mode ≠ .off → s.mode ≠ .retain ∨ r.toNat = 1 → s.rb (.pwrSmcfg
    r.toNat) 31 = true → Leads (.supplySample r mv) s fun t =>
      t = { s with regs := t.regs, supply := t.supply, reports := t.reports } ∧ RegsBut [.pwrSmval r.toNat, .pwrSmext r.toNat]
    s t ∧ OnlyAt r.toNat s.sup t.sup ∧
      t.rf (.pwrSmval r.toNat) 15 0 = mv.toNat ∧ t.rf (.pwrSmext r.toNat) 31 16 = max (s.rf (.pwrSmext r.toNat) 31 16)
    mv.toNat ∧
      t.rf (.pwrSmext r.toNat) 15 0 = min (s.rf (.pwrSmext r.toNat) 15 0) mv.toNat ∧
      (s.rb (.pwrSmval r.toNat) 31 = false → s.outOfWindow r.toNat mv.toNat = true → s.rf (.pwrSmcfg r.toNat) 27 26 ≤ (s.sup
    r.toNat).bad + 1 →
        t.rb (.pwrSmval r.toNat) 31 = true ∧ t.reports = s.reports ++ [⟨s.cycle + 1, 0x70, 11, r.toNat, BitVec.ofNat 32 (b2n
    (t.rb (.pwrSmval r.toNat) 30) * 65536 + mv.toNat), 0, false⟩] ∧
        t.rb (.pwrSmval r.toNat) 30 = (s.mode != .retain && decide (s.rf (.pwrSmthr r.toNat) 31 16 < mv.toNat))) ∧
      (s.rb (.pwrSmval r.toNat) 31 = true ∨ s.outOfWindow r.toNat mv.toNat = false ∨ (s.sup r.toNat).bad + 1 < s.rf (.pwrSmcfg
    r.toNat) 27 26 → t.reports = s.reports) ∧
      (s.rb (.pwrSmval r.toNat) 31 = false → s.outOfWindow r.toNat mv.toNat = true → (s.sup r.toNat).bad + 1 < s.rf (.pwrSmcfg
    r.toNat) 27 26 → t.sup r.toNat = ⟨(s.sup r.toNat).bad + 1, 0⟩) ∧
      (s.rb (.pwrSmval r.toNat) 31 = false → s.outOfWindow r.toNat mv.toNat = false → t.sup r.toNat = ⟨0, 0⟩)) ∧
  (∀ (s : State), s.off ≠ .unpowered → Leads (.tamperInput) s fun t => t = { s with regs := t.regs } ∧ RegsBut [.cpxSwipe] s t
    ∧ t.rb .cpxSwipe 30 = true ∧ t.rf .cpxSwipe 1 0 = 1 ∧
      t.rb .cpxSwipe 31 = s.rb .cpxSwipe 31) ∧
  (∀ (s : State), s.off ≠ .unpowered → Leads (.lifecycleChange) s fun t => t = { s with regs := t.regs } ∧ RegsBut [.cpxSwipe]
    s t ∧ t.rb .cpxSwipe 30 = true ∧ t.rf .cpxSwipe 1 0 = 2 ∧
      t.rb .cpxSwipe 31 = s.rb .cpxSwipe 31) ∧
  (∀ (s : State), s.off = .unpowered → Idle (.tamperInput) s) ∧
  (∀ (s : State), s.off = .unpowered → Idle (.lifecycleChange) s) ∧
  (∀ (s : State), s.rb .cpxSwipe 30 = false → Idle (.wipeComplete) s) ∧
  (∀ (k : Nat) (s : State), s.rb .cpxSwipe 30 = true → WindowFits s → k < 0x1000000 → Leads (.wipeComplete) s fun t =>
      t.byteAt k = (if 0x580000 ≤ k ∧ k < 0x590000 then 0 else s.byteAt k) ∧ t.rb .cpxSwipe 30 = false ∧ t.rb .cpxSwipe 31 =
    true ∧
      (0x580000 ≤ k → k < 0x590000 → s.rb .cpxEinj 31 = false → t.mark (granOf k) = .clean) ∧ t.threads = s.threads ∧ t.locks
    = s.locks ∧
      (s.mode ≠ .off → t.reports = s.reports ++ [⟨s.cycle + 1, 0x72, 13, 0, BitVec.ofNat 32 (s.rf .cpxSwipe 1 0), 0, false⟩])
    ∧ (s.mode = .off → t.reports = s.reports))

/-- COMMONS_TIME_WRITE, RATE_ADJUST_WRITE, SLEW_WRITE and STEP_REQUEST by any path. In CONFIGURE a committed time is the time
of the next cycle with fraction 0 and the era kept, and LOCKED is cleared; elsewhere a time that differs is refused, the low
word staying staged (the time in force is taken, log 35). A rate in range, a slew and a step are accepted and touch the
watchdog; a step of at most LIM enters v and counts, a larger one is refused with STEP_REFUSED and no touch. Reserved values
are refused with CFG_REJECT. Nothing else changes. -/
def Obligations.SteeringWritesSetTheCount : Prop :=
  (∀ (acc : Acc) (val : DWord) (s : State), Answers s → s.mode = .configure → Leads (.commonsTimeWrite acc val) s fun t => t =
    { s with stage := t.stage, commons := t.commons, regs := t.regs } ∧
      OnlyAt (pathKey acc.path 0x2000) s.stageAt t.stageAt ∧ t.stageAt (pathKey acc.path 0x2000) = lo32 val ∧ RegsBut
    [.cmnSync] s t ∧
      t.rb .cmnSync 30 = false ∧ t.rb .cmnSync 31 = s.rb .cmnSync 31 ∧ t.rf .cmnSync 23 0 = s.rf .cmnSync 23 0 ∧
      t.commons = { s.commons with set := some val } ∧ t.advanceTime.now = val ∧ t.advanceTime.commons.frac = 0 ∧
    t.advanceTime.commons.era = s.commons.era) ∧
  (∀ (acc : Acc) (val : DWord) (s : State), Answers s → s.mode ≠ .configure → exec (.commonsTimeWrite acc val) s = .next (if
    val = s.now then s.setStage (pathKey acc.path 0x2000) (lo32 val)
      else turnedAway (s.setStage (pathKey acc.path 0x2000) (lo32 val)) acc 0x60 0x2004)) ∧
  (∀ (acc : Acc) (val : Word) (s : State), Answers s → val.toInt.natAbs ≤ 2 ^ 24 → Leads (.rateAdjustWrite acc val) s fun t =>
    t = { s with commons := { s.commons with touch := s.now }, regs := t.regs } ∧
      t.reg .cmnRadj = val ∧ RegsBut [.cmnRadj] s t ∧
      t.rateNow = ((s.rf .cmnInci 6 0 * 2 ^ 32 + (s.reg .cmnIncf).toNat : Nat) : Int) + val.toInt) ∧
  (∀ (acc : Acc) (val : Word) (s : State), Answers s → 2 ^ 24 < val.toInt.natAbs → exec (.rateAdjustWrite acc val) s = .next
    (turnedAway s acc 0x60 0x2018)) ∧
  (∀ (acc : Acc) (val : Word) (s : State), Answers s → val ≠ 0x80000000 → Leads (.slewWrite acc val) s fun t => t =
    { s with commons := { s.commons with touch := s.now, slewCnt := 0 }, regs := t.regs } ∧
      t.slew = val.toInt ∧ RegsBut [.cmnSlew] s t) ∧
  (∀ (acc : Acc) (val : Word) (s : State), Answers s → val ≠ 0x80000000 → val.toInt.natAbs ≤ s.rf .cmnSteplim 30 0 → Leads
    (.stepRequest acc val) s fun t =>
      t = { s with commons := { s.commons with touch := s.now, v := s.commons.v + val.toInt }, regs := t.regs } ∧
      RegsBut [.cmnStep, .cmnStepcnt] s t ∧ t.rf .cmnStepcnt 15 0 = min (s.rf .cmnStepcnt 15 0 + 1) 0xFFFF ∧
      t.rf .cmnStepcnt 31 16 = s.rf .cmnStepcnt 31 16) ∧
  (∀ (acc : Acc) (val : Word) (s : State), Answers s → val ≠ 0x80000000 → s.rf .cmnSteplim 30 0 < val.toInt.natAbs → Leads
    (.stepRequest acc val) s fun t =>
      t = { s with reports := t.reports, regs := t.regs } ∧ RegsBut [.cmnStep, .cmnStepcnt, .cmnStat] s t ∧
      t.rb .cmnStat 30 = true ∧ t.rb .cmnStat 29 = s.rb .cmnStat 29 ∧ t.rf .cmnStepcnt 15 0 = s.rf .cmnStepcnt 15 0 ∧
      t.rf .cmnStepcnt 31 16 = min (s.rf .cmnStepcnt 31 16 + 1) 0xFFFF ∧
      t.reports = s.reports ++ [⟨s.cycle + 1, 0x50, 10, 0, val, BitVec.ofNat 32 (pathIdx acc.path), false⟩]) ∧
  (∀ (acc : Acc) (s : State), Answers s → exec (.slewWrite acc 0x80000000) s = .next (turnedAway s acc 0x60 0x201C) ∧
      exec (.stepRequest acc 0x80000000) s = .next (turnedAway s acc 0x60 0x2024)) ∧
  (∀ (acc : Acc) (v : Word) (w : DWord) (s : State), ¬ Answers s → Idle (.slewWrite acc v) s ∧ Idle (.stepRequest acc v) s ∧
      Idle (.rateAdjustWrite acc v) s ∧ Idle (.commonsTimeWrite acc w) s)

/-- SLEW_UNIT after SLEWPER cycles with a remainder moves the remainder by 1 toward 0 and gives u its sign; WATCHDOG_EXPIRY
after WDPER µs with no touch, watching and locked, reports SYNC_LOST, sets SYNCL and clears LOCKED. SERVO_MAILBOX_COMMAND
with SFLAG set and the mailbox enabled clears SFLAG, makes the access its words ask for as the mailbox path, and writes
data, time, code and DONE, and sets DFLAG: an invalid word 0 makes none and gives CFG_REJECT; a write or a read of 32 or 64
bits is that of the register window at 0x2000 + OFS, with the code of its first refusal. No other byte or flag changes. Not
due, each changes nothing. -/
def Obligations.SlewWatchdogAndMailboxAct : Prop :=
  (∀ (s : State), Answers s → s.slew ≠ 0 → s.rf .cmnSlewper 15 0 ≤ s.commons.slewCnt → s.commons.u = 0 → Leads (.slewUnit) s
    fun t =>
      t = { s with commons := t.commons, regs := t.regs } ∧ RegsBut [.cmnSlew] s t ∧ t.commons =
    { s.commons with u := t.commons.u, slewCnt := 0 } ∧
      t.commons.u = s.slew.sign ∧ t.slew = s.slew - s.slew.sign) ∧
  (∀ (s : State), ¬ Answers s ∨ s.slew = 0 ∨ s.commons.slewCnt < s.rf .cmnSlewper 15 0 ∨ s.commons.u ≠ 0 → Idle (.slewUnit) s) ∧
  (∀ (s : State), Answers s → s.rb .cmnSync 31 = true → s.rb .cmnSync 30 = true → 16000 * s.rf .cmnSync 23 0 ≤ (s.now -
    s.commons.touch).toNat →
      Leads (.watchdogExpiry) s fun t => t = { s with regs := t.regs, reports := t.reports } ∧ RegsBut [.cmnSync, .cmnStat] s
    t ∧ t.rb .cmnStat 29 = true ∧
      t.rb .cmnStat 30 = s.rb .cmnStat 30 ∧ t.rb .cmnSync 30 = false ∧ t.rb .cmnSync 31 = true ∧ t.rf .cmnSync 23 0 = s.rf
    .cmnSync 23 0 ∧
      t.reports = s.reports ++ [⟨s.cycle + 1, 0x51, 10, 0, 0, 0, false⟩]) ∧
  (∀ (s : State), ¬ Answers s ∨ s.rb .cmnSync 31 = false ∨ s.rb .cmnSync 30 = false ∨ (s.now - s.commons.touch).toNat < 16000
    * s.rf .cmnSync 23 0 → Idle (.watchdogExpiry) s) ∧
  (∀ (s : State), ¬ Answers s ∨ s.rb .cmnSrv 31 = false ∨ s.flagNow (s.rf .cmnSrv 26 24) (s.rf .cmnSrv 7 0) = false → Idle
    (.servoMailboxCommand) s) ∧
  (∀ (w : Word) (j : Nat) (s : State), Answers s → WindowFits s → s.rb .cmnSrv 31 = true → s.flagNow (s.rf .cmnSrv 26 24)
    (s.rf .cmnSrv 7 0) = true →
      w = s.word (mailboxKey s) → fld w 29 12 ≠ 0 ∨ fld w 1 0 ≠ 0 ∨ (bit w 30 = true ∧ bit w 2 = true) → j < 0x1010000 → Leads
    (.servoMailboxCommand) s fun t =>
      MailboxEnds s (turnedAway (mailboxStart s) mailboxAcc 0x60 (0x2000 + fld w 11 0)) t 0x60 ∧
      (j < mailboxKey s + 4 ∨ (mailboxKey s + 8 ≤ j ∧ j < mailboxKey s + 16) ∨ mailboxKey s + 24 ≤ j → t.byteAt j = s.byteAt
    j)) ∧
  (∀ (w v : Word) (o : BitVec 20) (j : Nat) (s : State), Answers s → WindowFits s → s.rb .cmnSrv 31 = true → s.flagNow (s.rf
    .cmnSrv 26 24) (s.rf .cmnSrv 7 0) = true →
      w = s.word (mailboxKey s) → fld w 31 12 = 0x80000 → fld w 1 0 = 0 → v = s.word (mailboxKey s + 8) → o = BitVec.ofNat 20
    (0x2000 + fld w 11 0) →
      j < 0x1010000 → ∃ u, exec (.registerWrite mailboxAcc .b32 o (v.setWidth 64)) (mailboxStart s) = .next u ∧ Leads
    (.servoMailboxCommand) s fun t =>
      MailboxEnds s u t (newCode s u) ∧
      (j < mailboxKey s + 4 ∨ (mailboxKey s + 8 ≤ j ∧ j < mailboxKey s + 16) ∨ mailboxKey s + 24 ≤ j → t.byteAt j = s.byteAt
    j)) ∧
  (∀ (w : Word) (v : DWord) (o : BitVec 20) (j : Nat) (s : State), Answers s → WindowFits s → s.rb .cmnSrv 31 = true →
    s.flagNow (s.rf .cmnSrv 26 24) (s.rf .cmnSrv 7 0) = true →
      w = s.word (mailboxKey s) → fld w 31 12 = 0xC0000 → fld w 2 0 = 0 → v = mk64 (s.word (mailboxKey s + 12)) (s.word
    (mailboxKey s + 8)) →
      o = BitVec.ofNat 20 (0x2000 + fld w 11 0) → j < 0x1010000 →
      ∃ u, exec (.registerWrite mailboxAcc .b64 o v) (mailboxStart s) = .next u ∧ Leads (.servoMailboxCommand) s fun t =>
    MailboxEnds s u t (newCode s u) ∧
      (j < mailboxKey s + 4 ∨ (mailboxKey s + 8 ≤ j ∧ j < mailboxKey s + 16) ∨ mailboxKey s + 24 ≤ j → t.byteAt j = s.byteAt
    j)) ∧
  (∀ (w : Word) (o : BitVec 20) (j : Nat) (s : State), Answers s → WindowFits s → s.rb .cmnSrv 31 = true → s.flagNow (s.rf
    .cmnSrv 26 24) (s.rf .cmnSrv 7 0) = true →
      w = s.word (mailboxKey s) → fld w 31 12 = 0 → fld w 1 0 = 0 → o = BitVec.ofNat 20 (0x2000 + fld w 11 0) → j < 0x1010000
    →
      ∃ u, exec (.wideReadLow mailboxAcc .b32 o) (mailboxStart s) = .next u ∧ Leads (.servoMailboxCommand) s fun t =>
      MailboxEnds s { u with rdata := s.rdata } t 0 ∧ t.word (mailboxKey s + 8) = lo32 (u.readData .mailbox) ∧
      (j < mailboxKey s + 4 ∨ (mailboxKey s + 12 ≤ j ∧ j < mailboxKey s + 16) ∨ mailboxKey s + 24 ≤ j → t.byteAt j = s.byteAt
    j)) ∧
  (∀ (w : Word) (o : BitVec 20) (j : Nat) (s : State), Answers s → WindowFits s → s.rb .cmnSrv 31 = true → s.flagNow (s.rf
    .cmnSrv 26 24) (s.rf .cmnSrv 7 0) = true →
      w = s.word (mailboxKey s) → fld w 31 12 = 0x40000 → fld w 2 0 = 0 → o = BitVec.ofNat 20 (0x2000 + fld w 11 0) → j <
    0x1010000 →
      ∃ u, exec (.wideReadLow mailboxAcc .b64 o) (mailboxStart s) = .next u ∧ Leads (.servoMailboxCommand) s fun t =>
    MailboxEnds s { u with rdata := s.rdata } t 0 ∧
      t.word (mailboxKey s + 8) = lo32 (u.readData .mailbox) ∧ t.word (mailboxKey s + 12) = hi32 (u.readData .mailbox) ∧
      (j < mailboxKey s + 4 ∨ mailboxKey s + 24 ≤ j → t.byteAt j = s.byteAt j))

/-- TIMER_ENABLE, TIMER_COMPARE_WRITE, TIMER_INTERVAL_WRITE and TIMER_TRIGGER_GO by any path. Enabling clears LEVEL and arms a
ONESHOT or PERIODIC channel at its committed CMP, or under a CLOCK link with its count; an enabled channel takes FRZ alone.
A committed CMP sets NEXT, or the count under CLOCK, and arms a ONESHOT channel; a committed IVL sets NEXT to LAST + IVL
after a PERIODIC channel's first fire. GO captures the time where CSRC selects it and the channel is live. Reserved values
and class-S changes of an enabled channel are refused. Only that channel changes. The start of an unset count at IVL and the
arming of a disabled ONESHOT channel are readings of the model (logs 36, 37). -/
def Obligations.TimerWritesConfigureTheChannel : Prop :=
  (∀ (acc : Acc) (ch : BitVec 5) (ctl : Word) (v : Word) (s : State), Answers s → v = setBit ctl 31 true → ¬ TmrReserved s
    ch.toNat v → s.rb (.tmrCtl ch.toNat) 31 = false → Leads (.timerEnable acc ch ctl) s fun t =>
      t = { s with regs := t.regs, timers := t.timers } ∧ RegsBut [.tmrCtl ch.toNat] s t ∧ t.rf (.tmrCtl ch.toNat) 31 8 = fld
    v 31 8 ∧
      t.rf (.tmrCtl ch.toNat) 1 0 = fld v 1 0 ∧ OnlyAt ch.toNat s.timer t.timer ∧
      (fld v 30 29 = 2 → t.timer ch.toNat = { s.timer ch.toNat with level := false, armed := false }) ∧
      (fld v 30 29 ≠ 2 → fld v 28 27 ≠ 3 → t.timer ch.toNat =
    { s.timer ch.toNat with level := false, armed := true, first := true, next := (s.timer ch.toNat).cmp }) ∧
      (fld v 30 29 ≠ 2 → fld v 28 27 = 3 → t.timer ch.toNat =
    { s.timer ch.toNat with level := false, armed := true, first := true, clk := if (s.timer ch.toNat).clk = 0 then lo32 (s.timer ch.toNat).ivl else (s.timer ch.toNat).clk })) ∧
  (∀ (acc : Acc) (ch : BitVec 5) (ctl : Word) (v : Word) (s : State), Answers s → v = setBit ctl 31 true → ¬ TmrReserved s
    ch.toNat v → s.rb (.tmrCtl ch.toNat) 31 = true → TmrSame s ch.toNat v →
      exec (.timerEnable acc ch ctl) s = .next (s.setRf (.tmrCtl ch.toNat) 21 20 (fld v 21 20))) ∧
  (∀ (acc : Acc) (ch : BitVec 5) (ctl : Word) (v : Word) (s : State), Answers s → v = setBit ctl 31 true →
      TmrReserved s ch.toNat v ∨ (s.rb (.tmrCtl ch.toNat) 31 = true ∧ ¬ TmrSame s ch.toNat v ∧ s.mode ≠ .configure) →
      exec (.timerEnable acc ch ctl) s = .next (turnedAway s acc 0x60 (Reg.tmrCtl ch.toNat).off)) ∧
  (∀ (acc : Acc) (ch : BitVec 5) (val : DWord) (s : State), Answers s → Leads (.timerCompareWrite acc ch val) s fun t => t =
    { s with stage := t.stage, timers := t.timers } ∧ OnlyAt ch.toNat s.timer t.timer ∧
      t.stage = (s.setStage (pathKey acc.path (Reg.tmrCmp ch.toNat 0).off) (lo32 val)).stage ∧
      t.timer ch.toNat =
    { s.timer ch.toNat with cmp := val, armed := (s.timer ch.toNat).armed || s.rf (.tmrCtl ch.toNat) 30 29 == 0, next := if s.rf (.tmrCtl ch.toNat) 28 27 = 3 then (s.timer ch.toNat).next else val, clk := if s.rf (.tmrCtl ch.toNat) 28 27 = 3 then lo32 val else (s.timer ch.toNat).clk }) ∧
  (∀ (acc : Acc) (ch : BitVec 5) (val : DWord) (s : State), Answers s → val ≠ 0 → val.toNat < 2 ^ 63 → s.rf (.tmrCtl ch.toNat)
    28 27 ≠ 3 ∨ hi32 val = 0 → Leads (.timerIntervalWrite acc ch val) s fun t =>
      t = { s with stage := t.stage, timers := t.timers } ∧ OnlyAt ch.toNat s.timer t.timer ∧
      t.stage = (s.setStage (pathKey acc.path (Reg.tmrIvl ch.toNat 0).off) (lo32 val)).stage ∧
      t.timer ch.toNat =
    { s.timer ch.toNat with ivl := val, next := if s.rb (.tmrCtl ch.toNat) 31 = true ∧ s.rf (.tmrCtl ch.toNat) 30 29 = 1 ∧ s.rf (.tmrCtl ch.toNat) 28 27 ≠ 3 ∧ (s.timer ch.toNat).armed = true ∧ (s.timer ch.toNat).first = false then (s.timer ch.toNat).last + val else (s.timer ch.toNat).next }) ∧
  (∀ (acc : Acc) (ch : BitVec 5) (val : DWord) (s : State), Answers s → val = 0 ∨ 2 ^ 63 ≤ val.toNat ∨ (s.rf (.tmrCtl
    ch.toNat) 28 27 = 3 ∧ hi32 val ≠ 0) →
      exec (.timerIntervalWrite acc ch val) s = .next (turnedAway (s.setStage (pathKey acc.path (Reg.tmrIvl ch.toNat 0).off)
    (lo32 val)) acc 0x60 (Reg.tmrIvl ch.toNat 1).off)) ∧
  (∀ (acc : Acc) (ch : BitVec 5) (s : State), Answers s → s.tmrLive ch.toNat = true → s.rf (.tmrCtl ch.toNat) 30 29 = 2 → s.rf
    (.tmrCtl ch.toNat) 1 0 = 0 →
      exec (.timerTriggerGo acc ch) s = .next (s.setTimer ch.toNat (captured (s.timer ch.toNat) s.now))) ∧
  (∀ (acc : Acc) (ch : BitVec 5) (s : State), Answers s → s.tmrLive ch.toNat = false ∨ s.rf (.tmrCtl ch.toNat) 30 29 ≠ 2 ∨
    s.rf (.tmrCtl ch.toNat) 1 0 ≠ 0 → Idle (.timerTriggerGo acc ch) s) ∧
  (∀ (s : State) (ch : Nat), s.tmrLive ch = true ↔ s.rb (.tmrCtl ch) 31 = true ∧ Answers s ∧ (s.mode = .hold → s.rf (.tmrCtl
    ch) 21 20 = 0)) ∧
  (∀ (acc : Acc) (ch : BitVec 5) (w : Word) (v : DWord) (s : State), ¬ Answers s → Idle (.timerEnable acc ch w) s ∧ Idle
    (.timerCompareWrite acc ch v) s ∧
      Idle (.timerIntervalWrite acc ch v) s ∧ Idle (.timerTriggerGo acc ch) s)

/-- TIMER_FIRE of a live, armed ONESHOT or PERIODIC channel that has not fired in this cycle and whose NEXT is reached with
its gate open, or whose CLOCK count has run out with its master's fire. LAST, NEXT, ARMED, LEVEL, SKIP, LATE_FIRE and FIRES
change as R258, R260 and Table 82 say; with OUTEN the flag is set, from the fire cycle on (log 38). An enabled RESET slave
is armed at LAST + its IVL, a live armed CLOCK slave counts down, and a live CAPTURE channel that watches the fire, or the
flag's change from 0, captures the time. No other channel, flag or register changes. At the end of a cycle a capture that
found its FIFO full is lost and counted. -/
def Obligations.TimersFireWhenReached : Prop :=
  (∀ (ch : BitVec 5) (s : State), ¬ TmrFires s ch.toNat → Idle (.timerFire ch) s) ∧
  (∀ (ch : BitVec 5) (n : Nat) (s : State), TmrFires s ch.toNat → s.rf (.tmrCtl ch.toNat) 28 27 ≠ 3 → n = (s.now - (s.timer
    ch.toNat).next).toNat / (s.timer ch.toNat).ivl.toNat → Leads (.timerFire ch) s fun t =>
      (s.rf (.tmrCtl ch.toNat) 30 29 = 0 → t.timer ch.toNat =
    { s.timer ch.toNat with level := !(s.timer ch.toNat).level, fired := some s.cycle, first := false, last := (s.timer ch.toNat).next, armed := false }
    ∧ t.rf (.tmrStat ch.toNat) 7 0 = s.rf (.tmrStat ch.toNat) 7 0) ∧
      (s.rf (.tmrCtl ch.toNat) 30 29 = 1 → t.timer ch.toNat =
    { s.timer ch.toNat with level := !(s.timer ch.toNat).level, fired := some s.cycle, first := false, last := (s.timer ch.toNat).next + BitVec.ofNat 64 (n * (s.timer ch.toNat).ivl.toNat), next := (s.timer ch.toNat).next + BitVec.ofNat 64 (n * (s.timer ch.toNat).ivl.toNat) + (s.timer ch.toNat).ivl }
    ∧
        t.rf (.tmrStat ch.toNat) 7 0 = min (s.rf (.tmrStat ch.toNat) 7 0 + n) 255) ∧
      t.rb (.tmrStat ch.toNat) 31 = (s.rb (.tmrStat ch.toNat) 31 || decide ((s.commons.prev - (s.timer ch.toNat).next).toNat <
    2 ^ 63)) ∧
      t.rf (.tmrStat ch.toNat) 30 8 = s.rf (.tmrStat ch.toNat) 30 8) ∧
  (∀ (ch : BitVec 5) (s : State), TmrFires s ch.toNat → s.rf (.tmrCtl ch.toNat) 28 27 = 3 → Leads (.timerFire ch) s fun t =>
      t.reg (.tmrStat ch.toNat) = s.reg (.tmrStat ch.toNat) ∧
      t.timer ch.toNat =
    { s.timer ch.toNat with level := !(s.timer ch.toNat).level, fired := some s.cycle, first := false, last := s.now, armed := s.rf (.tmrCtl ch.toNat) 30 29 == 1, clk := if s.rf (.tmrCtl ch.toNat) 30 29 = 1 then lo32 (s.timer ch.toNat).ivl else (s.timer ch.toNat).clk }) ∧
  (∀ (ch : BitVec 5) (c f : Nat) (s : State), TmrFires s ch.toNat → Leads (.timerFire ch) s fun t => t =
    { s with regs := t.regs, timers := t.timers, flags := t.flags } ∧
      RegsBut [.tmrStat ch.toNat, .tmrFires ch.toNat] s t ∧ t.reg (.tmrFires ch.toNat) = satAdd (s.reg (.tmrFires ch.toNat)) 1
    ∧
      (f < 256 → t.flagSet c f = (s.flagSet c f || (s.rb (.tmrCtl ch.toNat) 19 && c == s.rf (.tmrCtl ch.toNat) 18 16 && f ==
    s.rf (.tmrCtl ch.toNat) 15 8)))) ∧
  (∀ (ch : BitVec 5) (j : Nat) (s : State), TmrFires s ch.toNat → j ≠ ch.toNat → Leads (.timerFire ch) s fun t =>
      (SlaveOf s ch.toNat j → s.rf (.tmrCtl j) 30 29 = 2 → s.rf (.tmrCtl j) 1 0 = 1 → s.tmrLive j = true → t.timer j =
    captured (s.timer j) s.now) ∧
      (SlaveOf s ch.toNat j → s.rf (.tmrCtl j) 30 29 ≠ 2 → s.rf (.tmrCtl j) 28 27 = 2 →
        t.timer j = { s.timer j with armed := true, next := (t.timer ch.toNat).last + (s.timer j).ivl }) ∧
      (SlaveOf s ch.toNat j → s.rf (.tmrCtl j) 30 29 ≠ 2 → s.rf (.tmrCtl j) 28 27 = 3 → s.tmrLive j = true → (s.timer j).armed
    = true →
        t.timer j = { s.timer j with clk := (s.timer j).clk - 1 }) ∧
      (j < 32 → s.rf (.tmrCtl j) 30 29 = 2 → s.rf (.tmrCtl j) 1 0 = 2 → s.tmrLive j = true → s.rb (.tmrCtl ch.toNat) 19 = true
    →
        s.rf (.tmrCtl j) 18 8 = s.rf (.tmrCtl ch.toNat) 18 8 → s.flagNow (s.rf (.tmrCtl j) 18 16) (s.rf (.tmrCtl j) 15 8) =
    false →
        t.timer j = captured (s.timer j) s.now) ∧
      (s.rf (.tmrCtl j) 30 29 = 2 → (s.tmrLive j = false ∨ s.rf (.tmrCtl j) 1 0 = 0 ∨ (s.rf (.tmrCtl j) 1 0 = 1 ∧ ¬ SlaveOf s
    ch.toNat j)) → t.timer j = s.timer j) ∧
      (s.rf (.tmrCtl j) 30 29 = 2 → s.rf (.tmrCtl j) 1 0 = 2 → s.rb (.tmrCtl ch.toNat) 19 = false ∨ s.rf (.tmrCtl j) 18 8 ≠
    s.rf (.tmrCtl ch.toNat) 18 8 ∨
        s.flagNow (s.rf (.tmrCtl j) 18 16) (s.rf (.tmrCtl j) 15 8) = true → t.timer j = s.timer j) ∧
      (s.rf (.tmrCtl j) 30 29 ≠ 2 → ¬ SlaveOf s ch.toNat j ∨ s.rf (.tmrCtl j) 28 27 < 2 ∨ (s.rf (.tmrCtl j) 28 27 = 3 ∧
    (s.tmrLive j = false ∨ (s.timer j).armed = false)) → t.timer j = s.timer j)) ∧
  (∀ (s : State) (ch : Nat), ((s.timer ch).lost = none → s.tmrSettle ch = s) ∧ ((s.timer ch).lost ≠ none → (s.tmrSettle
    ch).timer ch = { s.timer ch with lost := none } ∧
      (s.tmrSettle ch).rb (.tmrStat ch) 30 = true ∧ (s.tmrSettle ch).rf (.tmrStat ch) 15 8 = min (s.rf (.tmrStat ch) 15 8 + 1)
    255 ∧ RegsBut [.tmrStat ch] s (s.tmrSettle ch)))

/-- PSQ_START, PSQ_STOP, PROGRAM_RAM_WRITE, ACTION_OFFER_HOST, SHIFT_REGISTER_WRITE and READ, VALUE_SET_PORT and
TRIGGER_BITS_SET. START in REHEARSE or RUN from STOPPED sets the PC to ENTRY, clears both shift registers and gives every
lane LVI and OEI; STOP of any other state than STOPPED stops with the PC kept and the counters off. A program word is
written where PADDR points, which moves on, only in CONFIGURE or while STOPPED. An action is checked for encoding, lateness
at the next cycle's time (as the steps accepted so far make it) and room. A port write loads an out-direction register; a
read clears a full in-direction one. A value write waits for the end of the cycle, where program, ports, host and LOAD
actions apply in this order. A trigger bit set is seen from the next cycle. All else is refused, or reported in the manner
of R108. -/
def Obligations.SequencerPortsAndCommandsAct : Prop :=
  (∀ (acc : Acc) (q : BitVec 6) (s : State), Open s acc → s.active = true → (s.psq q.toNat).st = .stopped → Leads (.psqStart
    acc q) s fun t => t = { s with psqs := t.psqs, lanes := t.lanes } ∧ PsqFrame s t q.toNat ∧
      t.psq q.toNat =
    { s.psq q.toNat with st := .running, pc := BitVec.ofNat 8 (s.rf (.psqCtl q.toNat) 7 0), dly := none, ran := some s.cycle, sh0 := ⟨0, 0, 0⟩, sh1 := ⟨0, 0, 0⟩ }
    ∧
      ∀ l, l < 8 → t.lane q.toNat l =
    { s.lane q.toNat l with ov := s.rb (.psqLcfg q.toNat l) 27, oe := s.rb (.psqLcfg q.toNat l) 28, chg := [] }) ∧
  (∀ (acc : Acc) (q : BitVec 6) (s : State), Open s acc → s.active = false ∨ (s.psq q.toNat).st ≠ .stopped → exec (.psqStart
    acc q) s = .next (refusal s acc 0x60 (Reg.psqCmd q.toNat).off)) ∧
  (∀ (acc : Acc) (q : BitVec 6) (s : State), Open s acc → (s.psq q.toNat).st ≠ .stopped → Leads (.psqStop acc q) s fun t => t
    = { s with psqs := t.psqs, regs := t.regs } ∧ OnlyAt q.toNat s.psq t.psq ∧
      t.psq q.toNat = { s.psq q.toNat with st := .stopped, dly := none, stopping := false } ∧ RegsBut [.psqCnt q.toNat 0,
    .psqCnt q.toNat 1] s t ∧
      ∀ k, k < 2 → t.rb (.psqCnt q.toNat k) 31 = false ∧ t.rf (.psqCnt q.toNat k) 30 0 = s.rf (.psqCnt q.toNat k) 30 0) ∧
  (∀ (acc : Acc) (q : BitVec 6) (s : State), Open s acc → (s.psq q.toNat).st = .stopped → exec (.psqStop acc q) s = .next
    (refusal s acc 0x60 (Reg.psqCmd q.toNat).off)) ∧
  (∀ (acc : Acc) (q : BitVec 6) (val : Word) (a j : Nat) (s : State), Open s acc → s.mode = .configure ∨ (s.psq q.toNat).st =
    .stopped → WindowFits s → a = s.rf (.psqPaddr q.toNat) 7 0 → Leads (.programRamWrite acc q val) s fun t =>
      t = { s with ram := t.ram, ecc := t.ecc, scrubs := t.scrubs, regs := t.regs, gleaner := t.gleaner } ∧ t.progWord q.toNat
    a = val ∧
      (j < 256 → j ≠ a → t.progWord q.toNat j = s.progWord q.toNat j) ∧ (j < 0x1020000 → t.byteAt j = s.byteAt j) ∧
      t.reg (.psqPaddr q.toNat) = BitVec.ofNat 32 ((a + 1) % 256) ∧ RegsBut (.psqPaddr q.toNat :: memRegs) s t) ∧
  (∀ (acc : Acc) (q : BitVec 6) (val : Word) (s : State), Open s acc → s.mode ≠ .configure → (s.psq q.toNat).st ≠ .stopped →
    exec (.programRamWrite acc q val) s = .next
    { s with reports := s.reports ++ [⟨s.cycle + 1, 0x61, 3, q.toNat, BitVec.ofNat 32 (pathIdx acc.path), s.reg (.psqPaddr q.toNat), false⟩] }) ∧
  (∀ (acc : Acc) (q : BitVec 6) (act : DWord) (s : State), Open s acc → s.mode = .configure ∨ ¬ ActValid act → exec
    (.actionOfferHost acc q act) s = .next (refusal (s.setPsq q.toNat { s.psq q.toNat with actLo := lo32 act }) acc 0x60
    (Reg.psqActLo q.toNat).off)) ∧
  (∀ (acc : Acc) (q : BitVec 6) (act : DWord) (s : State), Open s acc → s.mode ≠ .configure → ActValid act → (lo32 s.nextTime
    - lo32 act).toNat < 2 ^ 31 → Leads (.actionOfferHost acc q act) s fun t => t =
    { s with psqs := t.psqs, regs := t.regs, reports := t.reports } ∧
      OnlyAt q.toNat s.psq t.psq ∧ t.psq q.toNat = { s.psq q.toNat with actLo := lo32 act } ∧ RegsBut [.psqAcnt q.toNat] s t ∧
      t.rf (.psqAcnt q.toNat) 23 16 = min (s.rf (.psqAcnt q.toNat) 23 16 + 1) 255 ∧ t.rf (.psqAcnt q.toNat) 31 24 = s.rf
    (.psqAcnt q.toNat) 31 24 ∧
      t.rf (.psqAcnt q.toNat) 15 0 = s.rf (.psqAcnt q.toNat) 15 0 ∧ t.reports = s.reports ++ [⟨s.cycle + 1, 0x12, 3, q.toNat,
    lo32 act, 0, false⟩]) ∧
  (∀ (acc : Acc) (q : BitVec 6) (act : DWord) (s : State), Open s acc → s.mode ≠ .configure → ActValid act → 2 ^ 31 ≤ (lo32
    s.nextTime - lo32 act).toNat → Leads (.actionOfferHost acc q act) s fun t => t = { s with psqs := t.psqs, regs := t.regs }
    ∧
      OnlyAt q.toNat s.psq t.psq ∧ RegsBut [.psqAcnt q.toNat] s t ∧ t.rf (.psqAcnt q.toNat) 31 16 = s.rf (.psqAcnt q.toNat) 31
    16 ∧ t.rf (.psqAcnt q.toNat) 7 0 = s.rf (.psqAcnt q.toNat) 7 0 ∧
      ((s.psq q.toNat).fifo.length + (s.psq q.toNat).rsvd < 64 → t.psq q.toNat =
    { s.psq q.toNat with actLo := lo32 act, fifo := (s.psq q.toNat).fifo ++ [act] } ∧ t.regs = s.regs) ∧
      (64 ≤ (s.psq q.toNat).fifo.length + (s.psq q.toNat).rsvd → t.psq q.toNat = { s.psq q.toNat with actLo := lo32 act } ∧
    t.rf (.psqAcnt q.toNat) 15 8 = min (s.rf (.psqAcnt q.toNat) 15 8 + 1) 255)) ∧
  (∀ (g : Tid) (q : BitVec 6) (k : BitVec 1) (val : DWord) (s : State), s.portReach g.toNat q.toNat = true → s.rb (.psqShcfg
    q.toNat k.toNat) 31 = false → exec (.shiftRegisterWrite g q k val) s = .next (s.setSh q.toNat k.toNat ⟨val, s.rf
    (.psqShcfg q.toNat k.toNat) 6 0, s.cycle + 1⟩)) ∧
  (∀ (g : Tid) (q : BitVec 6) (k : BitVec 1) (val : DWord) (s : State), s.portReach g.toNat q.toNat = true → s.rb (.psqShcfg
    q.toNat k.toNat) 31 = true → exec (.shiftRegisterWrite g q k val) s = .next
    { s with reports := s.reports ++ [⟨s.cycle + 1, 0x60, 0, g.toNat, (s.thr g.toNat).pc, 0x102, false⟩] }) ∧
  (∀ (g : Tid) (q : BitVec 6) (k : BitVec 1) (s : State), s.portReach g.toNat q.toNat = true → s.rb (.psqShcfg q.toNat
    k.toNat) 31 = true → (s.sh q.toNat k.toNat).bits = s.rf (.psqShcfg q.toNat k.toNat) 6 0 → (s.sh q.toNat k.toNat).since ≤
    s.cycle →
      exec (.shiftRegisterRead g q k) s = .next (s.setSh q.toNat k.toNat ⟨0, 0, s.cycle + 1⟩)) ∧
  (∀ (g : Tid) (q : BitVec 6) (k : BitVec 1) (s : State), s.portReach g.toNat q.toNat = false ∨ s.rb (.psqShcfg q.toNat
    k.toNat) 31 = false ∨ (s.sh q.toNat k.toNat).bits ≠ s.rf (.psqShcfg q.toNat k.toNat) 6 0 ∨ s.cycle < (s.sh q.toNat
    k.toNat).since → Idle (.shiftRegisterRead g q k) s) ∧
  (∀ (g : Tid) (q : BitVec 6) (val : Word) (s : State), s.portReach g.toNat q.toNat = true → fld val 31 19 = 0 → exec
    (.valueSetPort g q val) s = .next (s.setPsq q.toNat
    { s.psq q.toNat with vq := (s.psq q.toNat).vq ++ [⟨1, fld val 18 16, val.setWidth 16⟩] })) ∧
  (∀ (g : Tid) (q : BitVec 6) (val : Word) (s : State), s.portReach g.toNat q.toNat = true → fld val 31 19 ≠ 0 → exec
    (.valueSetPort g q val) s = .next
    { s with reports := s.reports ++ [⟨s.cycle + 1, 0x60, 0, g.toNat, (s.thr g.toNat).pc, 0x102, false⟩] }) ∧
  (∀ (s : State) (q n : Nat), n < 8 → (∀ w ∈ (s.psq q).vq, w.pri < 4 ∧ w.reg < 8) → (s.settleV q).vreg q n =
      (((((upto 4).flatMap fun p => (s.psq q).vq.filter fun w => w.pri == p && w.reg == n).getLast?).map fun w =>
    w.val.toNat).getD (s.vreg q n)) ∧
      (s.settleV q).psq q = { s.psq q with vq := [] }) ∧
  (∀ (src : PortSrc) (q : BitVec 6) (mask : Byte) (g : Tid) (s : State), src = .thread g → s.portReach g.toNat q.toNat = true
    → Leads (.triggerBitsSet src q mask) s fun t => t = { s with psqs := t.psqs } ∧ OnlyAt q.toNat s.psq t.psq ∧
      t.psq q.toNat =
    { s.psq q.toNat with trig := (t.psq q.toNat).trig, trigNew := (t.psq q.toNat).trigNew, trigCyc := s.cycle } ∧
      t.trigAll q.toNat = s.trigAll q.toNat ||| mask ∧ t.trigSeen q.toNat = s.trigSeen q.toNat) ∧
  (∀ (src : PortSrc) (q : BitVec 6) (mask : Byte) (acc : Acc) (s : State), src = .bus acc → Open s acc → Leads
    (.triggerBitsSet src q mask) s fun t => t = { s with psqs := t.psqs } ∧ OnlyAt q.toNat s.psq t.psq ∧
      t.psq q.toNat =
    { s.psq q.toNat with trig := (t.psq q.toNat).trig, trigNew := (t.psq q.toNat).trigNew, trigCyc := s.cycle } ∧
      t.trigAll q.toNat = s.trigAll q.toNat ||| mask ∧ t.trigSeen q.toNat = s.trigSeen q.toNat) ∧
  (∀ (g : Tid) (q : BitVec 6) (k : BitVec 1) (v : DWord) (w : Word) (m : Byte) (s : State), s.portReach g.toNat q.toNat =
    false →
      Idle (.shiftRegisterWrite g q k v) s ∧ Idle (.valueSetPort g q w) s ∧ Idle (.triggerBitsSet (.thread g) q m) s)

/-- The 18 instructions of Table 87, PSQ_DLY_EXPIRY and SHIFT_STALL_RELEASE. An instruction whose word is at the PC of an
engine that executes in this cycle does what its row says to lanes, shift registers, counters, values, trigger bits, reflex
pairs, flags and the PC; lanes take changes at their phase in R280's order, with LMODE and COLL. A wait not met leaves the
PC; a stalled OUTB or INB leaves its register and lanes, and completes once the register is ready. A DLY ends CNT cycles
later. A rejected word, or a shift-direction mismatch, stops the sequencer with ILLOP whatever row is asked for. The words
are those of Table 87, put together from their fields with zeros elsewhere. No other sequencer changes. -/
def Obligations.SequencerInstructionsFollowTable87 : Prop :=
  (∀ (w : Word), psqBad w = false ↔ ∃ r ∈ table87 w, w = r.1 ∧ r.2 = true) ∧
  (∀ (q : BitVec 6) (s : State), (¬ EngineDue s q.toNat → ∀ r ∈ psqRows, Idle (r.1 q) s) ∧
      (EngineDue s q.toNat → psqBad (s.progWord q.toNat (s.psq q.toNat).pc.toNat) = false → ∀ r ∈ psqRows, fld (s.progWord
    q.toNat (s.psq q.toNat).pc.toNat) 31 27 ≠ r.2 → Idle (r.1 q) s) ∧
      (EngineDue s q.toNat → psqBad (s.progWord q.toNat (s.psq q.toNat).pc.toNat) = true → ∀ r ∈ psqRows, ∃ t, exec (r.1 q) s
    = .next t ∧ SeqFault s t q.toNat 0x01 false)) ∧
  (∀ (q : BitVec 6) (w : Word) (l : Nat) (s : State), Executes s q.toNat 0x01 w → l < 8 → Leads (.psqSet q) s fun t =>
    PsqFrame s t q.toNat ∧ t.flags = s.flags ∧ RegsBut [.psqStat q.toNat] s t ∧
      t.psq q.toNat = goneTo s q.toNat ((s.psq q.toNat).pc + 1) ∧ (bit w (16 + l) = true → LaneTakes s t q.toNat l (fld w 2 0)
    0 (.val (bit w (8 + l)))) ∧
      (bit w (16 + l) = false → t.lane q.toNat l = s.lane q.toNat l) ∧
      t.rb (.psqStat q.toNat) 28 = (s.rb (.psqStat q.toNat) 28 || (upto 8).any fun i => bit w (16 + i) && s.rf (.psqLcfg
    q.toNat i) 26 24 == 0 && (s.lane q.toNat i).chg.any fun d => d.ph == fld w 2 0)) ∧
  (∀ (q : BitVec 6) (w : Word) (l : Nat) (s : State), Executes s q.toNat 0x02 w → l < 8 → Leads (.psqTgl q) s fun t =>
    PsqFrame s t q.toNat ∧ t.flags = s.flags ∧ RegsBut [.psqStat q.toNat] s t ∧
      t.psq q.toNat = goneTo s q.toNat ((s.psq q.toNat).pc + 1) ∧ (bit w (16 + l) = true → LaneTakes s t q.toNat l (fld w 2 0)
    0 .tgl) ∧
      (bit w (16 + l) = false → t.lane q.toNat l = s.lane q.toNat l)) ∧
  (∀ (q : BitVec 6) (w : Word) (l : Nat) (s : State), Executes s q.toNat 0x03 w → l < 8 → Leads (.psqOe q) s fun t => PsqFrame
    s t q.toNat ∧ t.flags = s.flags ∧ RegsBut [.psqStat q.toNat] s t ∧
      t.psq q.toNat = goneTo s q.toNat ((s.psq q.toNat).pc + 1) ∧ (bit w (16 + l) = true → LaneTakes s t q.toNat l (fld w 2 0)
    0 (.en (bit w (8 + l)))) ∧
      (bit w (16 + l) = false → t.lane q.toNat l = s.lane q.toNat l)) ∧
  (∀ (q : BitVec 6) (w : Word) (x : Shift) (l : Nat) (s : State), Executes s q.toNat 0x04 w → x = s.sh q.toNat (fld w 26 26) →
    s.rb (.psqShcfg q.toNat (fld w 26 26)) 31 = false → x.bits ≠ 0 → x.since ≤ s.cycle →
      Leads (.psqOutb q) s fun t => OutbDone s t q.toNat w x ∧ (l < 8 → l ≠ fld w 10 8 → t.lane q.toNat l = s.lane q.toNat l)) ∧
  (∀ (q : BitVec 6) (w : Word) (x : Shift) (s : State), Executes s q.toNat 0x05 w → x = s.sh q.toNat (fld w 26 26) → s.rb
    (.psqShcfg q.toNat (fld w 26 26)) 31 = true → x.bits < s.rf (.psqShcfg q.toNat (fld w 26 26)) 6 0 → x.since ≤ s.cycle →
      Leads (.psqInb q) s fun t => InbDone s t q.toNat w x) ∧
  (∀ (q : BitVec 6) (w : Word) (s : State), (Executes s q.toNat 0x04 w → s.rb (.psqShcfg q.toNat (fld w 26 26)) 31 = true → ∃
    t, exec (.psqOutb q) s = .next t ∧ SeqFault s t q.toNat 0x01 true) ∧
      (Executes s q.toNat 0x05 w → s.rb (.psqShcfg q.toNat (fld w 26 26)) 31 = false → ∃ t, exec (.psqInb q) s = .next t ∧
    SeqFault s t q.toNat 0x01 true) ∧
      (Executes s q.toNat 0x04 w → s.rb (.psqShcfg q.toNat (fld w 26 26)) 31 = false → (s.sh q.toNat (fld w 26 26)).bits = 0 ∨
    s.cycle < (s.sh q.toNat (fld w 26 26)).since →
        exec (.psqOutb q) s = .next (s.setPsq q.toNat { s.psq q.toNat with st := .stalled, ran := some s.cycle })) ∧
      (Executes s q.toNat 0x05 w → s.rb (.psqShcfg q.toNat (fld w 26 26)) 31 = true → s.rf (.psqShcfg q.toNat (fld w 26 26)) 6
    0 ≤ (s.sh q.toNat (fld w 26 26)).bits ∨ s.cycle < (s.sh q.toNat (fld w 26 26)).since →
        exec (.psqInb q) s = .next (s.setPsq q.toNat { s.psq q.toNat with st := .stalled, ran := some s.cycle }))) ∧
  (∀ (q : BitVec 6) (w : Word) (x : Shift) (s : State), s.active = true → (s.psq q.toNat).st = .stalled → (s.psq q.toNat).ran
    ≠ some s.cycle → w = s.progWord q.toNat (s.psq q.toNat).pc.toNat → x = s.sh q.toNat (fld w 26 26) → x.since ≤ s.cycle →
      Leads (.shiftStallRelease q) s fun t => (fld w 31 27 = 0x04 → s.rb (.psqShcfg q.toNat (fld w 26 26)) 31 = false → x.bits
    ≠ 0 → OutbDone s t q.toNat w x) ∧
        (fld w 31 27 = 0x05 → s.rb (.psqShcfg q.toNat (fld w 26 26)) 31 = true → x.bits < s.rf (.psqShcfg q.toNat (fld w 26
    26)) 6 0 → InbDone s t q.toNat w x)) ∧
  (∀ (q : BitVec 6) (s : State), s.active = false ∨ (s.psq q.toNat).st ≠ .stalled ∨ (s.psq q.toNat).ran = some s.cycle → Idle
    (.shiftStallRelease q) s) ∧
  (∀ (q : BitVec 6) (w : Word) (s : State), Executes s q.toNat 0x06 w → exec (.psqDly q) s = .next (s.setPsq q.toNat
    { goneTo s q.toNat (s.psq q.toNat).pc with dly := some (s.cycle + fld w 15 0) })) ∧
  (∀ (q : BitVec 6) (n : Nat) (s : State), (s.psq q.toNat).dly = some n → s.active = true → (s.psq q.toNat).st = .running → n
    ≤ s.cycle → exec (.psqDlyExpiry q) s = .next (s.setPsq q.toNat
    { s.psq q.toNat with dly := none, pc := (s.psq q.toNat).pc + 1 })) ∧
  (∀ (q : BitVec 6) (s : State), (s.psq q.toNat).dly = none ∨ s.active = false ∨ (s.psq q.toNat).st ≠ .running ∨ (∃ n ∈ (s.psq
    q.toNat).dly, s.cycle < n) → Idle (.psqDlyExpiry q) s) ∧
  (∀ (q : BitVec 6) (w : Word) (s : State), Executes s q.toNat 0x07 w → exec (.psqWlvl q) s = .next (s.setPsq q.toNat (waited
    s q.toNat (s.flSeen q.toNat (fld w 10 8) == bit w 12)))) ∧
  (∀ (q : BitVec 6) (w : Word) (s : State), Executes s q.toNat 0x08 w → exec (.psqWedg q) s = .next (s.setPsq q.toNat (waited
    s q.toNat ((s.lane q.toNat (fld w 10 8)).seen.any fun e => e.cyc + 2 == s.cycle && bit w (if e.lvl then 0 else 1))))) ∧
  (∀ (q : BitVec 6) (w : Word) (s : State), Executes s q.toNat 0x09 w → exec (.psqWcnt q) s = .next (s.setPsq q.toNat (waited
    s q.toNat ((s.cnt q.toNat (fld w 26 26)).wrap.any fun c => c + 1 == s.cycle)))) ∧
  (∀ (q : BitVec 6) (w : Word) (s : State), Executes s q.toNat 0x0A w → Leads (.psqWtrg q) s fun t => t =
    { s with psqs := t.psqs } ∧ OnlyAt q.toNat s.psq t.psq ∧
      ((s.trigSeen q.toNat).getLsbD (fld w 2 0) = false → t.psq q.toNat =
    { goneTo s q.toNat (s.psq q.toNat).pc with st := .waiting }) ∧
      ((s.trigSeen q.toNat).getLsbD (fld w 2 0) = true → t.psq q.toNat =
    { goneTo s q.toNat ((s.psq q.toNat).pc + 1) with trig := (t.psq q.toNat).trig, trigNew := (t.psq q.toNat).trigNew } ∧
        t.trigSeen q.toNat = s.trigSeen q.toNat &&& ~~~ BitVec.twoPow 8 (fld w 2 0) ∧
        t.trigAll q.toNat = (s.trigSeen q.toNat &&& ~~~ BitVec.twoPow 8 (fld w 2 0)) ||| (if (s.psq q.toNat).trigCyc < s.cycle
    then 0 else (s.psq q.toNat).trigNew))) ∧
  (∀ (q : BitVec 6) (w : Word) (c f : Nat) (s : State), Executes s q.toNat 0x0B w → Leads (.psqSig q) s fun t => t =
    { s with psqs := t.psqs, flags := t.flags } ∧ OnlyAt q.toNat s.psq t.psq ∧
      t.psq q.toNat = goneTo s q.toNat ((s.psq q.toNat).pc + 1) ∧ (f < 256 → t.flagSet c f = (s.flagSet c f || (c == psqCl
    q.toNat && f == fld w 7 0)))) ∧
  (∀ (q : BitVec 6) (w : Word) (s : State), Executes s q.toNat 0x0C w → exec (.psqLdv q) s = .next (s.setPsq q.toNat
    { goneTo s q.toNat ((s.psq q.toNat).pc + 1) with vq := (s.psq q.toNat).vq ++ [⟨0, fld w 26 24, w.setWidth 16⟩] })) ∧
  (∀ (q : BitVec 6) (w : Word) (v : Half) (s : State), Executes s q.toNat 0x0D w → v = BitVec.ofNat 16 (s.vreg q.toNat (fld w
    26 24)) - 1 →
      exec (.psqDjnz q) s = .next (s.setPsq q.toNat
    { goneTo s q.toNat (if v = 0 then (s.psq q.toNat).pc + 1 else w.setWidth 8) with vq := (s.psq q.toNat).vq ++ [⟨0, fld w 26 24, v⟩] })) ∧
  (∀ (q : BitVec 6) (w : Word) (s : State), Executes s q.toNat 0x0E w → exec (.psqJmp q) s = .next (s.setPsq q.toNat (goneTo s
    q.toNat (w.setWidth 8)))) ∧
  (∀ (q : BitVec 6) (w : Word) (s : State), Executes s q.toNat 0x0F w → exec (.psqBlv q) s = .next (s.setPsq q.toNat (goneTo s
    q.toNat (if s.flSeen q.toNat (fld w 10 8) = bit w 12 then w.setWidth 8 else (s.psq q.toNat).pc + 1)))) ∧
  (∀ (q : BitVec 6) (w : Word) (k l : Nat) (s : State), Executes s q.toNat 0x10 w → k = fld w 26 26 → Leads (.psqCntc q) s fun
    t => PsqFrame s t q.toNat ∧ t.flags = s.flags ∧ RegsBut [.psqCnt q.toNat k] s t ∧
      t.rb (.psqCnt q.toNat k) 31 = (fld w 1 0 != 0) ∧ t.rf (.psqCnt q.toNat k) 30 0 = s.rf (.psqCnt q.toNat k) 30 0 ∧ t.cnt
    q.toNat (1 - k) = s.cnt q.toNat (1 - k) ∧
      t.psq q.toNat = { goneTo s q.toNat ((s.psq q.toNat).pc + 1) with c0 := (t.psq q.toNat).c0, c1 := (t.psq q.toNat).c1 } ∧
      t.cnt q.toNat k = (if fld w 1 0 = 0 ∨ (fld w 1 0 = 1 ∧ s.rb (.psqCnt q.toNat k) 31 = true) then s.cnt q.toNat k else if
    fld w 1 0 = 1 then { s.cnt q.toNat k with start := s.cycle } else
    { s.cnt q.toNat k with count := 0, cmpl := BitVec.ofNat 16 (s.vreg q.toNat (2 * k + 1)), start := s.cycle }) ∧
      (l < 8 → t.lane q.toNat l = if fld w 1 0 = 2 then pwmLane t q.toNat k l (s.lane q.toNat l) else s.lane q.toNat l)) ∧
  (∀ (q : BitVec 6) (w : Word) (r : Reg) (s : State), Executes s q.toNat 0x11 w → r = .psqRfx q.toNat (fld w 1 0) → Leads
    (.psqRarm q) s fun t => t = { s with psqs := t.psqs, regs := t.regs } ∧ OnlyAt q.toNat s.psq t.psq ∧
      t.psq q.toNat = goneTo s q.toNat ((s.psq q.toNat).pc + 1) ∧ RegsBut [r] s t ∧ t.rb r 31 = bit w 4 ∧ t.rb r 29 = (s.rb r
    29 && !bit w 4) ∧ t.rb r 30 = s.rb r 30 ∧ t.rf r 28 0 = s.rf r 28 0) ∧
  (∀ (q : BitVec 6) (w : Word) (c f : Nat) (s : State), Executes s q.toNat 0x12 w → Leads (.psqEnd q) s fun t => t =
    { s with psqs := t.psqs, flags := t.flags } ∧ OnlyAt q.toNat s.psq t.psq ∧
      t.psq q.toNat = { goneTo s q.toNat (s.psq q.toNat).pc with st := .stopped, stopping := false } ∧
      (f < 256 → t.flagSet c f = (s.flagSet c f || (bit w 8 && c == psqCl q.toNat && f == fld w 7 0))))

/-- ACTION_LEVEL, DRIVE, TRIG and LOAD execute the first queued action of their kind whose time falls before the end of the
cycle: it leaves the FIFO and is counted. LANE_EDGE gives the pin's level to the lanes its slots name; a lane whose level
changes has an edge at that phase, with its time, for the filter and the reflex pairs that watch it. EDGE_RECOGNISED after
FILT cycles changes FL, captures for the next cycle with CFLAG, and is counted in EDGE or QUAD (up when A leads B, log 42).
COUNTER_TICK counts every 2^PRE cycles. REFLEX_FIRE, three cycles after its edge, changes its lane at the edge's phase.
Changes of a lane apply by phase, then source, at the end of the cycle; captures enter the FIFO or are lost. Not due, each
changes nothing. -/
def Obligations.ActionsEdgesAndCountersAct : Prop :=
  (∀ (q : BitVec 6) (s : State), (s.active = false ∨ ∀ a ∈ (s.psq q.toNat).fifo, ¬ ActsNow s 1 a) → Idle (.actionLevel q) s) ∧
  (∀ (q : BitVec 6) (s : State), ((s.active = false ∨ ∀ a ∈ (s.psq q.toNat).fifo, ¬ ActsNow s 2 a) → Idle (.actionDrive q) s)
    ∧ ((s.active = false ∨ ∀ a ∈ (s.psq q.toNat).fifo, ¬ ActsNow s 3 a) → Idle (.actionTrig q) s) ∧ ((s.active = false ∨ ∀ a ∈
    (s.psq q.toNat).fifo, ¬ ActsNow s 4 a) → Idle (.actionLoad q) s)) ∧
  (∀ (q : BitVec 6) (x y : List DWord) (a : DWord) (l : Nat) (s : State), FirstDue s q.toNat 1 x a y → l < 8 → Leads
    (.actionLevel q) s fun t => PsqFrame s t q.toNat ∧ t.flags = s.flags ∧ t.psq q.toNat =
    { s.psq q.toNat with fifo := x ++ y } ∧
      RegsBut [.psqAexec q.toNat, .psqStat q.toNat] s t ∧ t.reg (.psqAexec q.toNat) = satAdd (s.reg (.psqAexec q.toNat)) 1 ∧
      (a.getLsbD (48 + l) = true → LaneTakes s t q.toNat l (phaseAt s a) 1 (.val (a.getLsbD (32 + l)))) ∧ (a.getLsbD (48 + l)
    = false → t.lane q.toNat l = s.lane q.toNat l) ∧
      t.rb (.psqStat q.toNat) 28 = (s.rb (.psqStat q.toNat) 28 || (upto 8).any fun i => a.getLsbD (48 + i) && s.rf (.psqLcfg
    q.toNat i) 26 24 == 0 && (s.lane q.toNat i).chg.any fun d => d.ph == phaseAt s a)) ∧
  (∀ (q : BitVec 6) (x y : List DWord) (a : DWord) (l : Nat) (s : State), FirstDue s q.toNat 2 x a y → l < 8 → Leads
    (.actionDrive q) s fun t => PsqFrame s t q.toNat ∧ t.flags = s.flags ∧ t.psq q.toNat =
    { s.psq q.toNat with fifo := x ++ y } ∧
      RegsBut [.psqAexec q.toNat, .psqStat q.toNat] s t ∧ t.reg (.psqAexec q.toNat) = satAdd (s.reg (.psqAexec q.toNat)) 1 ∧
      (a.getLsbD (48 + l) = true → LaneTakes s t q.toNat l (phaseAt s a) 1 (.en (a.getLsbD (32 + l)))) ∧ (a.getLsbD (48 + l) =
    false → t.lane q.toNat l = s.lane q.toNat l)) ∧
  (∀ (q : BitVec 6) (x y : List DWord) (a : DWord) (s : State), FirstDue s q.toNat 3 x a y → Leads (.actionTrig q) s fun t =>
    t = { s with psqs := t.psqs, regs := t.regs } ∧ OnlyAt q.toNat s.psq t.psq ∧
      t.psq q.toNat =
    { s.psq q.toNat with fifo := x ++ y, trig := (t.psq q.toNat).trig, trigNew := (t.psq q.toNat).trigNew, trigCyc := s.cycle }
    ∧ RegsBut [.psqAexec q.toNat] s t ∧
      t.reg (.psqAexec q.toNat) = satAdd (s.reg (.psqAexec q.toNat)) 1 ∧ t.trigSeen q.toNat = s.trigSeen q.toNat ∧ t.trigAll
    q.toNat = s.trigAll q.toNat ||| BitVec.twoPow 8 (a.extractLsb' 56 3).toNat) ∧
  (∀ (q : BitVec 6) (x y : List DWord) (a : DWord) (s : State), FirstDue s q.toNat 4 x a y → Leads (.actionLoad q) s fun t =>
    t = { s with psqs := t.psqs, regs := t.regs } ∧ OnlyAt q.toNat s.psq t.psq ∧
      t.psq q.toNat =
    { s.psq q.toNat with fifo := x ++ y, vq := (s.psq q.toNat).vq ++ [⟨3, (a.extractLsb' 56 3).toNat, a.extractLsb' 32 16⟩] }
    ∧ RegsBut [.psqAexec q.toNat] s t ∧
      t.reg (.psqAexec q.toNat) = satAdd (s.reg (.psqAexec q.toNat)) 1) ∧
  (∀ (p : Byte) (lvl : Bool) (ph : BitVec 3) (s : State), (s.pin p.toNat).lvl = lvl ∨ (s.pin p.toNat).lvlCyc = some s.cycle ∨
    ¬ Answers s → Idle (.laneEdge p lvl ph) s) ∧
  (∀ (p : Byte) (lvl : Bool) (ph : BitVec 3) (q l r : Nat) (s : State), (s.pin p.toNat).lvl ≠ lvl → (s.pin p.toNat).lvlCyc ≠
    some s.cycle → Answers s → l < 8 → Leads (.laneEdge p lvl ph) s fun t => t =
    { s with pins := t.pins, lanes := t.lanes, psqs := t.psqs } ∧
      OnlyAt p.toNat s.pin t.pin ∧ t.pin p.toNat = { s.pin p.toNat with lvl := lvl, lvlCyc := some s.cycle } ∧ t.psq q =
    { s.psq q with rfx := (t.psq q).rfx } ∧
      (¬ namesLane s p.toNat q l ∨ t.laneIn q l = (s.lane q l).lvl → t.lane q l = s.lane q l) ∧
      (namesLane s p.toNat q l → t.laneIn q l ≠ (s.lane q l).lvl → t.lane q l =
    { s.lane q l with lvl := t.laneIn q l, lvlCyc := some s.cycle, lvlPh := ph.toNat, edge := some ⟨s.cycle, t.laneIn q l, s.now + BitVec.ofNat 64 (ph.toNat * s.span / 8)⟩ }
    ∧
        (s.active = true → r < 4 → s.rb (.psqRfx q r) 31 = true → s.rf (.psqRfx q r) 2 0 = l → bit (s.reg (.psqRfx q r)) (if
    t.laneIn q l then 27 else 28) = true → ⟨s.cycle + 3, r, ph.toNat, t.laneIn q l⟩ ∈ (t.psq q).rfx)) ∧
      (s.active = false → t.psqs = s.psqs)) ∧
  (∀ (s : State) (q l p : Nat), p < 256 → s.passes p q l = true → (∀ j, j < p → s.passes j q l = false) → s.laneIn q l =
    (s.pin p).lvl) ∧
  (∀ (s : State) (q l : Nat), (∀ p, p < 256 → s.passes p q l = false) → s.laneIn q l = false) ∧
  (∀ (q : BitVec 6) (l : BitVec 3) (s : State), (s.lane q.toNat l.toNat).edge = none ∨ ¬ Answers s → Idle (.edgeRecognised q
    l) s) ∧
  (∀ (q : BitVec 6) (l : BitVec 3) (e : EdgeP) (s : State), (s.lane q.toNat l.toNat).edge = some e → Answers s → (s.cycle <
    e.cyc + s.rf (.psqLcfg q.toNat l.toNat) 23 20 → Idle (.edgeRecognised q l) s) ∧
      (e.cyc + s.rf (.psqLcfg q.toNat l.toNat) 23 20 ≤ s.cycle → e.lvl = (s.lane q.toNat l.toNat).fl → exec (.edgeRecognised q
    l) s = .next (s.setLane q.toNat l.toNat { s.lane q.toNat l.toNat with edge := none }))) ∧
  (∀ (q : BitVec 6) (l : BitVec 3) (e : EdgeP) (c f : Nat) (b : Bool) (s : State), (s.lane q.toNat l.toNat).edge = some e →
    Answers s → e.cyc + s.rf (.psqLcfg q.toNat l.toNat) 23 20 ≤ s.cycle → e.lvl ≠ (s.lane q.toNat l.toNat).fl →
      b = (bit (s.reg (.psqLcfg q.toNat l.toNat)) (if e.lvl then 29 else 30) && (s.active || s.mode == .hold)) → Leads
    (.edgeRecognised q l) s fun t => PsqFrame s t q.toNat ∧
      (t.lane q.toNat l.toNat) =
    { s.lane q.toNat l.toNat with edge := none, chg := (t.lane q.toNat l.toNat).chg, seen := (s.lane q.toNat l.toNat).seen ++ [{ e with cyc := s.cycle }], arr := (s.lane q.toNat l.toNat).arr ++ (if b then [(s.cycle + 1, lo32 e.time, e.lvl)] else []) }
    ∧
      (t.lane q.toNat l.toNat).fl = e.lvl ∧ RegsBut [.psqStat q.toNat] s t ∧ t.psq q.toNat =
    { s.psq q.toNat with c0 := (t.psq q.toNat).c0, c1 := (t.psq q.toNat).c1 } ∧
      (b = true → s.rb (.psqCtl q.toNat) 30 = true → t.flagSet (psqCl q.toNat) (s.rf (.psqCtl q.toNat) 23 16) = true) ∧
      (f < 256 → c ≠ psqCl q.toNat ∨ (∀ k, k < 2 → s.rb (.psqCnt q.toNat k) 31 = false ∨ s.rf (.psqCnt q.toNat k) 30 29 ≠ 2 ∨
    s.rb (.psqCnt q.toNat k) 19 = false ∨ f ≠ s.rf (.psqCnt q.toNat k) 15 8) →
        t.flagSet c f = (s.flagSet c f || (b && s.rb (.psqCtl q.toNat) 30 && c == psqCl q.toNat && f == s.rf (.psqCtl q.toNat)
    23 16)))) ∧
  (∀ (q : BitVec 6) (l : BitVec 3) (e : EdgeP) (k : Nat) (s : State), (s.lane q.toNat l.toNat).edge = some e → Answers s →
    e.cyc + s.rf (.psqLcfg q.toNat l.toNat) 23 20 ≤ s.cycle → e.lvl ≠ (s.lane q.toNat l.toNat).fl → k < 2 → Leads
    (.edgeRecognised q l) s fun t =>
      (s.active = false ∨ s.rb (.psqCnt q.toNat k) 31 = false ∨ s.rf (.psqCnt q.toNat k) 30 29 = 0 ∨ s.rf (.psqCnt q.toNat k)
    30 29 = 3 → t.cnt q.toNat k = s.cnt q.toNat k) ∧
      (s.active = true → s.rb (.psqCnt q.toNat k) 31 = true → s.rf (.psqCnt q.toNat k) 30 29 = 2 →
        (s.rf (.psqCnt q.toNat k) 22 20 = l.toNat → bit (s.reg (.psqLcfg q.toNat l.toNat)) (if e.lvl then 29 else 30) = true →
    CountsUp s t q.toNat k) ∧
        (s.rf (.psqCnt q.toNat k) 22 20 ≠ l.toNat ∨ bit (s.reg (.psqLcfg q.toNat l.toNat)) (if e.lvl then 29 else 30) = false
    → t.cnt q.toNat k = s.cnt q.toNat k)) ∧
      (s.active = true → s.rb (.psqCnt q.toNat k) 31 = true → s.rf (.psqCnt q.toNat k) 30 29 = 1 →
        (s.rf (.psqCnt q.toNat k) 22 20 = l.toNat → CountsQuad s t q.toNat k true (t.lane q.toNat (s.rf (.psqCnt q.toNat k) 22
    20)).fl (t.lane q.toNat (s.rf (.psqCnt q.toNat k) 18 16)).fl) ∧
        (s.rf (.psqCnt q.toNat k) 22 20 ≠ l.toNat → s.rf (.psqCnt q.toNat k) 18 16 = l.toNat → CountsQuad s t q.toNat k false
    (t.lane q.toNat (s.rf (.psqCnt q.toNat k) 22 20)).fl (t.lane q.toNat (s.rf (.psqCnt q.toNat k) 18 16)).fl) ∧
        (s.rf (.psqCnt q.toNat k) 22 20 ≠ l.toNat → s.rf (.psqCnt q.toNat k) 18 16 ≠ l.toNat → t.cnt q.toNat k = s.cnt q.toNat
    k))) ∧
  (∀ (q : BitVec 6) (k : BitVec 1) (j : Nat) (x : Counter) (w : Word) (s : State), x = s.cnt q.toNat k.toNat → w = s.reg
    (.psqCnt q.toNat k.toNat) → s.active = true → bit w 31 = true → fld w 30 29 = 0 → x.start < s.cycle → (s.cycle - x.start)
    % 2 ^ fld w 28 26 = 0 → x.ticked ≠ some s.cycle →
      j < 8 → Leads (.counterTick q k) s fun t => PsqFrame s t q.toNat ∧ CountsUp s t q.toNat k.toNat ∧ RegsBut [.psqStat
    q.toNat] s t ∧ t.cnt q.toNat (1 - k.toNat) = s.cnt q.toNat (1 - k.toNat) ∧
      t.psq q.toNat = { s.psq q.toNat with c0 := (t.psq q.toNat).c0, c1 := (t.psq q.toNat).c1 } ∧ t.lane q.toNat j = pwmLane t
    q.toNat k.toNat j (s.lane q.toNat j)) ∧
  (∀ (q : BitVec 6) (k : BitVec 1) (x : Counter) (w : Word) (s : State), x = s.cnt q.toNat k.toNat → w = s.reg (.psqCnt
    q.toNat k.toNat) → s.active = false ∨ bit w 31 = false ∨ fld w 30 29 ≠ 0 ∨ s.cycle ≤ x.start ∨ (s.cycle - x.start) % 2 ^
    fld w 28 26 ≠ 0 ∨ x.ticked = some s.cycle → Idle (.counterTick q k) s) ∧
  (∀ (q : BitVec 6) (r : BitVec 2) (x : Reflex) (w : Word) (j : Nat) (s : State), (s.psq q.toNat).rfx.find? (fun y => y.pair
    == r.toNat && decide (y.cyc ≤ s.cycle)) = some x → w = s.reg (.psqRfx q.toNat r.toNat) → s.active = true → bit w 31 = true
    → Leads (.reflexFire q r) s fun t =>
      PsqFrame s t q.toNat ∧ t.flags = s.flags ∧ t.psq q.toNat = { s.psq q.toNat with rfx := (s.psq q.toNat).rfx.erase x } ∧
    RegsBut [.psqRfx q.toNat r.toNat, .psqStat q.toNat] s t ∧
      t.rb (.psqRfx q.toNat r.toNat) 29 = true ∧ t.rb (.psqRfx q.toNat r.toNat) 31 = !bit w 30 ∧ t.rf (.psqRfx q.toNat
    r.toNat) 28 0 = fld w 28 0 ∧ t.rb (.psqRfx q.toNat r.toNat) 30 = bit w 30 ∧
      LaneTakes s t q.toNat (fld w 10 8) x.ph (5 - r.toNat) (if fld w 26 25 = 0 then .val false else if fld w 26 25 = 1 then
    .val true else if fld w 26 25 = 2 then .tgl else .val x.lvl) ∧
      (j < 8 → j ≠ fld w 10 8 → t.lane q.toNat j = s.lane q.toNat j)) ∧
  (∀ (q : BitVec 6) (r : BitVec 2) (x : Reflex) (s : State), (s.psq q.toNat).rfx.find? (fun y => y.pair == r.toNat && decide
    (y.cyc ≤ s.cycle)) = some x → s.active = false ∨ s.rb (.psqRfx q.toNat r.toNat) 31 = false →
      exec (.reflexFire q r) s = .next (s.setPsq q.toNat { s.psq q.toNat with rfx := (s.psq q.toNat).rfx.erase x })) ∧
  (∀ (q : BitVec 6) (r : BitVec 2) (s : State), (s.psq q.toNat).rfx.find? (fun y => y.pair == r.toNat && decide (y.cyc ≤
    s.cycle)) = none → Idle (.reflexFire q r) s) ∧
  (∀ (c : Chg) (l : List Chg), insertChg c l = l.takeWhile (fun d => decide (d.ph < c.ph ∨ (d.ph = c.ph ∧ d.pri ≤ c.pri))) ++
    c :: l.dropWhile (fun d => decide (d.ph < c.ph ∨ (d.ph = c.ph ∧ d.pri ≤ c.pri)))) ∧
  (∀ (s : State) (q l : Nat) (c : Chg), ((s.lane q l).chg = [] → (s.lane q l).out = ((s.lane q l).ov, (s.lane q l).oe)) ∧
    ((s.lane q l).chg.getLast? = some c → (s.lane q l).out = chgOut c.op ({ s.lane q l with chg := (s.lane q l).chg.dropLast }
    : Lane).out) ∧
      (s.settleLane q l).lane q l = { s.lane q l with ov := (s.lane q l).out.1, oe := (s.lane q l).out.2, chg := [] }) ∧
  (∀ (s : State) (q l c : Nat) (e : Word × Bool), (s.lane q l).arr = [(c, e)] → c ≤ s.cycle → ((s.lane q l).caps.length < 2 →
    s.settleCaps q l = s.setLane q l { s.lane q l with arr := [], caps := (s.lane q l).caps ++ [e] }) ∧
      (2 ≤ (s.lane q l).caps.length → (s.settleCaps q l).lane q l = { s.lane q l with arr := [] } ∧ RegsBut [.psqCapst q l] s
    (s.settleCaps q l) ∧ (s.settleCaps q l).rb (.psqCapst q l) 31 = true ∧ (s.settleCaps q l).rf (.psqCapst q l) 15 8 = min
    (s.rf (.psqCapst q l) 15 8 + 1) 255))

/-- PIN_CONFIG_WRITE, PIN_SLOT_WRITE, PARK_END, TDR_START, TDR_COMPLETE and LOAD_SENSE_FINDING. A write by a non-secure access
that a secure owner bars, or that would leave an enabled slot with a user that does not match, is refused with OWNER_DENY;
reserved values and changes of what an enabled slot uses, with CFG_REJECT. An accepted write sets the fields; an EN comes
into force at once with IMM, in CONFIGURE or while the pin's domain is disabled, else at the boundary. The user of the
lowest enabled slot is then chosen, from the next cycle; a different one parks the pin for two cycles, at whose end it takes
the pin. Its lanes see what now reaches them. A measurement starts on an idle pin alone and ends with its result. A load
finding is shown and reported when not 0. No other pin changes. -/
def Obligations.PinsFollowTheirOwnersAndSlots : Prop :=
  (∀ (acc : Acc) (p : Byte) (val : Word) (s : State), Open s acc → Barred s acc p.toNat (fld val 31 24) → exec
    (.pinConfigWrite acc p val) s = .next (refusal s acc 0x05 (0x5000 + 16 * p.toNat))) ∧
  (∀ (acc : Acc) (p : Byte) (val : Word) (s : State), Open s acc → ¬ Barred s acc p.toNat (fld val 31 24) → (0x22 < fld val 31
    24 ∧ fld val 31 24 ≠ 0x3F) ∨ fld val 21 20 = 3 ∨
      (s.mode ≠ .configure ∧ (∃ j ∈ upto 4, slotOn s p.toNat j = true) ∧ (fld val 31 20 ≠ s.rf (.hdgCfg p.toNat) 31 20 ∨ fld
    val 18 13 ≠ s.rf (.hdgCfg p.toNat) 18 13)) →
      exec (.pinConfigWrite acc p val) s = .next (refusal s acc 0x60 (0x5000 + 16 * p.toNat))) ∧
  (∀ (acc : Acc) (p : Byte) (val : Word) (j : Nat) (s : State), Open s acc → ¬ Barred s acc p.toNat (fld val 31 24) → (fld val
    31 24 ≤ 0x22 ∨ fld val 31 24 = 0x3F) → fld val 21 20 ≠ 3 → s.mode = .configure → j < 4 →
      slotOn s p.toNat j = true → userMatches (fld val 31 24) (s.slotUser p.toNat j).1 (s.slotUser p.toNat j).2 = false → exec
    (.pinConfigWrite acc p val) s = .next (refusal s acc 0x05 (0x5000 + 16 * p.toNat))) ∧
  (∀ (acc : Acc) (p : Byte) (val : Word) (s : State), Open s acc → ¬ Barred s acc p.toNat (fld val 31 24) → (fld val 31 24 ≤
    0x22 ∨ fld val 31 24 = 0x3F) → fld val 21 20 ≠ 3 →
      (s.mode = .configure ∨ (∀ j ∈ upto 4, slotOn s p.toNat j = false) ∨ (fld val 31 20 = s.rf (.hdgCfg p.toNat) 31 20 ∧ fld
    val 18 13 = s.rf (.hdgCfg p.toNat) 18 13)) →
      (∀ j ∈ upto 4, slotOn s p.toNat j = true → userMatches (fld val 31 24) (s.slotUser p.toNat j).1 (s.slotUser p.toNat j).2
    = true) → Leads (.pinConfigWrite acc p val) s fun t =>
      PinFrame s t p.toNat ∧ t.held = s.held ∧ t.rf (.hdgCfg p.toNat) 31 13 = fld val 31 13 ∧ RegsBut [.hdgCfg p.toNat,
    .cpxTdrres] s t ∧ Chosen s t p.toNat (s.cycle + 1)) ∧
  (∀ (acc : Acc) (p : Byte) (hi : Bool) (val : Word) (s : State), Open s acc → Barred s acc p.toNat 0 → exec (.pinSlotWrite
    acc p hi val) s = .next (refusal s acc 0x05 (Reg.hdgSlot p.toNat (b2n hi)).off)) ∧
  (∀ (acc : Acc) (p : Byte) (hi : Bool) (val : Word) (i : Nat) (x : Word) (s : State), Open s acc → ¬ Barred s acc p.toNat 0 →
    i < 2 → x = slotHalf val i → userListed (fld x 13 12) (fld x 8 0) = false ∨
      (s.mode ≠ .configure ∧ slotOn s p.toNat (2 * b2n hi + i) = true ∧ s.slotUser p.toNat (2 * b2n hi + i) ≠ (fld x 13 12,
    fld x 8 0)) →
      exec (.pinSlotWrite acc p hi val) s = .next (refusal s acc 0x60 (Reg.hdgSlot p.toNat (b2n hi)).off)) ∧
  (∀ (acc : Acc) (p : Byte) (hi : Bool) (val : Word) (i : Nat) (x : Word) (s : State), Open s acc → ¬ Barred s acc p.toNat 0 →
    (∀ k ∈ upto 2, userListed (fld (slotHalf val k) 13 12) (fld (slotHalf val k) 8 0) = true) → s.mode = .configure → i < 2 →
    x = slotHalf val i → bit x 15 = true →
      userMatches (s.owner p.toNat) (fld x 13 12) (fld x 8 0) = false → exec (.pinSlotWrite acc p hi val) s = .next (refusal s
    acc 0x05 (Reg.hdgSlot p.toNat (b2n hi)).off)) ∧
  (∀ (acc : Acc) (p : Byte) (hi : Bool) (val : Word) (s : State), Open s acc → ¬ Barred s acc p.toNat 0 → (∀ i ∈ upto 2,
    SlotFits s p.toNat (2 * b2n hi + i) (slotHalf val i)) → Leads (.pinSlotWrite acc p hi val) s fun t => PinFrame s t p.toNat
    ∧
      RegsBut [.hdgSlot p.toNat (b2n hi), .cpxTdrres] s t ∧ Chosen s t p.toNat (s.cycle + 1) ∧ t.rb (.hdgSlot p.toNat (b2n
    hi)) 30 = bit val 30 ∧ t.rb (.hdgSlot p.toNat (b2n hi)) 14 = bit val 14 ∧
      (∀ i, i < 2 → t.slotUser p.toNat (2 * b2n hi + i) = (fld (slotHalf val i) 13 12, fld (slotHalf val i) 8 0) ∧
    t.slotShadow p.toNat (2 * b2n hi + i) = bit (slotHalf val i) 15 ∧
        t.slotEn p.toNat (2 * b2n hi + i) = if bit (slotHalf val i) 14 = true ∨ s.mode = .configure ∨ s.domEn (s.rf (.hdgCfg
    p.toNat) 23 22) = false then bit (slotHalf val i) 15 else s.slotEn p.toNat (2 * b2n hi + i)) ∧
      (∀ i, i < 2 → t.slotEn p.toNat (2 * (1 - b2n hi) + i) = s.slotEn p.toNat (2 * (1 - b2n hi) + i))) ∧
  (∀ (p : Byte) (n : Nat) (s : State), (s.pin p.toNat).parkTil = some n → n ≤ s.cycle → Answers s → s.mode ≠ .hold → exec
    (.parkEnd p) s = .next (s.setPin p.toNat { s.pin p.toNat with parkTil := none })) ∧
  (∀ (p : Byte) (n : Nat) (s : State), (s.pin p.toNat).parkTil = none ∨ ((s.pin p.toNat).parkTil = some n ∧ s.cycle < n) ∨ ¬
    Answers s ∨ s.mode = .hold → Idle (.parkEnd p) s) ∧
  (∀ (acc : Acc) (p : Byte) (s : State), Open s acc → s.tdrPin = none → (s.pin p.toNat).user = none → s.rf (.hdgCfg p.toNat)
    21 20 = 0 → s.owner p.toNat ≠ 0x21 → Leads (.tdrStart acc p) s fun t => t =
    { s with regs := t.regs, tdrPin := some p.toNat } ∧
      t.rf .cpxTdrctl 7 0 = p.toNat ∧ RegsBut [.cpxTdrctl] s t) ∧
  (∀ (acc : Acc) (p : Byte) (s : State), Open s acc → s.tdrPin ≠ none ∨ (s.pin p.toNat).user ≠ none ∨ s.rf (.hdgCfg p.toNat)
    21 20 ≠ 0 ∨ s.owner p.toNat = 0x21 → exec (.tdrStart acc p) s = .next (refusal s acc 0x60 0x300)) ∧
  (∀ (fail : Bool) (pol : Bool) (rt : BitVec 11) (p : Nat) (s : State), s.tdrPin = some p → p < 256 → Leads (.tdrComplete fail
    pol rt) s fun t => t = { s with regs := t.regs, tdrPin := none } ∧ RegsBut [.cpxTdrres] s t ∧
      t.reg .cpxTdrres = 1#1 ++ BitVec.ofBool fail ++ BitVec.ofBool pol ++ 0#5 ++ BitVec.ofNat 8 p ++ 0#5 ++ rt) ∧
  (∀ (fail : Bool) (pol : Bool) (rt : BitVec 11) (s : State), s.tdrPin = none → Idle (.tdrComplete fail pol rt) s) ∧
  (∀ (p : Byte) (f : BitVec 2) (s : State), Answers s → s.rb (.hdgCfg p.toNat) 19 = true → (∀ v, s.pinOut p.toNat = some (v,
    false) → False) → f ≠ 3 → s.rf (.hdgIo p.toNat) 23 22 ≠ f.toNat → Leads (.loadSenseFinding p f) s fun t => t =
    { s with regs := t.regs, reports := t.reports } ∧
      t.rf (.hdgIo p.toNat) 23 22 = f.toNat ∧ t.rf (.hdgIo p.toNat) 21 0 = s.rf (.hdgIo p.toNat) 21 0 ∧ t.rf (.hdgIo p.toNat)
    31 24 = s.rf (.hdgIo p.toNat) 31 24 ∧ RegsBut [.hdgIo p.toNat] s t ∧
      t.reports = s.reports ++ (if f = 0 then [] else [⟨s.cycle + 1, 0x71, 12, p.toNat, f.setWidth 32, 0, false⟩])) ∧
  (∀ (p : Byte) (f : BitVec 2) (v : Bool) (s : State), ¬ Answers s ∨ s.rb (.hdgCfg p.toNat) 19 = false ∨ s.pinOut p.toNat =
    some (v, false) ∨ f = 3 ∨ s.rf (.hdgIo p.toNat) 23 22 = f.toNat → Idle (.loadSenseFinding p f) s) ∧
  (∀ (s : State) (p k i : Nat), s.mode = .run → (s.pin p).parkTil = none → ((s.pin p).user = none → s.pinOut p = some
    (s.parkLevel p)) ∧ ((s.pin p).user = some (0, k) → s.pinOut p = some (s.portOut (s.owner p) p, true)) ∧
      ((s.pin p).user = some (1, 8 * k + i) → i < 8 → s.pinOut p = some (s.lane k i).out) ∧ ((s.pin p).user = some (3, 0) →
    s.pinOut p = some (s.rb (.hdgIo p) 0, s.rb (.hdgIo p) 1))) ∧
  (∀ (s : State) (p n : Nat), s.active = true → (s.pin p).parkTil = some n → s.pinOut p = some (s.parkLevel p)) ∧
  (∀ (s : State) (p : Nat), s.parkLevel p = if s.rf (.hdgCfg p) 21 20 = 1 then (false, true) else if s.rf (.hdgCfg p) 21 20 =
    2 then (true, true) else (false, false))

/-- MBU_ENABLE, AN_RESTART and MBU_TDR_START by the host or the Camin port; AN_COMPLETE, LINK_UP, LINK_DOWN, PROBE_TIMEOUT and
MBU_TDR_COMPLETE. Enabling sets the fields, RXHEAD 0, and abandons a measurement; a change of IF or SPEED drops the link.
Reserved codes and class-S changes of an enabled MBU are refused. A link comes up only at the coding and rate in use, after
auto-negotiation with full duplex where that is on (log 47), and not at RGMII 1000 with an increment above 32. Its fall sets
LDOWN. RESTART drops the link and ANDONE; completion records the partner's page. A probe tries the next coding in turn. A
measurement runs on a disabled MBU12 to MBU15, one at a time, and writes its result. Nothing else changes. -/
def Obligations.LinksFollowTheirMedia : Prop :=
  (∀ (acc : Acc) (m : BitVec 4) (ctl : Word) (v : Word) (s : State), Open s acc → v = setBit ctl 31 true → MbuReserved s
    m.toNat v ∨ (s.rb (.mbuCtl m.toNat) 31 = true ∧ ¬ MbuSame s m.toNat v ∧ s.mode ≠ .configure) →
      exec (.mbuEnable acc m ctl) s = .next (refusal s acc 0x60 (Reg.mbuCtl m.toNat).off)) ∧
  (∀ (acc : Acc) (m : BitVec 4) (ctl : Word) (v : Word) (s : State), Open s acc → v = setBit ctl 31 true → ¬ MbuReserved s
    m.toNat v → s.rb (.mbuCtl m.toNat) 31 = false ∨ MbuSame s m.toNat v ∨ s.mode = .configure → Leads (.mbuEnable acc m ctl) s
    fun t =>
      MbuFrame s t m.toNat [.mbuCtl m.toNat, .mbuRxhead m.toNat, .mbuTdrres m.toNat, .mbuLink m.toNat] ∧ t.rf (.mbuCtl
    m.toNat) 31 26 = fld v 31 26 ∧ t.rf (.mbuCtl m.toNat) 18 0 = fld v 18 0 ∧
      (s.rb (.mbuCtl m.toNat) 31 = false → t.reg (.mbuRxhead m.toNat) = 0 ∧ t.mbu m.toNat =
    { s.mbu m.toNat with probe := 0, tdr := false } ∧
        t.reg (.mbuTdrres m.toNat) = if (s.mbu m.toNat).tdr then 0xC0000000 else s.reg (.mbuTdrres m.toNat)) ∧
      (s.rb (.mbuCtl m.toNat) 31 = true → t.reg (.mbuRxhead m.toNat) = s.reg (.mbuRxhead m.toNat) ∧ t.reg (.mbuTdrres m.toNat)
    = s.reg (.mbuTdrres m.toNat)) ∧
      (fld v 30 26 = s.rf (.mbuCtl m.toNat) 30 26 → t.reg (.mbuLink m.toNat) = s.reg (.mbuLink m.toNat)) ∧
      (fld v 30 26 ≠ s.rf (.mbuCtl m.toNat) 30 26 → LinkFallen s t m.toNat ∧ t.rf (.mbuLink m.toNat) 30 28 = fld v 30 28)) ∧
  (∀ (acc : Acc) (m : BitVec 4) (s : State), Open s acc → 12 ≤ m.toNat → s.rb (.mbuCtl m.toNat) 31 = false → (s.mbu
    m.toNat).tdr = false → exec (.mbuTdrStart acc m) s = .next (s.setMbu m.toNat { s.mbu m.toNat with tdr := true })) ∧
  (∀ (acc : Acc) (m : BitVec 4) (s : State), Open s acc → 12 ≤ m.toNat → s.rb (.mbuCtl m.toNat) 31 = true ∨ (s.mbu
    m.toNat).tdr = true → exec (.mbuTdrStart acc m) s = .next (refusal s acc 0x60 (Reg.mbuTdrctl m.toNat).off)) ∧
  (∀ (acc : Acc) (m : BitVec 4) (s : State), Open s acc → m.toNat < 12 → exec (.mbuTdrStart acc m) s = .next (refusal s acc
    0x04 (Reg.mbuTdrctl m.toNat).off)) ∧
  (∀ (m : BitVec 4) (fail : Bool) (pol : Bool) (rt : BitVec 11) (s : State), (s.mbu m.toNat).tdr = true → Answers s → Leads
    (.mbuTdrComplete m fail pol rt) s fun t => MbuFrame s t m.toNat [.mbuTdrres m.toNat] ∧ t.mbu m.toNat =
    { s.mbu m.toNat with tdr := false } ∧
      t.reg (.mbuTdrres m.toNat) = 1#1 ++ BitVec.ofBool fail ++ BitVec.ofBool pol ++ 0#18 ++ rt) ∧
  (∀ (m : BitVec 4) (fail : Bool) (pol : Bool) (rt : BitVec 11) (s : State), (s.mbu m.toNat).tdr = false ∨ ¬ Answers s → Idle
    (.mbuTdrComplete m fail pol rt) s) ∧
  (∀ (acc : Acc) (m : BitVec 4) (anen : Bool) (adv : Half) (s : State), Open s acc → anen = true → s.rf (.mbuCtl m.toNat) 30
    28 ≠ 4 → exec (.anRestart acc m anen adv) s = .next (refusal s acc 0x60 (Reg.mbuAn m.toNat).off)) ∧
  (∀ (acc : Acc) (m : BitVec 4) (anen : Bool) (adv : Half) (s : State), Open s acc → anen = false ∨ s.rf (.mbuCtl m.toNat) 30
    28 = 4 → Leads (.anRestart acc m anen adv) s fun t => MbuFrame s t m.toNat [.mbuAn m.toNat, .mbuLink m.toNat] ∧ LinkFallen
    s t m.toNat ∧
      t.rb (.mbuAn m.toNat) 31 = anen ∧ t.rf (.mbuAn m.toNat) 15 0 = adv.toNat ∧ t.rb (.mbuLink m.toNat) 25 = false ∧ t.rf
    (.mbuLink m.toNat) 27 26 = s.rf (.mbuLink m.toNat) 27 26 ∧ t.rb (.mbuLink m.toNat) 24 = s.rb (.mbuLink m.toNat) 24 ∧
      (s.rb (.mbuLink m.toNat) 31 = false → t.mbus = s.mbus ∧ t.rf (.mbuLink m.toNat) 30 28 = s.rf (.mbuLink m.toNat) 30 28)) ∧
  (∀ (m : BitVec 4) (page : Half) (s : State), Answers s → s.rb (.mbuCtl m.toNat) 31 = true → s.rb (.mbuAn m.toNat) 31 = true
    → s.rf (.mbuCtl m.toNat) 30 28 = 4 → s.rb (.mbuLink m.toNat) 25 = false → exec (.anComplete m page) s = .next ((s.setRb
    (.mbuLink m.toNat) 25 true).setReg (.mbuLp m.toNat) (1#1 ++ 0#15 ++ page))) ∧
  (∀ (m : BitVec 4) (page : Half) (s : State), ¬ Answers s ∨ s.rb (.mbuCtl m.toNat) 31 = false ∨ s.rb (.mbuAn m.toNat) 31 =
    false ∨ s.rf (.mbuCtl m.toNat) 30 28 ≠ 4 ∨ s.rb (.mbuLink m.toNat) 25 = true → Idle (.anComplete m page) s) ∧
  (∀ (m : BitVec 4) (ifu : BitVec 3) (spu : BitVec 2) (sdtx : Half) (sdrx : Half) (sp : Nat) (s : State), sp = (if 4 ≤
    ifu.toNat then 0 else spu.toNat) → MayRise s m.toNat ifu.toNat sp → Leads (.linkUp m ifu spu sdtx sdrx) s fun t =>
    MbuFrame s t m.toNat [.mbuLink m.toNat, .mbuSdlat m.toNat] ∧ t.mbus = s.mbus ∧ t.rb (.mbuLink m.toNat) 31 = true ∧
      t.rf (.mbuLink m.toNat) 30 28 = ifu.toNat ∧ t.rf (.mbuLink m.toNat) 27 26 = sp ∧ t.rf (.mbuLink m.toNat) 25 0 = s.rf
    (.mbuLink m.toNat) 25 0 ∧
      t.reg (.mbuSdlat m.toNat) = if 4 ≤ ifu.toNat then sdtx ++ sdrx else s.reg (.mbuSdlat m.toNat)) ∧
  (∀ (m : BitVec 4) (ifu : BitVec 3) (spu : BitVec 2) (sdtx : Half) (sdrx : Half) (sp : Nat) (s : State), sp = (if 4 ≤
    ifu.toNat then 0 else spu.toNat) → ¬ MayRise s m.toNat ifu.toNat sp → Idle (.linkUp m ifu spu sdtx sdrx) s) ∧
  (∀ (m : BitVec 4) (s : State), Leads (.linkDown m) s fun t => MbuFrame s t m.toNat [.mbuLink m.toNat] ∧ LinkFallen s t
    m.toNat ∧ t.rb (.mbuLink m.toNat) 25 = (s.rb (.mbuLink m.toNat) 25 && !s.rb (.mbuAn m.toNat) 31) ∧ t.rf (.mbuLink m.toNat)
    27 26 = s.rf (.mbuLink m.toNat) 27 26 ∧
      t.rb (.mbuLink m.toNat) 24 = s.rb (.mbuLink m.toNat) 24 ∧ (s.rb (.mbuLink m.toNat) 31 = false → t.mbus = s.mbus ∧ t.rf
    (.mbuLink m.toNat) 30 28 = s.rf (.mbuLink m.toNat) 30 28)) ∧
  (∀ (m : BitVec 4) (s : State), Answers s → s.rb (.mbuCtl m.toNat) 31 = true → s.rf (.mbuCtl m.toNat) 30 28 = 7 → s.rb
    (.mbuLink m.toNat) 31 = false → Leads (.probeTimeout m) s fun t => t = { s with mbus := t.mbus } ∧ OnlyAt m.toNat s.mbu
    t.mbu ∧
      t.mbu m.toNat = { s.mbu m.toNat with probe := (t.mbu m.toNat).probe } ∧ (probeIf (s.mbu m.toNat).probe = 6 → probeIf
    (t.mbu m.toNat).probe = 5) ∧ (probeIf (s.mbu m.toNat).probe = 5 → probeIf (t.mbu m.toNat).probe = 4) ∧ (probeIf (s.mbu
    m.toNat).probe = 4 → probeIf (t.mbu m.toNat).probe = 6)) ∧
  (∀ (m : BitVec 4) (s : State), ¬ Answers s ∨ s.rb (.mbuCtl m.toNat) 31 = false ∨ s.rf (.mbuCtl m.toNat) 30 28 ≠ 7 ∨ s.rb
    (.mbuLink m.toNat) 31 = true → Idle (.probeTimeout m) s)

/-- QUEUE_ENABLE, QUEUE_STOP, DOORBELL, DESCRIPTOR_LOAD, FRAME_LAUNCH, TRANSMIT_COMPLETE, FRAME_RECEIVE and FORWARD_LAUNCH. An
enabled queue reads its head at HEAD 0; a stop discards every owned descriptor with RES 3. A doorbell clears its flag and
asks for each owned head. A head is loaded with its frame, or finished with RES 5 or 6 and a report. A due head that the
order lets start leaves with its FCS and padding, on time or late, or is discarded with RES 2 or 4. A result is written
before OWN falls and HEAD moves. A received frame is stored with its header, stamps and counts, or dropped and counted; a
forwarded one leaves the partner, changed only by inserts. The CRC is that of IEEE 802.3 (log 20). No other byte, queue or
MBU changes. -/
def Obligations.FramesAreSentReceivedAndForwarded : Prop :=
  (∀ (acc : Acc) (m : BitVec 4) (j : BitVec 6) (cfg : Word) (v : Word) (s : State), Open s acc → v = setBit cfg 31 true → 8 <
    fld v 27 24 ∨ 0x80000 < 32 * fld v 13 0 + 32 * 2 ^ fld v 27 24 ∨ (s.rb (.mbuFqcfg m.toNat j.toNat) 31 = true ∧ s.mode ≠
    .configure ∧ ¬ (fld v 30 29 = s.rf (.mbuFqcfg m.toNat j.toNat) 30 29 ∧ fld v 27 16 = s.rf (.mbuFqcfg m.toNat j.toNat) 27
    16 ∧ fld v 13 0 = s.rf (.mbuFqcfg m.toNat j.toNat) 13 0)) →
      exec (.queueEnable acc m j cfg) s = .next (refusal s acc 0x60 (Reg.mbuFqcfg m.toNat j.toNat).off)) ∧
  (∀ (acc : Acc) (m : BitVec 4) (j : BitVec 6) (cfg : Word) (v : Word) (s : State), Open s acc → v = setBit cfg 31 true → fld
    v 27 24 ≤ 8 → 32 * fld v 13 0 + 32 * 2 ^ fld v 27 24 ≤ 0x80000 → s.rb (.mbuFqcfg m.toNat j.toNat) 31 = false → QueueIdle s
    m.toNat j.toNat → Leads (.queueEnable acc m j cfg) s fun t =>
      MbuFrame s t m.toNat [.mbuFqcfg m.toNat j.toNat, .mbuFqst m.toNat j.toNat] ∧ t.rf (.mbuFqcfg m.toNat j.toNat) 31 29 =
    fld v 31 29 ∧ t.rf (.mbuFqcfg m.toNat j.toNat) 27 16 = fld v 27 16 ∧ t.rf (.mbuFqcfg m.toNat j.toNat) 13 0 = fld v 13 0 ∧
      t.rf (.mbuFqst m.toNat j.toNat) 7 0 = 0 ∧ t.mbu m.toNat =
    { s.mbu m.toNat with want := if s.active = true ∧ bit (s.word (headKey t m.toNat j.toNat)) 31 = false then (s.mbu m.toNat).want else (s.mbu m.toNat).want ++ [j.toNat] }) ∧
  (∀ (acc : Acc) (m : BitVec 4) (j : BitVec 6) (cfg : Word) (v : Word) (s : State), Open s acc → v = setBit cfg 31 true → fld
    v 27 24 ≤ 8 → 32 * fld v 13 0 + 32 * 2 ^ fld v 27 24 ≤ 0x80000 → s.rb (.mbuFqcfg m.toNat j.toNat) 31 = true → fld v 30 29
    = s.rf (.mbuFqcfg m.toNat j.toNat) 30 29 → fld v 27 16 = s.rf (.mbuFqcfg m.toNat j.toNat) 27 16 → fld v 13 0 = s.rf
    (.mbuFqcfg m.toNat j.toNat) 13 0 → Idle (.queueEnable acc m j cfg) s) ∧
  (∀ (acc : Acc) (m : BitVec 4) (j : BitVec 6) (s : State), Open s acc → s.rb (.mbuFqcfg m.toNat j.toNat) 31 = false →
    HeadFits s m.toNat j.toNat → 32 * s.rf (.mbuFqcfg m.toNat j.toNat) 13 0 + 32 * 2 ^ s.rf (.mbuFqcfg m.toNat j.toNat) 27 24
    ≤ 0x80000 → Idle (.queueStop acc m j) s) ∧
  (∀ (acc : Acc) (m : BitVec 4) (j : BitVec 6) (k i : Nat) (s : State), Open s acc → WindowFits s → s.rb (.mbuFqcfg m.toNat
    j.toNat) 31 = true → HeadFits s m.toNat j.toNat → 32 * s.rf (.mbuFqcfg m.toNat j.toNat) 13 0 + 32 * 2 ^ s.rf (.mbuFqcfg
    m.toNat j.toNat) 27 24 ≤ 0x80000 →
      ((s.mbu m.toNat).fin.any fun d => d.queue == j.toNat) = false → i < 0x1010000 → k = headKey s m.toNat j.toNat → Leads
    (.queueStop acc m j) s fun t => RegsBut ([.mbuFqcfg m.toNat j.toNat, .mbuFqst m.toNat j.toNat, .mbuCnt m.toNat 12] ++
    memRegs) s t ∧
      t = { s with regs := t.regs, heads := t.heads, mbus := t.mbus, ram := t.ram, ecc := t.ecc, scrubs := t.scrubs, gleaner := t.gleaner }
    ∧ OnlyAt m.toNat s.mbu t.mbu ∧
      t.rb (.mbuFqcfg m.toNat j.toNat) 31 = false ∧ t.rf (.mbuFqcfg m.toNat j.toNat) 30 0 = s.rf (.mbuFqcfg m.toNat j.toNat)
    30 0 ∧ t.head m.toNat j.toNat = none ∧ t.mbu m.toNat =
    { s.mbu m.toNat with want := (s.mbu m.toNat).want.filter (· != j.toNat) } ∧
      bit (t.word (headKey t m.toNat j.toNat)) 31 = false ∧ (bit (s.word k) 31 = true → t.word k = setBit (s.word k) 31 false
    ∧ t.word (k + 16) = 0 ∧ t.word (k + 20) = 0 ∧ t.word (k + 24) = 3) ∧
      (bit (s.word k) 31 = false → t.ram = s.ram ∧ t.rf (.mbuFqst m.toNat j.toNat) 7 0 = s.rf (.mbuFqst m.toNat j.toNat) 7 0 ∧
    t.reg (.mbuCnt m.toNat 12) = s.reg (.mbuCnt m.toNat 12)) ∧
      (i < ringBase s m.toNat j.toNat ∨ ringBase s m.toNat j.toNat + 32 * 2 ^ s.rf (.mbuFqcfg m.toNat j.toNat) 27 24 ≤ i →
    t.byteAt i = s.byteAt i)) ∧
  (∀ (m : BitVec 4) (s : State), s.active = false ∨ s.rb (.mbuCtl m.toNat) 31 = false ∨ s.flagNow (s.rf (.mbuCtl m.toNat) 18
    16) (s.rf (.mbuCtl m.toNat) 7 0) = false → Idle (.doorbell m) s) ∧
  (∀ (m : BitVec 4) (j c f : Nat) (s : State), s.active = true → s.rb (.mbuCtl m.toNat) 31 = true → s.flagNow (s.rf (.mbuCtl
    m.toNat) 18 16) (s.rf (.mbuCtl m.toNat) 7 0) = true → j < 64 → f < 256 → Leads (.doorbell m) s fun t => t =
    { s with flags := t.flags, mbus := t.mbus } ∧ OnlyAt m.toNat s.mbu t.mbu ∧
      t.mbu m.toNat = { s.mbu m.toNat with want := (t.mbu m.toNat).want } ∧ (j ∈ (t.mbu m.toNat).want ↔ j ∈ (s.mbu
    m.toNat).want ∨ (s.rb (.mbuFqcfg m.toNat j) 31 = true ∧ s.head m.toNat j = none ∧ ((s.mbu m.toNat).fin.any fun d =>
    d.queue == j) = false ∧ bit (s.word (headKey s m.toNat j)) 31 = true)) ∧
      t.flagSet c f = (s.flagSet c f && !(c == s.rf (.mbuCtl m.toNat) 18 16 && f == s.rf (.mbuCtl m.toNat) 7 0 && (s.flag c
    f).last != s.cycle + 1))) ∧
  (∀ (m : BitVec 4) (j : BitVec 6) (k : Nat) (s : State), k = headKey s m.toNat j.toNat → (s.active = false ∨ (s.mbu
    m.toNat).want.contains j.toNat = false → Idle (.descriptorLoad m j) s) ∧
      (s.active = true → (s.mbu m.toNat).want.contains j.toNat = true → s.rb (.mbuFqcfg m.toNat j.toNat) 31 = false ∨ s.head
    m.toNat j.toNat ≠ none ∨ bit (s.word k) 31 = false →
        exec (.descriptorLoad m j) s = .next (s.setMbu m.toNat
    { s.mbu m.toNat with want := (s.mbu m.toNat).want.filter (· != j.toNat) }))) ∧
  (∀ (m : BitVec 4) (j : BitVec 6) (k kb : Nat) (s : State), s.active = true → (s.mbu m.toNat).want.contains j.toNat = true →
    s.rb (.mbuFqcfg m.toNat j.toNat) 31 = true → s.head m.toNat j.toNat = none → k = headKey s m.toNat j.toNat → bit (s.word
    k) 31 = true → Clean s k 16 → kb = s.mbuKey m.toNat (fld (s.word (k + 4)) 18 0) →
      (¬ DescValid (s.word k) (s.word (k + 4)) (s.word (k + 12)) → exec (.descriptorLoad m j) s = .next
    { s.setMbu m.toNat { s.mbu m.toNat with want := (s.mbu m.toNat).want.filter (· != j.toNat), fin := (s.mbu m.toNat).fin ++ [⟨j.toNat, 0, 6⟩] } with reports := s.reports ++ [⟨s.cycle + 1, 0x60, 4, 64 * m.toNat + j.toNat, BitVec.ofNat 32 (32 * s.rf (.mbuFqcfg m.toNat j.toNat) 13 0 + 32 * s.rf (.mbuFqst m.toNat j.toNat) 7 0), 0, false⟩] })
    ∧
      (DescValid (s.word k) (s.word (k + 4)) (s.word (k + 12)) → Clean s kb (fld (s.word k) 12 0) → exec (.descriptorLoad m j)
    s = .next ((s.setMbu m.toNat { s.mbu m.toNat with want := (s.mbu m.toNat).want.filter (· != j.toNat) }).setHead m.toNat
    j.toNat (some ⟨s.word k, s.word (k + 8), s.bytesAt kb (fld (s.word k) 12 0)⟩))) ∧
      (DescValid (s.word k) (s.word (k + 4)) (s.word (k + 12)) → s.gleaner.ph ≠ .test → granules kb (fld (s.word k) 12 0) =
    [granOf kb] → s.mark (granOf kb) = .bad → Leads (.descriptorLoad m j) s fun t => (t.mbu m.toNat).fin = (s.mbu m.toNat).fin
    ++ [⟨j.toNat, 0, 5⟩] ∧ t.head m.toNat j.toNat = none ∧
        t.reports = s.reports ++ [⟨s.cycle + 1, 0x41, 4, 64 * m.toNat + j.toNat, ueWord (granOf kb), 0, false⟩] ∧ RegsBut
    [.cpxUerec] s t ∧ t = { s with heads := t.heads, mbus := t.mbus, regs := t.regs, reports := t.reports })) ∧
  (∀ (m : BitVec 4) (j : BitVec 6) (raw : DWord) (h : FqHead) (s : State), s.head m.toNat j.toNat = some h → s.active = true →
    s.rb (.mbuLink m.toNat) 31 = false → bit h.w0 30 = true ∨ (s.now32 - h.time).toNat < 2 ^ 31 → Leads (.frameLaunch m j raw)
    s fun t => Finished s t m.toNat j.toNat 11 0 4 ∧ t.reports = s.reports ∧ t.mbu m.toNat =
    { s.mbu m.toNat with fin := (t.mbu m.toNat).fin }) ∧
  (∀ (m : BitVec 4) (j : BitVec 6) (raw : DWord) (h : FqHead) (s : State), s.head m.toNat j.toNat = some h → s.active = true →
    s.rb (.mbuLink m.toNat) 31 = true → s.mayStart m.toNat j.toNat h raw = true →
      (bit h.w0 30 = true ∨ (lo32 raw - h.time).toNat * 10 ≤ s.granule m.toNat → Leads (.frameLaunch m j raw) s fun t =>
    Finished s t m.toNat j.toNat 8 (raw + BitVec.ofNat 64 (s.rf (.mbuElat m.toNat) 19 0)) 0 ∧ t.reports = s.reports ∧ (t.mbu
    m.toNat).sent = some ⟨txOctets h, raw⟩) ∧
      (bit h.w0 30 = false → s.granule m.toNat < (lo32 raw - h.time).toNat * 10 → s.rb (.mbuFqcfg m.toNat j.toNat) 30 = false
    → Leads (.frameLaunch m j raw) s fun t => Finished s t m.toNat j.toNat 9 (raw + BitVec.ofNat 64 (s.rf (.mbuElat m.toNat)
    19 0)) 1 ∧ t.reports = s.reports ++ [lateReport s m.toNat j.toNat h.time 0] ∧ (t.mbu m.toNat).sent = some ⟨txOctets h,
    raw⟩) ∧
      (bit h.w0 30 = false → s.granule m.toNat < (lo32 raw - h.time).toNat * 10 → s.rb (.mbuFqcfg m.toNat j.toNat) 30 = true →
    Leads (.frameLaunch m j raw) s fun t => Finished s t m.toNat j.toNat 10 0 2 ∧ t.reports = s.reports ++ [lateReport s
    m.toNat j.toNat h.time 1] ∧ (t.mbu m.toNat).sent = (s.mbu m.toNat).sent)) ∧
  (∀ (m : BitVec 4) (j : BitVec 6) (raw : DWord) (h : FqHead) (s : State), s.head m.toNat j.toNat = none ∨ s.active = false ∨
    (s.head m.toNat j.toNat = some h ∧ s.rb (.mbuLink m.toNat) 31 = true ∧ s.mayStart m.toNat j.toNat h raw = false) ∨ (s.head
    m.toNat j.toNat = some h ∧ s.rb (.mbuLink m.toNat) 31 = false ∧ bit h.w0 30 = false ∧ 2 ^ 31 ≤ (s.now32 - h.time).toNat) →
    Idle (.frameLaunch m j raw) s) ∧
  (∀ (h : FqHead), (bit h.w0 29 = true → txOctets h = h.frame) ∧ (bit h.w0 29 = false → (txOctets h).take h.frame.length =
    h.frame ∧ (txOctets h).length = max 60 h.frame.length + 4 ∧ fcsGood (txOctets h) = true)) ∧
  (∀ (m : BitVec 4) (j : BitVec 6) (d : TxDone) (l : List TxDone) (k i c f : Nat) (s : State), Answers s → WindowFits s →
    (s.mbu m.toNat).fin.filter (fun e => e.queue == j.toNat) = d :: l → (∀ e ∈ (s.mbu m.toNat).fin, e.res < 256) → k = headKey
    s m.toNat j.toNat → i < 0x1010000 → f < 256 → Leads (.transmitComplete m j) s fun t =>
      t.word (k + 16) = lo32 d.stamp ∧ t.word (k + 20) = hi32 d.stamp ∧ t.word (k + 24) = BitVec.ofNat 32 d.res ∧ t.word k =
    setBit (s.word k) 31 false ∧ (i < k ∨ (k + 4 ≤ i ∧ i < k + 16) ∨ k + 28 ≤ i → t.byteAt i = s.byteAt i) ∧
      t.rf (.mbuFqst m.toNat j.toNat) 7 0 = (s.rf (.mbuFqst m.toNat j.toNat) 7 0 + 1) % 2 ^ s.rf (.mbuFqcfg m.toNat j.toNat)
    27 24 % 256 ∧ RegsBut (.mbuFqst m.toNat j.toNat :: memRegs) s t ∧
      (t.mbu m.toNat).fin = (s.mbu m.toNat).fin.filter (fun e => e.queue != j.toNat) ∧ OnlyAt m.toNat s.mbu t.mbu ∧ t.heads =
    s.heads ∧
      t = { s with regs := t.regs, mbus := t.mbus, ram := t.ram, ecc := t.ecc, scrubs := t.scrubs, gleaner := t.gleaner, flags := t.flags }
    ∧
      t.flagSet c f = (s.flagSet c f || (s.rb (.mbuFqcfg m.toNat j.toNat) 29 && c == s.mbuCl m.toNat && f == s.rf (.mbuFqcfg
    m.toNat j.toNat) 23 16))) ∧
  (∀ (m : BitVec 4) (j : BitVec 6) (s : State), ¬ Answers s ∨ ((s.mbu m.toNat).fin.any fun d => d.queue == j.toNat) = false →
    Idle (.transmitComplete m j) s) ∧
  (∀ (m : BitVec 4) (fr : Frame) (s : State), ¬ Arrives s m.toNat → Idle (.frameReceive m fr) s) ∧
  (∀ (m : BitVec 4) (fr : Frame) (k i c f : Nat) (s : State), Arrives s m.toNat → WindowFits s → s.mode ≠ .configure → (s.mbu
    m.toNat).fwd = none → fcsGood fr.octets = true ∨ s.rb (.mbuRxcfg m.toNat) 31 = true → k = rxKey s m.toNat → k + rxSize s
    m.toNat ≤ 0x1010000 → bit (s.word k) 31 = false → i < 0x1010000 → f < 256 → Leads (.frameReceive m fr) s fun t =>
      t.word k = rxWord0 s m.toNat fr (fcsGood fr.octets) false ∧ t.word (k + 4) = (s.mbu m.toNat).seq + 1 ∧ mk64 (t.word (k +
    12)) (t.word (k + 8)) = fr.raw - BitVec.ofNat 64 (s.rf (.mbuIlat m.toNat) 19 0) - (s.reg (.mbuAsym m.toNat)).signExtend 64
    ∧
      (∀ z ∈ [16, 20, 24, 28], t.word (k + z) = 0) ∧ (i < rxKept s m.toNat fr → t.byteAt (k + 32 + i) = fr.octets.getD i 0) ∧
    (i < k ∨ k + 32 + rxKept s m.toNat fr ≤ i → t.byteAt i = s.byteAt i) ∧
      t.rf (.mbuRxhead m.toNat) 9 0 = (s.rf (.mbuRxhead m.toNat) 9 0 + 1) % 2 ^ s.rf (.mbuRxcfg m.toNat) 27 24 % 1024 ∧
    ErrorCounts s t m.toNat fr ∧ Counts s t m.toNat 0 true ∧ Counts s t m.toNat 4 (decide (rxSize s m.toNat - 32 <
    fr.octets.length)) ∧
      RegsBut ([.mbuRxhead m.toNat, .mbuCnt m.toNat 0, .mbuCnt m.toNat 1, .mbuCnt m.toNat 2, .mbuCnt m.toNat 3, .mbuCnt
    m.toNat 4, .mbuCnt m.toNat 5] ++ memRegs) s t ∧ OnlyAt m.toNat s.mbu t.mbu ∧ t.mbu m.toNat =
    { s.mbu m.toNat with seq := (s.mbu m.toNat).seq + 1 } ∧
      t = { s with regs := t.regs, mbus := t.mbus, ram := t.ram, ecc := t.ecc, scrubs := t.scrubs, gleaner := t.gleaner, flags := t.flags }
    ∧
      t.flagSet c f = (s.flagSet c f || (s.rb (.mbuRxcfg m.toNat) 30 && c == s.mbuCl m.toNat && f == s.rf (.mbuRxcfg m.toNat)
    23 16))) ∧
  (∀ (m : BitVec 4) (fr : Frame) (s : State), Arrives s m.toNat → (s.mbu m.toNat).fwd = none → s.mode = .configure ∨ (fcsGood
    fr.octets = false ∧ s.rb (.mbuRxcfg m.toNat) 31 = false) ∨ bit (s.word (rxKey s m.toNat)) 31 = true → Leads (.frameReceive
    m fr) s fun t =>
      t = { s with regs := t.regs, mbus := t.mbus } ∧ OnlyAt m.toNat s.mbu t.mbu ∧ t.mbu m.toNat =
    { s.mbu m.toNat with seq := (s.mbu m.toNat).seq + 1 } ∧ RegsBut [.mbuCnt m.toNat 1, .mbuCnt m.toNat 2, .mbuCnt m.toNat 3,
    .mbuCnt m.toNat 5, .mbuCnt m.toNat 6, .mbuCnt m.toNat 7] s t ∧
      (s.mode = .configure → Counts s t m.toNat 7 true ∧ Counts s t m.toNat 1 false) ∧ (s.mode ≠ .configure → ErrorCounts s t
    m.toNat fr ∧ Counts s t m.toNat 6 (fcsGood fr.octets || s.rb (.mbuRxcfg m.toNat) 31))) ∧
  (∀ (m : BitVec 4) (fr : Frame) (g : Fwd) (s : State), Arrives s m.toNat → (s.mbu m.toNat).fwd = some g → g.inserts = [] →
    s.rb (.mbuFwd m.toNat) 30 = false → fcsGood fr.octets = false ∨ g.splice = false ∨ s.active = false → 8 * fr.octets.length
    ≤ 32768 → Leads (.frameReceive m fr) s fun t =>
      (t.mbu (partner m.toNat)).sent = some ⟨fr.octets, g.raw⟩ ∧ (t.mbu m.toNat).fwd = none ∧ Counts s t m.toNat 13 true ∧
    Counts s t m.toNat 15 false ∧ Counts s t m.toNat 14 (decide (160 * s.rf (.mbuFwd m.toNat) 15 0 + s.granule (partner
    m.toNat) < (g.raw - fr.raw).toNat * 10)) ∧
      t = { s with regs := t.regs, mbus := t.mbus } ∧ (∀ i, i ≠ m.toNat → i ≠ partner m.toNat → t.mbu i = s.mbu i)) ∧
  (∀ (m : BitVec 4) (fr : Frame) (g : Fwd) (e i a : Nat) (s : State), Arrives s m.toNat → WindowFits s → (s.mbu m.toNat).fwd =
    some g → g.inserts = [] → s.rb (.mbuFwd m.toNat) 30 = false → fcsGood fr.octets = true → g.splice = true → s.active = true
    → e < 8 → s.spliceApplies m.toNat e fr.octets = true → s.rb (.mbuSplCtl m.toNat e) 30 = false → (∀ d, d < 8 → d ≠ e → s.rb
    (.mbuSplCtl m.toNat d) 31 = false) →
      a = s.rf (.mbuSplAddr m.toNat e) 18 0 → a + 64 ≤ 0x80000 → i < 0x1010000 → Leads (.frameReceive m fr) s fun t =>
      t.byteAt i = (if s.mbuKey m.toNat a ≤ i ∧ i < s.mbuKey m.toNat a + (s.rf (.mbuSplCtl m.toNat e) 27 22 + 1) then
    fr.octets.getD (s.rf (.mbuSplCtl m.toNat e) 21 11 + (i - s.mbuKey m.toNat a)) 0 else s.byteAt i) ∧
      (s.rb (.mbuSplAddr m.toNat e) 31 = true → t.flagSet (s.mbuCl m.toNat) (s.rf (.mbuSplAddr m.toNat e) 28 21) = true)) ∧
  (∀ (s : State) (m e : Nat) (l : List Byte), s.spliceApplies m e l = true ↔ s.rb (.mbuSplCtl m e) 31 = true ∧ s.rf
    (.mbuSplCtl m e) 21 11 + s.rf (.mbuSplCtl m e) 27 22 + 1 ≤ l.length ∧ octetWord l (s.rf (.mbuSplCtl m e) 10 0) &&& s.reg
    (.mbuSplMmask m e) = s.reg (.mbuSplMval m e)) ∧
  (∀ (s : State) (m e i : Nat) (g : Fwd) (d l : List Byte) (good : Bool), g.inserts = [(e, d)] → s.spliceApplies m e l = true
    → d.length = s.rf (.mbuSplCtl m e) 27 22 + 1 → 4 ≤ l.length → s.rf (.mbuSplCtl m e) 21 11 + d.length + 4 ≤ l.length →
      (s.forwardCopy m g l good).length = l.length ∧ fcsGood (s.forwardCopy m g l good) = good ∧ (i + 4 < l.length →
    (s.forwardCopy m g l good).getD i 0 = if s.rf (.mbuSplCtl m e) 21 11 ≤ i ∧ i < s.rf (.mbuSplCtl m e) 21 11 + d.length then
    d.getD (i - s.rf (.mbuSplCtl m e) 21 11) 0 else l.getD i 0)) ∧
  (∀ (m : BitVec 4) (raw : DWord) (s : State), ¬ Answers s ∨ s.rb (.mbuLink m.toNat) 31 = false ∨ s.rb (.mbuFwd m.toNat) 31 =
    false ∨ (s.mbu m.toNat).fwd.isSome = true → Idle (.forwardLaunch m raw) s) ∧
  (∀ (m : BitVec 4) (raw : DWord) (s : State), Answers s → s.rb (.mbuLink m.toNat) 31 = true → s.rb (.mbuFwd m.toNat) 31 =
    true → (s.mbu m.toNat).fwd = none →
      (¬ (s.rb (.mbuLink (partner m.toNat)) 31 = true ∧ s.rate (partner m.toNat) = s.rate m.toNat ∧ (flatLimits (s.rate
    m.toNat)).1 ≤ s.rf (.mbuFwd m.toNat) 15 0 ∧ s.rf (.mbuFwd m.toNat) 15 0 ≤ (flatLimits (s.rate m.toNat)).2) → exec
    (.forwardLaunch m raw) s = .next (s.setRb (.mbuLink m.toNat) 24 true)) ∧
      (s.rb (.mbuLink (partner m.toNat)) 31 = true → s.rate (partner m.toNat) = s.rate m.toNat → (flatLimits (s.rate
    m.toNat)).1 ≤ s.rf (.mbuFwd m.toNat) 15 0 → s.rf (.mbuFwd m.toNat) 15 0 ≤ (flatLimits (s.rate m.toNat)).2 → Leads
    (.forwardLaunch m raw) s fun t =>
        MbuFrame s t m.toNat [.mbuLink m.toNat] ∧ t.rb (.mbuLink m.toNat) 24 = false ∧ t.rf (.mbuLink m.toNat) 31 25 = s.rf
    (.mbuLink m.toNat) 31 25 ∧ ∃ g ∈ (t.mbu m.toNat).fwd, t.mbu m.toNat = { s.mbu m.toNat with fwd := some g } ∧ g.raw = raw ∧
    g.stamp = raw + BitVec.ofNat 64 (s.rf (.mbuElat (partner m.toNat)) 19 0) ∧ g.splice = s.active ∧
        (∀ x ∈ g.inserts, s.active = true ∧ s.rb (.mbuSplCtl m.toNat x.1) 31 = true ∧ s.rb (.mbuSplCtl m.toNat x.1) 30 = true
    ∧ x.2 = s.spliceSource m.toNat x.1) ∧ ∀ e, e < 8 → s.active = true → s.rb (.mbuSplCtl m.toNat e) 31 = true → s.rb
    (.mbuSplCtl m.toNat e) 30 = true → (e, s.spliceSource m.toNat e) ∈ g.inserts))

/-- FAULT_REPORT, FAULT_LOG_POP, ORDER_ARM, ORDER_DISARM and STANDING_ORDER_EXECUTE. The first report of an earlier cycle, by
cycle, code and source, becomes a record with the next SEQ, is counted, and takes the place of the oldest of 128. The orders
that match it become pending in RUN (ONCE disarms them) or count in REHEARSE; a CFG_REJECT is captured while none is held. A
pop removes the head whose SEQ it names. Arming is refused where R359 says so and disarming cancels. In RUN one order a
cycle executes, the earliest pending, then the lowest-numbered: its sheaf commits whole and every other sheaf that holds one
of its lines aborts, its pins take their owner and slots, its pair its forwarding, the source thread stops, thread TSTART
starts, HOLD is requested for the next cycle; what it could not do shows in SOR_STAT. Without the fault sheaf only what the
steps name changes. Nothing happens where nothing is due. -/
def Obligations.FaultsAreRecordedAndOrdersAct : Prop :=
  (∀ (s : State), (∀ r ∈ s.reports, s.cycle ≤ r.cyc) → Idle (.faultReport) s) ∧
  (∀ (r : Report) (o : Nat) (s : State), NextReport s r → r.skind < 16 → r.sidx < 4096 → o < 32 → Leads (.faultReport) s fun t
    =>
      t = { s with reports := s.reports.erase r, regs := t.regs, log := t.log, seq := s.seq + 1, orders := t.orders } ∧
      t.log = (if s.log.length < 128 then s.log else s.log.drop 1) ++ [⟨r.code, r.reh || decide (s.mode = .rehearse), (upto
    32).any (triggered s r), decide (s.mode = .run) && (upto 32).any (fun o => triggered s r o && !pends s o), ((upto
    32).find? (triggered s r)).getD 0, r.skind, r.sidx, r.da, r.db, s.now, s.seq⟩] ∧
      t.reg (.fltCnt r.code) = satAdd (s.reg (.fltCnt r.code)) 1 ∧ (s.log.length < 128 → t.reg .fltStat = s.reg .fltStat) ∧
    (128 ≤ s.log.length → t.reg .fltStat = setBit (upOne (s.reg .fltStat) 23 16) 31 true) ∧
      (r.code = 0x60 → s.rb .fltCfgrej 31 = false → t.rb .fltCfgrej 31 = true ∧ t.rf .fltCfgrej 15 12 = r.skind ∧ t.rf
    .fltCfgrej 11 0 = r.sidx ∧ t.reg .fltCfgadr = r.da) ∧ (r.code ≠ 0x60 ∨ s.rb .fltCfgrej 31 = true → t.reg .fltCfgrej =
    s.reg .fltCfgrej ∧ t.reg .fltCfgadr = s.reg .fltCfgadr) ∧
      t.reg (.sorCtl o) = (if s.mode = .run ∧ triggered s r o = true ∧ s.rb (.sorCtl o) 30 = true then setBit (s.reg (.sorCtl
    o)) 31 false else s.reg (.sorCtl o)) ∧ t.reg (.sorStat o) = (if s.mode = .rehearse ∧ triggered s r o = true then upOne
    (s.reg (.sorStat o)) 15 8 else s.reg (.sorStat o)) ∧
      t.orders = s.orders ++ (if s.mode = .run then ((upto 32).filter (fun o => triggered s r o && !pends s o)).map (fun o =>
    ⟨o, r.skind, r.sidx, s.cycle⟩) else []) ∧
      RegsBut ([.fltCnt r.code, .fltStat, .fltCfgrej, .fltCfgadr] ++ (upto 32).map .sorCtl ++ (upto 32).map .sorStat) s t) ∧
  (∀ (acc : Acc) (seq : Half) (s : State), Open s acc → (∀ r, s.log.head? = some r → r.seq = seq → exec (.faultLogPop acc seq)
    s = .next { s with log := s.log.tail }) ∧ ((∀ r ∈ s.log.head?, r.seq ≠ seq) → Idle (.faultLogPop acc seq) s)) ∧
  (∀ (acc : Acc) (o : BitVec 5) (ctl : Word) (v : Word) (s : State), Open s acc → v = setBit ctl 31 true → ArmRefused s
    o.toNat v → exec (.orderArm acc o ctl) s = .next (refusal s acc 0x60 (Reg.sorCtl o.toNat).off)) ∧
  (∀ (acc : Acc) (o : BitVec 5) (ctl : Word) (v : Word) (s : State), Open s acc → v = setBit ctl 31 true → ¬ ArmRefused s
    o.toNat v → Leads (.orderArm acc o ctl) s fun t => t = { s with regs := t.regs } ∧ RegsBut [.sorCtl o.toNat] s t ∧
      t.rf (.sorCtl o.toNat) 31 30 = fld v 31 30 ∧ t.rf (.sorCtl o.toNat) 23 20 = fld v 23 20 ∧ t.rf (.sorCtl o.toNat) 7 0 =
    fld v 7 0) ∧
  (∀ (acc : Acc) (o : BitVec 5) (s : State), Open s acc → s.rf (.sorCtl o.toNat) 23 20 ≠ 14 → Leads (.orderDisarm acc o) s fun
    t => t = { s with regs := t.regs, orders := t.orders } ∧ RegsBut [.sorCtl o.toNat] s t ∧
      t.rb (.sorCtl o.toNat) 31 = false ∧ t.rf (.sorCtl o.toNat) 30 0 = s.rf (.sorCtl o.toNat) 30 0 ∧ (s.rb (.sorCtl o.toNat)
    31 = true → t.orders = s.orders.filter (fun p => p.ord != o.toNat)) ∧ (s.rb (.sorCtl o.toNat) 31 = false → t.orders =
    s.orders)) ∧
  (∀ (s : State), s.mode ≠ .run ∨ s.ordered = some s.cycle ∨ (∀ p ∈ s.orders, s.cycle ≤ p.cyc) → Idle (.standingOrderExecute)
    s) ∧
  (∀ (p : Pend) (i j : Nat) (s : State), s.mode = .run → s.ordered ≠ some s.cycle → NextOrder s p → i < 256 → j < 4 → Leads
    (.standingOrderExecute) s fun t =>
      t.mode = .run ∧ t.log = s.log ∧ t.orders = s.orders.erase p ∧ t.ordered = some s.cycle ∧ t.reg64 (.sorXtime p.ord) =
    s.now ∧ t.rf (.sorStat p.ord) 31 16 = min 65535 (s.rf (.sorStat p.ord) 31 16 + 1) ∧ t.rf (.sorStat p.ord) 15 7 = s.rf
    (.sorStat p.ord) 15 7 ∧
      t.holdReq = (if s.rb (.sorAct p.ord) 31 then some (.order, s.cycle + 1) else s.holdReq) ∧
      (s.rb (.sorAct p.ord) 29 = false → t =
    { s with orders := t.orders, ordered := t.ordered, holdReq := t.holdReq, regs := t.regs, held := t.held, pins := t.pins, tdrPin := t.tdrPin, lanes := t.lanes, psqs := t.psqs, threads := t.threads, chans := t.chans, reports := t.reports })
    ∧
      (t.rb (.sorStat p.ord) 6 = true ↔ s.rb (.sorStat p.ord) 6 = true ∨ ∃ i, i < 256 ∧ movesPin s p.ord i = true ∧ ∃ j, j < 4
    ∧ s.rb (.sorPmov p.ord) (20 + j) = true ∧ movesSlot s p.ord i j = false) ∧
      (t.rb (.sorStat p.ord) 5 = true ↔ s.rb (.sorStat p.ord) 5 = true ∨ (s.rf (.sorAct p.ord) 27 26 ≠ 0 ∧ p.skind ≠ 0)) ∧
      t.owner i = (if movesPin s p.ord i then s.rf (.sorPmov p.ord) 31 24 else s.owner i) ∧ t.slotEn i j = (if movesPin s
    p.ord i then movesSlot s p.ord i j else s.slotEn i j) ∧ t.slotShadow i j = (if movesPin s p.ord i then movesSlot s p.ord i
    j else s.slotShadow i j) ∧
      t.rf (.hdgCfg i) 23 0 = s.rf (.hdgCfg i) 23 0 ∧ t.slotUser i j = s.slotUser i j ∧ t.rb (.hdgSlot i (j / 2)) (16 * (j %
    2) + 14) = s.rb (.hdgSlot i (j / 2)) (16 * (j % 2) + 14) ∧
      (movesPin s p.ord i = true → activeUser t i = (s.pin i).user → t.pin i =
    { s.pin i with slot := (t.activeSlot i).getD 0 }) ∧ (movesPin s p.ord i = true → activeUser t i ≠ (s.pin i).user → t.pin i
    = { s.pin i with user := activeUser t i, slot := (t.activeSlot i).getD 0, parkTil := some (s.cycle + 2), reh := none }) ∧
    (movesPin s p.ord i = false → t.pin i = s.pin i) ∧
      t.rb (.mbuFwd i) 31 = (if s.rb (.sorAct p.ord) 28 = true ∧ i / 2 = s.rf (.sorAct p.ord) 2 0 then (s.rf (.sorAct p.ord) 4
    3 == 2 || s.rf (.sorAct p.ord) 4 3 == i % 2) else s.rb (.mbuFwd i) 31) ∧ t.rf (.mbuFwd i) 30 0 = s.rf (.mbuFwd i) 30 0) ∧
  (∀ (p : Pend) (g : Nat) (s : State), s.mode = .run → s.ordered ≠ some s.cycle → NextOrder s p → s.rb (.sorAct p.ord) 29 =
    false → Leads (.standingOrderExecute) s fun t =>
      (s.rf (.sorAct p.ord) 27 26 = 1 → p.skind = 0 → g = p.sidx → (s.rb (.sorAct p.ord) 25 = false ∨ s.rf (.sorAct p.ord) 24
    16 ≠ g) →
        ((s.thr g).st = .ready → t.thr g =
    { s.thr g with stopReq := if (s.thr g).stopReq.isSome then (s.thr g).stopReq else some s.cycle }) ∧ ((s.thr g).st ≠ .ready
    → (t.thr g).st = .idle)) ∧
      (s.rf (.sorAct p.ord) 27 26 = 2 → p.skind = 0 → g = p.sidx → (s.thr g).st ≠ .idle →
        ((s.thr g).st = .ready → (s.thr g).haltReq = none → t.thr g = { s.thr g with haltReq := some (5, s.cycle) }) ∧ ((s.thr
    g).st ≠ .ready → (t.thr g).st = .halted ∧ ((s.thr g).st ≠ .halted → (t.thr g).cause = 5 ∧ (t.thr g).prior = (s.thr
    g).st))) ∧
      (s.rb (.sorAct p.ord) 25 = true → g = s.rf (.sorAct p.ord) 24 16 → s.rf (.sorAct p.ord) 27 26 = 0 ∨ p.skind ≠ 0 ∨ p.sidx
    ≠ g →
        ((s.thr g).st = .idle → (t.thr g).st = .ready ∧ (t.thr g).pc = (s.thr g).pc ∧ s.cycle < (t.thr g).next ∧ t.rb
    (.sorStat p.ord) 3 = s.rb (.sorStat p.ord) 3) ∧ ((s.thr g).st ≠ .idle → t.thr g = s.thr g ∧ t.rb (.sorStat p.ord) 3 =
    true)) ∧
      (¬ (s.rf (.sorAct p.ord) 27 26 ≠ 0 ∧ p.skind = 0 ∧ g = p.sidx) → ¬ (s.rb (.sorAct p.ord) 25 = true ∧ g = s.rf (.sorAct
    p.ord) 24 16) → t.thr g = s.thr g)) ∧
  (∀ (p : Pend) (x a y l : Nat) (s : State), s.mode = .run → s.ordered ≠ some s.cycle → NextOrder s p → s.rb (.sorAct p.ord)
    29 = true → x = s.rf (.sorAct p.ord) 15 8 →
      (s.isFault x = true → (s.ctx x).st = .complete → (s.ctx x).reh = false → HeldOnce s → WindowFits s → s.posted.all (fun w
    => w.gen != some (x, (s.ctx x).uid)) = true → a < 0x200000 → Leads (.standingOrderExecute) s fun t =>
        t.byteAt (t.liveKey a) = (if s.holds x (a / 64) = true then s.byteAt (s.ctxKey x a) else s.byteAt (s.liveKey a)) ∧
    (t.ctx x).st = .free ∧ t.commits = s.commits ++ [⟨s.cycle, none, (s.ctx x).held, true⟩] ∧ t.rb (.sorStat p.ord) 4 = s.rb
    (.sorStat p.ord) 4 ∧
        (y ≠ x → (s.ctx y).st = .opened ∨ (s.ctx y).st = .complete → s.holds x l = true → s.holds y l = true → (t.ctx y).st =
    (if s.isFault y then .free else .aborted) ∧ t.rf (.shfCres y) 31 29 = 4 ∧ t.rf (.shfCres y) 14 0 ≤ l)) ∧
      (s.isFault x = false ∨ (s.ctx x).st ≠ .complete ∨ (s.ctx x).reh = true → Leads (.standingOrderExecute) s fun t => t.rb
    (.sorStat p.ord) 4 = true ∧ t.ram = s.ram ∧ t.commits = s.commits ∧ (∃ r ∈ t.reports, r.code = 0x32 ∧ r.skind = 2 ∧ r.sidx
    = x ∧ r.cyc = s.cycle + 1) ∧
        (s.isFault x = false → t.ctx x = s.ctx x) ∧ (s.isFault x = true → (s.ctx x).st = .opened ∨ (s.ctx x).st = .complete →
    (t.ctx x).st = .free ∧ t.rf (.shfCres x) 31 29 = 3)))
end

