-- ==== Sys2Proof/Laws/Tab.lean ====
section
/-! SUPPORT. Sparse tables: what a put leaves at each key, and that every table operation keeps the canonical form. -/
namespace Sys2Proof.Laws
open Sys2Proof.Machine

variable {α : Type} [DecidableEq α] {d : Nat → α}

omit [DecidableEq α] in
theorem get_erase (t : Tab α) (k j : Nat) : Tab.get d (t.erase k) j = if j = k then d j else Tab.get d t j := by
  induction t with
  | nil => simp [Tab.erase, Tab.get]
  | cons e r ih =>
    obtain ⟨i, v⟩ := e
    by_cases hk : k = i <;> by_cases hj : j = i <;> simp_all [Tab.erase, Tab.get]
    all_goals grind

omit [DecidableEq α] in
theorem get_insert (t : Tab α) (k : Nat) (v : α) (j : Nat) (h : Tab.get d t k = d k) (hn : ∀ e ∈ t, e.1 ≠ k) :
    Tab.get d (t.insert k v) j = if j = k then v else Tab.get d t j := by
  induction t with
  | nil => simp [Tab.insert, Tab.get]
  | cons e r ih =>
    obtain ⟨i, w⟩ := e
    have hi : i ≠ k := hn (i, w) (by simp)
    have hr : ∀ e ∈ r, e.1 ≠ k := fun e he => hn e (by simp [he])
    have hg : Tab.get d r k = d k := by simpa [Tab.get, Ne.symm hi] using h
    by_cases hlt : k < i <;> simp only [Tab.insert, hlt, if_true, if_false, Tab.get, ih hg hr]
    all_goals grind

omit [DecidableEq α] in
theorem erase_keys (t : Tab α) (k : Nat) : ∀ e ∈ t.erase k, e.1 ≠ k := by
  induction t with
  | nil => simp [Tab.erase]
  | cons e r ih =>
    obtain ⟨i, v⟩ := e
    by_cases hk : k = i
    · subst hk; simp only [Tab.erase, if_true]; exact ih
    · simp only [Tab.erase, hk, if_false, List.mem_cons, forall_eq_or_imp]
      exact ⟨fun h => hk h.symm, ih⟩

/-- What a put leaves at each key. -/
theorem get_put (t : Tab α) (k : Nat) (v : α) (j : Nat) :
    Tab.get d (Tab.put d t k v) j = if j = k then v else Tab.get d t j := by
  unfold Tab.put
  split
  · rename_i h
    rw [get_erase]
    by_cases hj : j = k
    · subst hj; simp [h]
    · simp [hj]
  · rw [get_insert _ _ _ _ (by simp [get_erase]) (erase_keys t k), get_erase]
    by_cases hj : j = k <;> simp [hj]

@[simp] theorem get_put_same (t : Tab α) (k : Nat) (v : α) : Tab.get d (Tab.put d t k v) k = v := by simp [get_put]

theorem get_put_other (t : Tab α) {k j : Nat} (v : α) (h : j ≠ k) : Tab.get d (Tab.put d t k v) j = Tab.get d t j := by
  simp [get_put, h]

theorem wfFrom_weaken {t : Tab α} {a b : Option Nat} (h : Tab.wfFrom d b t = true)
    (hab : ∀ l, a = some l → ∃ m, b = some m ∧ l ≤ m) : Tab.wfFrom d a t = true := by
  cases t with
  | nil => rfl
  | cons e r =>
    obtain ⟨j, v⟩ := e
    simp only [Tab.wfFrom, Bool.and_eq_true, decide_eq_true_eq] at h ⊢
    refine ⟨⟨?_, h.1.2⟩, h.2⟩
    cases a with
    | none => rfl
    | some l =>
      obtain ⟨m, rfl, hle⟩ := hab l rfl
      have := h.1.1
      simp only [decide_eq_true_eq] at this ⊢
      omega

theorem wfFrom_erase {t : Tab α} {lo : Option Nat} (k : Nat) (h : Tab.wfFrom d lo t = true) :
    Tab.wfFrom d lo (t.erase k) = true := by
  induction t generalizing lo with
  | nil => rfl
  | cons e r ih =>
    obtain ⟨j, v⟩ := e
    simp only [Tab.wfFrom, Bool.and_eq_true, decide_eq_true_eq] at h
    by_cases hk : k = j
    · subst hk; simp only [Tab.erase, if_true]
      refine wfFrom_weaken (b := some k) (ih h.2) fun l hl => ⟨k, rfl, ?_⟩
      subst hl; exact Nat.le_of_lt (by simpa using h.1.1)
    · simp only [Tab.erase, hk, if_false, Tab.wfFrom, Bool.and_eq_true, decide_eq_true_eq]
      exact ⟨h.1, ih h.2⟩

theorem wfFrom_insert {t : Tab α} {lo : Option Nat} {k : Nat} {v : α} (h : Tab.wfFrom d lo t = true)
    (hlo : ∀ l, lo = some l → l < k) (hv : v ≠ d k) (hn : ∀ e ∈ t, e.1 ≠ k) : Tab.wfFrom d lo (t.insert k v) = true := by
  induction t generalizing lo with
  | nil =>
    cases lo with
    | none => simp [Tab.insert, Tab.wfFrom, hv]
    | some l => simp [Tab.insert, Tab.wfFrom, hv, hlo l rfl]
  | cons e r ih =>
    obtain ⟨j, w⟩ := e
    have hj : j ≠ k := hn (j, w) (by simp)
    simp only [Tab.wfFrom, Bool.and_eq_true, decide_eq_true_eq] at h
    by_cases hlt : k < j
    · rw [Tab.insert, if_pos hlt]
      simp only [Tab.wfFrom, Bool.and_eq_true, decide_eq_true_eq]
      refine ⟨⟨?_, hv⟩, ⟨hlt, h.1.2⟩, h.2⟩
      cases lo with
      | none => rfl
      | some l => simpa using hlo l rfl
    · simp only [Tab.insert, hlt, if_false, Tab.wfFrom, Bool.and_eq_true, decide_eq_true_eq]
      refine ⟨h.1, ih h.2 (fun l hl => ?_) fun e he => hn e (by simp [he])⟩
      cases hl; omega

/-- A put keeps the canonical form. -/
theorem wf_put {t : Tab α} (k : Nat) (v : α) (h : Tab.wf d t = true) : Tab.wf d (Tab.put d t k v) = true := by
  unfold Tab.put
  split
  · exact wfFrom_erase k h
  · rename_i hv
    exact wfFrom_insert (wfFrom_erase k h) (by simp) hv (erase_keys t k)

/-- Dropping entries keeps the canonical form. -/
theorem wfFrom_filter {t : Tab α} {lo : Option Nat} (p : Nat × α → Bool) (h : Tab.wfFrom d lo t = true) :
    Tab.wfFrom d lo (t.filter p) = true := by
  induction t generalizing lo with
  | nil => rfl
  | cons e r ih =>
    obtain ⟨j, v⟩ := e
    simp only [Tab.wfFrom, Bool.and_eq_true, decide_eq_true_eq] at h
    cases hp : p (j, v)
    · simp only [List.filter, hp]
      refine wfFrom_weaken (b := some j) (ih h.2) fun l hl => ⟨j, rfl, ?_⟩
      subst hl; exact Nat.le_of_lt (by simpa using h.1.1)
    · simp only [List.filter, hp, Tab.wfFrom, Bool.and_eq_true, decide_eq_true_eq]
      exact ⟨h.1, ih h.2⟩

theorem wf_filter {t : Tab α} (p : Nat × α → Bool) (h : Tab.wf d t = true) : Tab.wf d (t.filter p) = true :=
  wfFrom_filter p h

end Sys2Proof.Laws
end

