-- ==== Sys2Proof/Laws/Still.lean ====
section
/-! SUPPORT. What every operation below the modes leaves as it is: the modes and their records, the clock's counts, the queue;
and that every memory operation keeps the canonical form of the memories. -/
namespace Sys2Proof.Laws
set_option linter.unusedTactic false
set_option linter.unreachableTactic false
open Sys2Proof.Machine

/-- The modes and their records, the clock's counts and the queue stay, and the memories keep their canonical form. -/
structure Still (s t : State) : Prop where
  mode : t.mode = s.mode
  off : t.off = s.off
  heldFrom : t.heldFrom = s.heldFrom
  holdSrc : t.holdSrc = s.holdSrc
  settled : t.settled = s.settled
  cycle : t.cycle = s.cycle
  sptr : t.sptr = s.sptr
  half : t.half = s.half
  pending : t.pending = s.pending
  ram : Memory.wf s.ram = true → Memory.wf t.ram = true
  chip : Memory.wf s.chip = true → Memory.wf t.chip = true

theorem Still.refl (s : State) : Still s s := ⟨rfl, rfl, rfl, rfl, rfl, rfl, rfl, rfl, rfl, id, id⟩

theorem Still.trans {a b c : State} (h : Still a b) (k : Still b c) : Still a c :=
  ⟨k.1.trans h.1, k.2.trans h.2, k.3.trans h.3, k.4.trans h.4, k.5.trans h.5, k.6.trans h.6, k.7.trans h.7, k.8.trans h.8,
   k.9.trans h.9, k.10 ∘ h.10, k.11 ∘ h.11⟩

variable {s0 : State}

theorem still_fst {α : Type} {p : State × α} {a : State} {b : α} (e : p = (a, b)) (h : Still s0 p.1) : Still s0 a := by
  subst e; exact h

theorem each_still {α : Type} {s : State} {l : List α} {f : State → α → State} (h : Still s0 s)
    (hf : ∀ s x, Still s0 s → Still s0 (f s x)) : Still s0 (s.each l f) := by
  unfold State.each
  induction l generalizing s with
  | nil => exact h
  | cons x r ih => exact ih (hf _ _ h)

theorem foldl_still {α : Type} {s : State} {l : List α} {f : State → α → State} (h : Still s0 s)
    (hf : ∀ s x, Still s0 s → Still s0 (f s x)) : Still s0 (l.foldl f s) := each_still h hf

theorem ite_still {p : Prop} [Decidable p] {a b : State} (ha : Still s0 a) (hb : Still s0 b) : Still s0 (if p then a else b) := by
  split
  · exact ha
  · exact hb

theorem upd_pend_still {s : State} (x : Option Mode) (h : Still s0 s) : Still s0 { s with pend := x } :=
  h.trans ⟨rfl, rfl, rfl, rfl, rfl, rfl, rfl, rfl, rfl, id, id⟩

theorem upd_pendCyc_still {s : State} (x : Nat) (h : Still s0 s) : Still s0 { s with pendCyc := x } :=
  h.trans ⟨rfl, rfl, rfl, rfl, rfl, rfl, rfl, rfl, rfl, id, id⟩

theorem upd_regs_still {s : State} (x : Tab Word) (h : Still s0 s) : Still s0 { s with regs := x } :=
  h.trans ⟨rfl, rfl, rfl, rfl, rfl, rfl, rfl, rfl, rfl, id, id⟩

theorem upd_held_still {s : State} (x : Tab (Option Held)) (h : Still s0 s) : Still s0 { s with held := x } :=
  h.trans ⟨rfl, rfl, rfl, rfl, rfl, rfl, rfl, rfl, rfl, id, id⟩

theorem upd_ecc_still {s : State} (x : Tab EccMark) (h : Still s0 s) : Still s0 { s with ecc := x } :=
  h.trans ⟨rfl, rfl, rfl, rfl, rfl, rfl, rfl, rfl, rfl, id, id⟩

theorem upd_scrubs_still {s : State} (x : List Nat) (h : Still s0 s) : Still s0 { s with scrubs := x } :=
  h.trans ⟨rfl, rfl, rfl, rfl, rfl, rfl, rfl, rfl, rfl, id, id⟩

theorem upd_ver_still {s : State} (x : Tab Bool) (h : Still s0 s) : Still s0 { s with ver := x } :=
  h.trans ⟨rfl, rfl, rfl, rfl, rfl, rfl, rfl, rfl, rfl, id, id⟩

theorem upd_claims_still {s : State} (x : Tab (Option Nat)) (h : Still s0 s) : Still s0 { s with claims := x } :=
  h.trans ⟨rfl, rfl, rfl, rfl, rfl, rfl, rfl, rfl, rfl, id, id⟩

theorem upd_side_still {s : State} (x : Tab (Option (Nat × Nat))) (h : Still s0 s) : Still s0 { s with side := x } :=
  h.trans ⟨rfl, rfl, rfl, rfl, rfl, rfl, rfl, rfl, rfl, id, id⟩

theorem upd_ctxs_still {s : State} (x : Tab Ctx) (h : Still s0 s) : Still s0 { s with ctxs := x } :=
  h.trans ⟨rfl, rfl, rfl, rfl, rfl, rfl, rfl, rfl, rfl, id, id⟩

theorem upd_commits_still {s : State} (x : List Commit) (h : Still s0 s) : Still s0 { s with commits := x } :=
  h.trans ⟨rfl, rfl, rfl, rfl, rfl, rfl, rfl, rfl, rfl, id, id⟩

theorem upd_threads_still {s : State} (x : Tab Thread) (h : Still s0 s) : Still s0 { s with threads := x } :=
  h.trans ⟨rfl, rfl, rfl, rfl, rfl, rfl, rfl, rfl, rfl, id, id⟩

theorem upd_cores_still {s : State} (x : Tab Core) (h : Still s0 s) : Still s0 { s with cores := x } :=
  h.trans ⟨rfl, rfl, rfl, rfl, rfl, rfl, rfl, rfl, rfl, id, id⟩

theorem upd_lags_still {s : State} (x : List Lag) (h : Still s0 s) : Still s0 { s with lags := x } :=
  h.trans ⟨rfl, rfl, rfl, rfl, rfl, rfl, rfl, rfl, rfl, id, id⟩

theorem upd_posted_still {s : State} (x : List Posted) (h : Still s0 s) : Still s0 { s with posted := x } :=
  h.trans ⟨rfl, rfl, rfl, rfl, rfl, rfl, rfl, rfl, rfl, id, id⟩

theorem upd_bitOld_still {s : State} (x : List (Nat × Byte)) (h : Still s0 s) : Still s0 { s with bitOld := x } :=
  h.trans ⟨rfl, rfl, rfl, rfl, rfl, rfl, rfl, rfl, rfl, id, id⟩

theorem upd_portOld_still {s : State} (x : List (Nat × Bool)) (h : Still s0 s) : Still s0 { s with portOld := x } :=
  h.trans ⟨rfl, rfl, rfl, rfl, rfl, rfl, rfl, rfl, rfl, id, id⟩

theorem upd_locks_still {s : State} (x : Tab (Option Nat)) (h : Still s0 s) : Still s0 { s with locks := x } :=
  h.trans ⟨rfl, rfl, rfl, rfl, rfl, rfl, rfl, rfl, rfl, id, id⟩

theorem upd_flags_still {s : State} (x : Tab EFlag) (h : Still s0 s) : Still s0 { s with flags := x } :=
  h.trans ⟨rfl, rfl, rfl, rfl, rfl, rfl, rfl, rfl, rfl, id, id⟩

theorem upd_chans_still {s : State} (x : Tab Chan) (h : Still s0 s) : Still s0 { s with chans := x } :=
  h.trans ⟨rfl, rfl, rfl, rfl, rfl, rfl, rfl, rfl, rfl, id, id⟩

theorem upd_dlDone_still {s : State} (x : List Nat) (h : Still s0 s) : Still s0 { s with dlDone := x } :=
  h.trans ⟨rfl, rfl, rfl, rfl, rfl, rfl, rfl, rfl, rfl, id, id⟩

theorem upd_doms_still {s : State} (x : Tab Dom) (h : Still s0 s) : Still s0 { s with doms := x } :=
  h.trans ⟨rfl, rfl, rfl, rfl, rfl, rfl, rfl, rfl, rfl, id, id⟩

theorem upd_movers_still {s : State} (x : Tab Mover) (h : Still s0 s) : Still s0 { s with movers := x } :=
  h.trans ⟨rfl, rfl, rfl, rfl, rfl, rfl, rfl, rfl, rfl, id, id⟩

theorem upd_commons_still {s : State} (x : Commons) (h : Still s0 s) : Still s0 { s with commons := x } :=
  h.trans ⟨rfl, rfl, rfl, rfl, rfl, rfl, rfl, rfl, rfl, id, id⟩

theorem upd_timers_still {s : State} (x : Tab Timer) (h : Still s0 s) : Still s0 { s with timers := x } :=
  h.trans ⟨rfl, rfl, rfl, rfl, rfl, rfl, rfl, rfl, rfl, id, id⟩

theorem upd_psqs_still {s : State} (x : Tab Psq) (h : Still s0 s) : Still s0 { s with psqs := x } :=
  h.trans ⟨rfl, rfl, rfl, rfl, rfl, rfl, rfl, rfl, rfl, id, id⟩

theorem upd_lanes_still {s : State} (x : Tab Lane) (h : Still s0 s) : Still s0 { s with lanes := x } :=
  h.trans ⟨rfl, rfl, rfl, rfl, rfl, rfl, rfl, rfl, rfl, id, id⟩

theorem upd_pins_still {s : State} (x : Tab Pin) (h : Still s0 s) : Still s0 { s with pins := x } :=
  h.trans ⟨rfl, rfl, rfl, rfl, rfl, rfl, rfl, rfl, rfl, id, id⟩

theorem upd_ports_still {s : State} (x : Tab Bool) (h : Still s0 s) : Still s0 { s with ports := x } :=
  h.trans ⟨rfl, rfl, rfl, rfl, rfl, rfl, rfl, rfl, rfl, id, id⟩

theorem upd_tdrPin_still {s : State} (x : Option Nat) (h : Still s0 s) : Still s0 { s with tdrPin := x } :=
  h.trans ⟨rfl, rfl, rfl, rfl, rfl, rfl, rfl, rfl, rfl, id, id⟩

theorem upd_mbus_still {s : State} (x : Tab Mbu) (h : Still s0 s) : Still s0 { s with mbus := x } :=
  h.trans ⟨rfl, rfl, rfl, rfl, rfl, rfl, rfl, rfl, rfl, id, id⟩

theorem upd_heads_still {s : State} (x : Tab (Option FqHead)) (h : Still s0 s) : Still s0 { s with heads := x } :=
  h.trans ⟨rfl, rfl, rfl, rfl, rfl, rfl, rfl, rfl, rfl, id, id⟩

theorem upd_gleaner_still {s : State} (x : Gleaner) (h : Still s0 s) : Still s0 { s with gleaner := x } :=
  h.trans ⟨rfl, rfl, rfl, rfl, rfl, rfl, rfl, rfl, rfl, id, id⟩

theorem upd_reports_still {s : State} (x : List Report) (h : Still s0 s) : Still s0 { s with reports := x } :=
  h.trans ⟨rfl, rfl, rfl, rfl, rfl, rfl, rfl, rfl, rfl, id, id⟩

theorem upd_log_still {s : State} (x : List Record) (h : Still s0 s) : Still s0 { s with log := x } :=
  h.trans ⟨rfl, rfl, rfl, rfl, rfl, rfl, rfl, rfl, rfl, id, id⟩

theorem upd_seq_still {s : State} (x : Half) (h : Still s0 s) : Still s0 { s with seq := x } :=
  h.trans ⟨rfl, rfl, rfl, rfl, rfl, rfl, rfl, rfl, rfl, id, id⟩

theorem upd_orders_still {s : State} (x : List Pend) (h : Still s0 s) : Still s0 { s with orders := x } :=
  h.trans ⟨rfl, rfl, rfl, rfl, rfl, rfl, rfl, rfl, rfl, id, id⟩

theorem upd_ordered_still {s : State} (x : Option Nat) (h : Still s0 s) : Still s0 { s with ordered := x } :=
  h.trans ⟨rfl, rfl, rfl, rfl, rfl, rfl, rfl, rfl, rfl, id, id⟩

theorem upd_holdReq_still {s : State} (x : Option (HoldSrc × Nat)) (h : Still s0 s) : Still s0 { s with holdReq := x } :=
  h.trans ⟨rfl, rfl, rfl, rfl, rfl, rfl, rfl, rfl, rfl, id, id⟩

theorem upd_supply_still {s : State} (x : Tab Supply) (h : Still s0 s) : Still s0 { s with supply := x } :=
  h.trans ⟨rfl, rfl, rfl, rfl, rfl, rfl, rfl, rfl, rfl, id, id⟩

theorem upd_latch_still {s : State} (x : Tab Word) (h : Still s0 s) : Still s0 { s with latch := x } :=
  h.trans ⟨rfl, rfl, rfl, rfl, rfl, rfl, rfl, rfl, rfl, id, id⟩

theorem upd_stage_still {s : State} (x : Tab Word) (h : Still s0 s) : Still s0 { s with stage := x } :=
  h.trans ⟨rfl, rfl, rfl, rfl, rfl, rfl, rfl, rfl, rfl, id, id⟩

theorem upd_rdata_still {s : State} (x : Tab DWord) (h : Still s0 s) : Still s0 { s with rdata := x } :=
  h.trans ⟨rfl, rfl, rfl, rfl, rfl, rfl, rfl, rfl, rfl, id, id⟩

theorem setThr_still {s : State} (g : Nat) (t : Thread) (hk : Still s0 s) : Still s0 (State.setThr s g t) := by
  unfold State.setThr
  try dsimp only
  repeat' (first | (with_reducible assumption) | (with_reducible apply each_still) | (with_reducible apply foldl_still) | split | (intros; with_reducible assumption) | intro _ _ _ | (with_reducible refine still_fst (by with_reducible assumption) ?_) | dsimp only | (with_reducible apply upd_threads_still))

theorem setCore_still {s : State} (n : Nat) (c : Core) (hk : Still s0 s) : Still s0 (State.setCore s n c) := by
  unfold State.setCore
  try dsimp only
  repeat' (first | (with_reducible assumption) | (with_reducible apply each_still) | (with_reducible apply foldl_still) | split | (intros; with_reducible assumption) | intro _ _ _ | (with_reducible refine still_fst (by with_reducible assumption) ?_) | dsimp only | (with_reducible apply upd_cores_still))

theorem setCtx_still {s : State} (x : Nat) (c : Ctx) (hk : Still s0 s) : Still s0 (State.setCtx s x c) := by
  unfold State.setCtx
  try dsimp only
  repeat' (first | (with_reducible assumption) | (with_reducible apply each_still) | (with_reducible apply foldl_still) | split | (intros; with_reducible assumption) | intro _ _ _ | (with_reducible refine still_fst (by with_reducible assumption) ?_) | dsimp only | (with_reducible apply upd_ctxs_still))

theorem setDom_still {s : State} (d : Nat) (x : Dom) (hk : Still s0 s) : Still s0 (State.setDom s d x) := by
  unfold State.setDom
  try dsimp only
  repeat' (first | (with_reducible assumption) | (with_reducible apply each_still) | (with_reducible apply foldl_still) | split | (intros; with_reducible assumption) | intro _ _ _ | (with_reducible refine still_fst (by with_reducible assumption) ?_) | dsimp only | (with_reducible apply upd_doms_still))

theorem setMover_still {s : State} (m : Nat) (x : Mover) (hk : Still s0 s) : Still s0 (State.setMover s m x) := by
  unfold State.setMover
  try dsimp only
  repeat' (first | (with_reducible assumption) | (with_reducible apply each_still) | (with_reducible apply foldl_still) | split | (intros; with_reducible assumption) | intro _ _ _ | (with_reducible refine still_fst (by with_reducible assumption) ?_) | dsimp only | (with_reducible apply upd_movers_still))

theorem setTimer_still {s : State} (ch : Nat) (x : Timer) (hk : Still s0 s) : Still s0 (State.setTimer s ch x) := by
  unfold State.setTimer
  try dsimp only
  repeat' (first | (with_reducible assumption) | (with_reducible apply each_still) | (with_reducible apply foldl_still) | split | (intros; with_reducible assumption) | intro _ _ _ | (with_reducible refine still_fst (by with_reducible assumption) ?_) | dsimp only | (with_reducible apply upd_timers_still))

theorem setPsq_still {s : State} (q : Nat) (x : Psq) (hk : Still s0 s) : Still s0 (State.setPsq s q x) := by
  unfold State.setPsq
  try dsimp only
  repeat' (first | (with_reducible assumption) | (with_reducible apply each_still) | (with_reducible apply foldl_still) | split | (intros; with_reducible assumption) | intro _ _ _ | (with_reducible refine still_fst (by with_reducible assumption) ?_) | dsimp only | (with_reducible apply upd_psqs_still))

theorem setLane_still {s : State} (q : Nat) (l : Nat) (x : Lane) (hk : Still s0 s) : Still s0 (State.setLane s q l x) := by
  unfold State.setLane
  try dsimp only
  repeat' (first | (with_reducible assumption) | (with_reducible apply each_still) | (with_reducible apply foldl_still) | split | (intros; with_reducible assumption) | intro _ _ _ | (with_reducible refine still_fst (by with_reducible assumption) ?_) | dsimp only | (with_reducible apply upd_lanes_still))

theorem setPin_still {s : State} (p : Nat) (x : Pin) (hk : Still s0 s) : Still s0 (State.setPin s p x) := by
  unfold State.setPin
  try dsimp only
  repeat' (first | (with_reducible assumption) | (with_reducible apply each_still) | (with_reducible apply foldl_still) | split | (intros; with_reducible assumption) | intro _ _ _ | (with_reducible refine still_fst (by with_reducible assumption) ?_) | dsimp only | (with_reducible apply upd_pins_still))

theorem setPort_still {s : State} (n : Nat) (p : Nat) (b : Bool) (hk : Still s0 s) : Still s0 (State.setPort s n p b) := by
  unfold State.setPort
  try dsimp only
  repeat' (first | (with_reducible assumption) | (with_reducible apply each_still) | (with_reducible apply foldl_still) | split | (intros; with_reducible assumption) | intro _ _ _ | (with_reducible refine still_fst (by with_reducible assumption) ?_) | dsimp only | (with_reducible apply upd_ports_still))

theorem drivePort_still {s : State} (n : Nat) (p : Nat) (b : Bool) (hk : Still s0 s) : Still s0 (State.drivePort s n p b) := by
  unfold State.drivePort
  try dsimp only
  repeat' (first | (with_reducible assumption) | (with_reducible apply each_still) | (with_reducible apply foldl_still) | (with_reducible apply setPort_still) | split | (intros; with_reducible assumption) | intro _ _ _ | (with_reducible refine still_fst (by with_reducible assumption) ?_) | dsimp only | (with_reducible apply upd_portOld_still))

theorem setMbu_still {s : State} (m : Nat) (x : Mbu) (hk : Still s0 s) : Still s0 (State.setMbu s m x) := by
  unfold State.setMbu
  try dsimp only
  repeat' (first | (with_reducible assumption) | (with_reducible apply each_still) | (with_reducible apply foldl_still) | split | (intros; with_reducible assumption) | intro _ _ _ | (with_reducible refine still_fst (by with_reducible assumption) ?_) | dsimp only | (with_reducible apply upd_mbus_still))

theorem setHead_still {s : State} (m : Nat) (j : Nat) (x : Option FqHead) (hk : Still s0 s) : Still s0 (State.setHead s m j x) := by
  unfold State.setHead
  try dsimp only
  repeat' (first | (with_reducible assumption) | (with_reducible apply each_still) | (with_reducible apply foldl_still) | split | (intros; with_reducible assumption) | intro _ _ _ | (with_reducible refine still_fst (by with_reducible assumption) ?_) | dsimp only | (with_reducible apply upd_heads_still))

theorem setSup_still {s : State} (r : Nat) (x : Supply) (hk : Still s0 s) : Still s0 (State.setSup s r x) := by
  unfold State.setSup
  try dsimp only
  repeat' (first | (with_reducible assumption) | (with_reducible apply each_still) | (with_reducible apply foldl_still) | split | (intros; with_reducible assumption) | intro _ _ _ | (with_reducible refine still_fst (by with_reducible assumption) ?_) | dsimp only | (with_reducible apply upd_supply_still))

theorem setLock_still {s : State} (k : Nat) (x : Option Nat) (hk : Still s0 s) : Still s0 (State.setLock s k x) := by
  unfold State.setLock
  try dsimp only
  repeat' (first | (with_reducible assumption) | (with_reducible apply each_still) | (with_reducible apply foldl_still) | split | (intros; with_reducible assumption) | intro _ _ _ | (with_reducible refine still_fst (by with_reducible assumption) ?_) | dsimp only | (with_reducible apply upd_locks_still))

theorem setChan_still {s : State} (k : Nat) (x : Chan) (hk : Still s0 s) : Still s0 (State.setChan s k x) := by
  unfold State.setChan
  try dsimp only
  repeat' (first | (with_reducible assumption) | (with_reducible apply each_still) | (with_reducible apply foldl_still) | split | (intros; with_reducible assumption) | intro _ _ _ | (with_reducible refine still_fst (by with_reducible assumption) ?_) | dsimp only | (with_reducible apply upd_chans_still))

theorem setLive_still {s : State} (line : Nat) (b : Bool) (hk : Still s0 s) : Still s0 (State.setLive s line b) := by
  unfold State.setLive
  try dsimp only
  repeat' (first | (with_reducible assumption) | (with_reducible apply each_still) | (with_reducible apply foldl_still) | split | (intros; with_reducible assumption) | intro _ _ _ | (with_reducible refine still_fst (by with_reducible assumption) ?_) | dsimp only | (with_reducible apply upd_ver_still))

theorem setClaim_still {s : State} (line : Nat) (x : Option Nat) (hk : Still s0 s) : Still s0 (State.setClaim s line x) := by
  unfold State.setClaim
  try dsimp only
  repeat' (first | (with_reducible assumption) | (with_reducible apply each_still) | (with_reducible apply foldl_still) | split | (intros; with_reducible assumption) | intro _ _ _ | (with_reducible refine still_fst (by with_reducible assumption) ?_) | dsimp only | (with_reducible apply upd_claims_still))

theorem setSide_still {s : State} (e : Nat) (x : Option (Nat × Nat)) (hk : Still s0 s) : Still s0 (State.setSide s e x) := by
  unfold State.setSide
  try dsimp only
  repeat' (first | (with_reducible assumption) | (with_reducible apply each_still) | (with_reducible apply foldl_still) | split | (intros; with_reducible assumption) | intro _ _ _ | (with_reducible refine still_fst (by with_reducible assumption) ?_) | dsimp only | (with_reducible apply upd_side_still))

theorem setLatch_still {s : State} (k : Nat) (v : Word) (hk : Still s0 s) : Still s0 (State.setLatch s k v) := by
  unfold State.setLatch
  try dsimp only
  repeat' (first | (with_reducible assumption) | (with_reducible apply each_still) | (with_reducible apply foldl_still) | split | (intros; with_reducible assumption) | intro _ _ _ | (with_reducible refine still_fst (by with_reducible assumption) ?_) | dsimp only | (with_reducible apply upd_latch_still))

theorem setStage_still {s : State} (k : Nat) (v : Word) (hk : Still s0 s) : Still s0 (State.setStage s k v) := by
  unfold State.setStage
  try dsimp only
  repeat' (first | (with_reducible assumption) | (with_reducible apply each_still) | (with_reducible apply foldl_still) | split | (intros; with_reducible assumption) | intro _ _ _ | (with_reducible refine still_fst (by with_reducible assumption) ?_) | dsimp only | (with_reducible apply upd_stage_still))

theorem setRead_still {s : State} (p : Path) (v : DWord) (hk : Still s0 s) : Still s0 (State.setRead s p v) := by
  unfold State.setRead
  try dsimp only
  repeat' (first | (with_reducible assumption) | (with_reducible apply each_still) | (with_reducible apply foldl_still) | split | (intros; with_reducible assumption) | intro _ _ _ | (with_reducible refine still_fst (by with_reducible assumption) ?_) | dsimp only | (with_reducible apply upd_rdata_still))

theorem setReg_still {s : State} (r : Reg) (v : Word) (hk : Still s0 s) : Still s0 (State.setReg s r v) := by
  unfold State.setReg
  try dsimp only
  repeat' (first | (with_reducible assumption) | (with_reducible apply each_still) | (with_reducible apply foldl_still) | split | (intros; with_reducible assumption) | intro _ _ _ | (with_reducible refine still_fst (by with_reducible assumption) ?_) | dsimp only | (with_reducible apply upd_regs_still))

theorem setRf_still {s : State} (r : Reg) (hi : Nat) (lo : Nat) (v : Nat) (hk : Still s0 s) : Still s0 (State.setRf s r hi lo v) := by
  unfold State.setRf
  try dsimp only
  repeat' (first | (with_reducible assumption) | (with_reducible apply each_still) | (with_reducible apply foldl_still) | (with_reducible apply setReg_still) | split | (intros; with_reducible assumption) | intro _ _ _ | (with_reducible refine still_fst (by with_reducible assumption) ?_) | dsimp only)

theorem setRb_still {s : State} (r : Reg) (i : Nat) (b : Bool) (hk : Still s0 s) : Still s0 (State.setRb s r i b) := by
  unfold State.setRb
  try dsimp only
  repeat' (first | (with_reducible assumption) | (with_reducible apply each_still) | (with_reducible apply foldl_still) | (with_reducible apply setReg_still) | split | (intros; with_reducible assumption) | intro _ _ _ | (with_reducible refine still_fst (by with_reducible assumption) ?_) | dsimp only)

theorem bump_still {s : State} (r : Reg) (k : Nat) (hk : Still s0 s) : Still s0 (State.bump s r k) := by
  unfold State.bump
  try dsimp only
  repeat' (first | (with_reducible assumption) | (with_reducible apply each_still) | (with_reducible apply foldl_still) | (with_reducible apply setReg_still) | split | (intros; with_reducible assumption) | intro _ _ _ | (with_reducible refine still_fst (by with_reducible assumption) ?_) | dsimp only)

theorem bumpRf_still {s : State} (r : Reg) (hi : Nat) (lo : Nat) (k : Nat) (hk : Still s0 s) : Still s0 (State.bumpRf s r hi lo k) := by
  unfold State.bumpRf
  try dsimp only
  repeat' (first | (with_reducible assumption) | (with_reducible apply each_still) | (with_reducible apply foldl_still) | (with_reducible apply setReg_still) | split | (intros; with_reducible assumption) | intro _ _ _ | (with_reducible refine still_fst (by with_reducible assumption) ?_) | dsimp only)

theorem setReg64_still {s : State} (r : Nat → Reg) (v : DWord) (hk : Still s0 s) : Still s0 (State.setReg64 s r v) := by
  unfold State.setReg64
  try dsimp only
  repeat' (first | (with_reducible assumption) | (with_reducible apply each_still) | (with_reducible apply foldl_still) | (with_reducible apply setReg_still) | split | (intros; with_reducible assumption) | intro _ _ _ | (with_reducible refine still_fst (by with_reducible assumption) ?_) | dsimp only)

theorem setHeld_still {s : State} (r : Reg) (h : Option Held) (hk : Still s0 s) : Still s0 (State.setHeld s r h) := by
  unfold State.setHeld
  try dsimp only
  repeat' (first | (with_reducible assumption) | (with_reducible apply each_still) | (with_reducible apply foldl_still) | split | (intros; with_reducible assumption) | intro _ _ _ | (with_reducible refine still_fst (by with_reducible assumption) ?_) | dsimp only | (with_reducible apply upd_held_still))

theorem setShadow_still {s : State} (r : Reg) (v : Word) (hk : Still s0 s) : Still s0 (State.setShadow s r v) := by
  unfold State.setShadow
  try dsimp only
  repeat' (first | (with_reducible assumption) | (with_reducible apply each_still) | (with_reducible apply foldl_still) | (with_reducible apply setReg_still) | (with_reducible apply setHeld_still) | split | (intros; with_reducible assumption) | intro _ _ _ | (with_reducible refine still_fst (by with_reducible assumption) ?_) | dsimp only)

theorem promote_still {s : State} (r : Reg) (hk : Still s0 s) : Still s0 (State.promote s r) := by
  unfold State.promote
  try dsimp only
  repeat' (first | (with_reducible assumption) | (with_reducible apply each_still) | (with_reducible apply foldl_still) | (with_reducible apply setHeld_still) | split | (intros; with_reducible assumption) | intro _ _ _ | (with_reducible refine still_fst (by with_reducible assumption) ?_) | dsimp only)

theorem report_still {s : State} (code : Nat) (skind : Nat) (sidx : Nat) (da : Word) (db : Word) (reh : optParam Bool false) (hk : Still s0 s) : Still s0 (State.report s code skind sidx da db reh) := by
  unfold State.report
  try dsimp only
  repeat' (first | (with_reducible assumption) | (with_reducible apply each_still) | (with_reducible apply foldl_still) | split | (intros; with_reducible assumption) | intro _ _ _ | (with_reducible refine still_fst (by with_reducible assumption) ?_) | dsimp only | (with_reducible apply upd_reports_still))

theorem noteCe_still {s : State}  (hk : Still s0 s) : Still s0 (State.noteCe s) := by
  unfold State.noteCe
  try dsimp only
  repeat' (first | (with_reducible assumption) | (with_reducible apply each_still) | (with_reducible apply foldl_still) | (with_reducible apply bump_still) | split | (intros; with_reducible assumption) | intro _ _ _ | (with_reducible refine still_fst (by with_reducible assumption) ?_) | dsimp only)

theorem putFlag_still {s : State} (c : Nat) (f : Nat) (x : EFlag) (hk : Still s0 s) : Still s0 (State.putFlag s c f x) := by
  unfold State.putFlag
  try dsimp only
  repeat' (first | (with_reducible assumption) | (with_reducible apply each_still) | (with_reducible apply foldl_still) | split | (intros; with_reducible assumption) | intro _ _ _ | (with_reducible refine still_fst (by with_reducible assumption) ?_) | dsimp only | (with_reducible apply upd_flags_still))

theorem setFlagAt_still {s : State} (c : Nat) (f : Nat) (e : Nat) (hk : Still s0 s) : Still s0 (State.setFlagAt s c f e) := by
  unfold State.setFlagAt
  try dsimp only
  repeat' (first | (with_reducible assumption) | (with_reducible apply each_still) | (with_reducible apply foldl_still) | (with_reducible apply putFlag_still) | split | (intros; with_reducible assumption) | intro _ _ _ | (with_reducible refine still_fst (by with_reducible assumption) ?_) | dsimp only)

theorem setFlag_still {s : State} (c : Nat) (f : Nat) (hk : Still s0 s) : Still s0 (State.setFlag s c f) := by
  unfold State.setFlag
  try dsimp only
  repeat' (first | (with_reducible assumption) | (with_reducible apply each_still) | (with_reducible apply foldl_still) | (with_reducible apply setFlagAt_still) | split | (intros; with_reducible assumption) | intro _ _ _ | (with_reducible refine still_fst (by with_reducible assumption) ?_) | dsimp only)

theorem clrFlag_still {s : State} (c : Nat) (f : Nat) (hk : Still s0 s) : Still s0 (State.clrFlag s c f) := by
  unfold State.clrFlag
  try dsimp only
  repeat' (first | (with_reducible assumption) | (with_reducible apply each_still) | (with_reducible apply foldl_still) | (with_reducible apply putFlag_still) | split | (intros; with_reducible assumption) | intro _ _ _ | (with_reducible refine still_fst (by with_reducible assumption) ?_) | dsimp only)

theorem setCell_still {s : State} (k : Nat) (b : Byte) (hk : Still s0 s) : Still s0 (s.setCell k b) :=
  hk.trans ⟨rfl, rfl, rfl, rfl, rfl, rfl, rfl, rfl, rfl, wf_put k b, id⟩

theorem setChip_still {s : State} (a : Nat) (b : Byte) (hk : Still s0 s) : Still s0 (s.setChip a b) :=
  hk.trans ⟨rfl, rfl, rfl, rfl, rfl, rfl, rfl, rfl, rfl, id, wf_put a b⟩

theorem setMark_still {s : State} (gk : Nat) (m : EccMark) (hk : Still s0 s) : Still s0 (State.setMark s gk m) := by
  unfold State.setMark
  try dsimp only
  repeat' (first | (with_reducible assumption) | (with_reducible apply each_still) | (with_reducible apply foldl_still) | split | (intros; with_reducible assumption) | intro _ _ _ | (with_reducible refine still_fst (by with_reducible assumption) ?_) | dsimp only | (with_reducible apply upd_ecc_still))

theorem recordUe_still {s : State} (gk : Nat) (agent : Nat) (hk : Still s0 s) : Still s0 (State.recordUe s gk agent) := by
  unfold State.recordUe
  try dsimp only
  repeat' (first | (with_reducible assumption) | (with_reducible apply each_still) | (with_reducible apply foldl_still) | (with_reducible apply setReg_still) | split | (intros; with_reducible assumption) | intro _ _ _ | (with_reducible refine still_fst (by with_reducible assumption) ?_) | dsimp only)

theorem correct_still {s : State} (gk : Nat) (hk : Still s0 s) : Still s0 (State.correct s gk) := by
  unfold State.correct
  try dsimp only
  repeat' (first | (with_reducible assumption) | (with_reducible apply each_still) | (with_reducible apply foldl_still) | (with_reducible apply bump_still) | (with_reducible apply noteCe_still) | split | (intros; with_reducible assumption) | intro _ _ _ | (with_reducible refine still_fst (by with_reducible assumption) ?_) | dsimp only | (with_reducible apply upd_scrubs_still))

theorem yield_still {s : State} (k : Nat) (n : Nat) (hk : Still s0 s) : Still s0 (State.yield s k n) := by
  unfold State.yield
  try dsimp only
  repeat' (first | (with_reducible assumption) | (with_reducible apply each_still) | (with_reducible apply foldl_still) | (with_reducible apply bump_still) | split | (intros; with_reducible assumption) | intro _ _ _ | (with_reducible refine still_fst (by with_reducible assumption) ?_) | dsimp only | (with_reducible apply upd_gleaner_still))

theorem passRead_still {s : State} (k : Nat) (n : Nat) (hk : Still s0 s) : Still s0 (State.passRead s k n) := by
  unfold State.passRead
  repeat' (first | (with_reducible assumption) | (with_reducible apply foldl_still) | (with_reducible apply correct_still) | (with_reducible apply yield_still) | split | (intros; with_reducible assumption) | intro _ _ _)

theorem touchRead_still {s : State} (k : Nat) (n : Nat) (agent : Nat) (hk : Still s0 s) : Still s0 (State.touchRead s k n agent).1 := by
  unfold State.touchRead
  try dsimp only
  repeat' (first | (with_reducible assumption) | (with_reducible apply each_still) | (with_reducible apply foldl_still) | (with_reducible apply recordUe_still) | (with_reducible apply passRead_still) | split | (intros; with_reducible assumption) | intro _ _ _ | (with_reducible refine still_fst (by with_reducible assumption) ?_) | dsimp only)

theorem writeMarks_still {s : State} (k : Nat) (n : Nat) (hk : Still s0 s) : Still s0 (State.writeMarks s k n) := by
  unfold State.writeMarks
  try dsimp only
  repeat' (first | (with_reducible assumption) | (with_reducible apply each_still) | (with_reducible apply foldl_still) | (with_reducible apply setRb_still) | (with_reducible apply bump_still) | (with_reducible apply noteCe_still) | (with_reducible apply setMark_still) | split | (intros; with_reducible assumption) | intro _ _ _ | (with_reducible refine still_fst (by with_reducible assumption) ?_) | dsimp only | (with_reducible apply upd_scrubs_still))

theorem putByte_still {s : State} (k : Nat) (b : Byte) (hk : Still s0 s) : Still s0 (State.putByte s k b) := by
  unfold State.putByte
  try dsimp only
  repeat' (first | (with_reducible assumption) | (with_reducible apply each_still) | (with_reducible apply foldl_still) | (with_reducible apply setCell_still) | split | (intros; with_reducible assumption) | intro _ _ _ | (with_reducible refine still_fst (by with_reducible assumption) ?_) | dsimp only)

theorem putBytes_still {s : State} (k : Nat) (l : List Byte) (hk : Still s0 s) : Still s0 (s.putBytes k l) := by
  induction l generalizing s k with
  | nil => exact hk
  | cons b r ih => exact ih _ (putByte_still _ _ hk)

theorem memWrite_still {s : State} (k : Nat) (bs : List Byte) (hk : Still s0 s) : Still s0 (State.memWrite s k bs) := by
  unfold State.memWrite
  try dsimp only
  repeat' (first | (with_reducible assumption) | (with_reducible apply each_still) | (with_reducible apply foldl_still) | (with_reducible apply yield_still) | (with_reducible apply writeMarks_still) | (with_reducible apply putBytes_still) | split | (intros; with_reducible assumption) | intro _ _ _ | (with_reducible refine still_fst (by with_reducible assumption) ?_) | dsimp only)

theorem setWord_still {s : State} (k : Nat) (w : Word) (hk : Still s0 s) : Still s0 (State.setWord s k w) := by
  unfold State.setWord
  try dsimp only
  repeat' (first | (with_reducible assumption) | (with_reducible apply each_still) | (with_reducible apply foldl_still) | (with_reducible apply memWrite_still) | split | (intros; with_reducible assumption) | intro _ _ _ | (with_reducible refine still_fst (by with_reducible assumption) ?_) | dsimp only)

theorem post_still {s : State} (core : Nat) (thr : Nat) (r : Nat) (f : Nat) (pi : Bool) (bank : Nat) (cells : List (Nat × Byte)) (gen : Option (Nat × Nat)) (hk : Still s0 s) : Still s0 (State.post s core thr r f pi bank cells gen) := by
  unfold State.post
  try dsimp only
  repeat' (first | (with_reducible assumption) | (with_reducible apply each_still) | (with_reducible apply foldl_still) | split | (intros; with_reducible assumption) | intro _ _ _ | (with_reducible refine still_fst (by with_reducible assumption) ?_) | dsimp only | (with_reducible apply upd_posted_still))

theorem putCells_still {s : State} (l : List (Nat × Byte)) (hk : Still s0 s) : Still s0 (s.putCells l) := by
  induction l generalizing s with
  | nil => exact hk
  | cons b r ih => exact ih (memWrite_still _ _ hk)

theorem putRuns_still {s : State} (cells : List (Nat × Byte)) (hk : Still s0 s) : Still s0 (State.putRuns s cells) := by
  unfold State.putRuns
  try dsimp only
  repeat' (first | (with_reducible assumption) | (with_reducible apply each_still) | (with_reducible apply foldl_still) | (with_reducible apply memWrite_still) | split | (intros; with_reducible assumption) | intro _ _ _ | (with_reducible refine still_fst (by with_reducible assumption) ?_) | dsimp only)

theorem lockTry_still {s : State} (k : Nat) (g : Nat) (hk : Still s0 s) : Still s0 (State.lockTry s k g).1 := by
  unfold State.lockTry
  try dsimp only
  repeat' (first | (with_reducible assumption) | (with_reducible apply each_still) | (with_reducible apply foldl_still) | (with_reducible apply setLock_still) | split | (intros; with_reducible assumption) | intro _ _ _ | (with_reducible refine still_fst (by with_reducible assumption) ?_) | dsimp only)

theorem lockRel_still {s : State} (k : Nat) (g : Nat) (hk : Still s0 s) : Still s0 (State.lockRel s k g).1 := by
  unfold State.lockRel
  try dsimp only
  repeat' (first | (with_reducible assumption) | (with_reducible apply each_still) | (with_reducible apply foldl_still) | (with_reducible apply setLock_still) | split | (intros; with_reducible assumption) | intro _ _ _ | (with_reducible refine still_fst (by with_reducible assumption) ?_) | dsimp only)

theorem leaveChans_still {s : State} (g : Nat) (hk : Still s0 s) : Still s0 (State.leaveChans s g) := by
  unfold State.leaveChans
  try dsimp only
  repeat' (first | (with_reducible assumption) | (with_reducible apply each_still) | (with_reducible apply foldl_still) | (with_reducible apply setChan_still) | (with_reducible apply report_still) | split | (intros; with_reducible assumption) | intro _ _ _ | (with_reducible refine still_fst (by with_reducible assumption) ?_) | dsimp only)

theorem examine_still {s : State} (d : DlSet) (hk : Still s0 s) : Still s0 (State.examine s d) := by
  unfold State.examine
  try dsimp only
  repeat' (first | (with_reducible assumption) | (with_reducible apply each_still) | (with_reducible apply foldl_still) | (with_reducible apply setReg_still) | (with_reducible apply bump_still) | (with_reducible apply report_still) | split | (intros; with_reducible assumption) | intro _ _ _ | (with_reducible refine still_fst (by with_reducible assumption) ?_) | dsimp only | (with_reducible apply upd_dlDone_still))

theorem releaseLines_still {s : State} (x : Nat) (hk : Still s0 s) : Still s0 (s.releaseLines x) :=
  hk.trans ⟨rfl, rfl, rfl, rfl, rfl, rfl, rfl, rfl, rfl, id, id⟩

theorem unreserve_still {s : State} (held : List (Nat × DWord)) (hk : Still s0 s) : Still s0 (State.unreserve s held) := by
  unfold State.unreserve
  try dsimp only
  repeat' (first | (with_reducible assumption) | (with_reducible apply each_still) | (with_reducible apply foldl_still) | (with_reducible apply setPsq_still) | split | (intros; with_reducible assumption) | intro _ _ _ | (with_reducible refine still_fst (by with_reducible assumption) ?_) | dsimp only)

theorem discardHeld_still {s : State} (held : List (Nat × DWord)) (hk : Still s0 s) : Still s0 (State.discardHeld s held) := by
  unfold State.discardHeld
  try dsimp only
  repeat' (first | (with_reducible assumption) | (with_reducible apply each_still) | (with_reducible apply foldl_still) | (with_reducible apply bump_still) | (with_reducible apply unreserve_still) | split | (intros; with_reducible assumption) | intro _ _ _ | (with_reducible refine still_fst (by with_reducible assumption) ?_) | dsimp only)

theorem setCres_still {s : State} (x : Nat) (out : Nat) (line : Nat) (hk : Still s0 s) : Still s0 (State.setCres s x out line) := by
  unfold State.setCres
  try dsimp only
  repeat' (first | (with_reducible assumption) | (with_reducible apply each_still) | (with_reducible apply foldl_still) | (with_reducible apply setReg_still) | split | (intros; with_reducible assumption) | intro _ _ _ | (with_reducible refine still_fst (by with_reducible assumption) ?_) | dsimp only)

theorem abort_still {s : State} (x : Nat) (out : Nat) (line : Nat) (hk : Still s0 s) : Still s0 (State.abort s x out line) := by
  unfold State.abort
  try dsimp only
  repeat' (first | (with_reducible assumption) | (with_reducible apply each_still) | (with_reducible apply foldl_still) | (with_reducible apply setCtx_still) | (with_reducible apply bump_still) | (with_reducible apply report_still) | (with_reducible apply releaseLines_still) | (with_reducible apply discardHeld_still) | (with_reducible apply setCres_still) | split | (intros; with_reducible assumption) | intro _ _ _ | (with_reducible refine still_fst (by with_reducible assumption) ?_) | dsimp only | (with_reducible apply upd_held_still) | (with_reducible apply upd_posted_still))

theorem conflicts_still {s : State} (x : Nat) (hk : Still s0 s) : Still s0 (State.conflicts s x) := by
  unfold State.conflicts
  try dsimp only
  repeat' (first | (with_reducible assumption) | (with_reducible apply each_still) | (with_reducible apply foldl_still) | (with_reducible apply abort_still) | split | (intros; with_reducible assumption) | intro _ _ _ | (with_reducible refine still_fst (by with_reducible assumption) ?_) | dsimp only)

theorem sheafJoin_still {s : State} (g : Nat) (x : Nat) (start : Bool) (hk : Still s0 s) : Still s0 (State.sheafJoin s g x start).1 := by
  unfold State.sheafJoin
  try dsimp only
  repeat' (first | (with_reducible assumption) | (with_reducible apply each_still) | (with_reducible apply foldl_still) | (with_reducible apply setThr_still) | (with_reducible apply setCtx_still) | split | (intros; with_reducible assumption) | intro _ _ _ | (with_reducible refine still_fst (by with_reducible assumption) ?_) | dsimp only | (with_reducible apply upd_held_still))

theorem sheafClose_still {s : State} (g : Nat) (x : Nat) (hk : Still s0 s) : Still s0 (State.sheafClose s g x).1 := by
  unfold State.sheafClose
  try dsimp only
  repeat' (first | (with_reducible assumption) | (with_reducible apply each_still) | (with_reducible apply foldl_still) | (with_reducible apply setThr_still) | (with_reducible apply setCtx_still) | (with_reducible apply conflicts_still) | split | (intros; with_reducible assumption) | intro _ _ _ | (with_reducible refine still_fst (by with_reducible assumption) ?_) | dsimp only)

theorem fillLine_still {s : State} (line : Nat) (dst : Nat) (hk : Still s0 s) : Still s0 (State.fillLine s line dst) := by
  unfold State.fillLine
  try dsimp only
  repeat' (first | (with_reducible assumption) | (with_reducible apply each_still) | (with_reducible apply foldl_still) | (with_reducible apply setMark_still) | (with_reducible apply correct_still) | (with_reducible apply yield_still) | (with_reducible apply putBytes_still) | split | (intros; with_reducible assumption) | intro _ _ _ | (with_reducible refine still_fst (by with_reducible assumption) ?_) | dsimp only | (with_reducible apply upd_scrubs_still))

theorem claimLine_still {s : State} (x : Nat) (line : Nat) (o : Nat) (n : Nat) (hk : Still s0 s) : Still s0 (State.claimLine s x line o n).1 := by
  unfold State.claimLine
  try dsimp only
  repeat' (first | (with_reducible assumption) | (with_reducible apply each_still) | (with_reducible apply foldl_still) | (with_reducible apply setClaim_still) | (with_reducible apply setSide_still) | (with_reducible apply report_still) | (with_reducible apply recordUe_still) | (with_reducible apply abort_still) | (with_reducible apply fillLine_still) | split | (intros; with_reducible assumption) | intro _ _ _ | (with_reducible refine still_fst (by with_reducible assumption) ?_) | dsimp only)

theorem piWrite_still {s : State} (g : Nat) (a : Nat) (n : Nat) (hk : Still s0 s) : Still s0 (State.piWrite s g a n).1 := by
  unfold State.piWrite
  try dsimp only
  repeat' (first | (with_reducible assumption) | (with_reducible apply each_still) | (with_reducible apply foldl_still) | (with_reducible apply claimLine_still) | split | (intros; with_reducible assumption) | intro _ _ _ | (with_reducible refine still_fst (by with_reducible assumption) ?_) | dsimp only)

theorem flushGen_still {s : State} (x : Nat) (uid : Nat) (hk : Still s0 s) : Still s0 (State.flushGen s x uid) := by
  unfold State.flushGen
  try dsimp only
  repeat' (first | (with_reducible assumption) | (with_reducible apply each_still) | (with_reducible apply foldl_still) | (with_reducible apply putRuns_still) | split | (intros; with_reducible assumption) | intro _ _ _ | (with_reducible refine still_fst (by with_reducible assumption) ?_) | dsimp only | (with_reducible apply upd_posted_still))

theorem flip_still {s : State} (x : Nat) (hk : Still s0 s) : Still s0 (State.flip s x) := by
  unfold State.flip
  try dsimp only
  repeat' (first | (with_reducible assumption) | (with_reducible apply each_still) | (with_reducible apply foldl_still) | (with_reducible apply setLive_still) | (with_reducible apply setMark_still) | (with_reducible apply yield_still) | (with_reducible apply putBytes_still) | (with_reducible apply releaseLines_still) | (with_reducible apply flushGen_still) | split | (intros; with_reducible assumption) | intro _ _ _ | (with_reducible refine still_fst (by with_reducible assumption) ?_) | dsimp only | (with_reducible apply upd_scrubs_still))

theorem commitGen_still {s : State} (x : Nat) (hk : Still s0 s) : Still s0 (State.commitGen s x) := by
  unfold State.commitGen
  try dsimp only
  repeat' (first | (with_reducible assumption) | (with_reducible apply each_still) | (with_reducible apply foldl_still) | (with_reducible apply setCtx_still) | (with_reducible apply bump_still) | (with_reducible apply setCres_still) | (with_reducible apply flip_still) | split | (intros; with_reducible assumption) | intro _ _ _ | (with_reducible refine still_fst (by with_reducible assumption) ?_) | dsimp only | (with_reducible apply upd_held_still))

theorem discardGen_still {s : State} (x : Nat) (hk : Still s0 s) : Still s0 (State.discardGen s x) := by
  unfold State.discardGen
  try dsimp only
  repeat' (first | (with_reducible assumption) | (with_reducible apply each_still) | (with_reducible apply foldl_still) | (with_reducible apply setCtx_still) | (with_reducible apply bump_still) | (with_reducible apply releaseLines_still) | (with_reducible apply discardHeld_still) | (with_reducible apply setCres_still) | split | (intros; with_reducible assumption) | intro _ _ _ | (with_reducible refine still_fst (by with_reducible assumption) ?_) | dsimp only | (with_reducible apply upd_held_still) | (with_reducible apply upd_posted_still))

theorem decide1_still {d : Decision} (x : Nat) (hk : Still s0 d.s) : Still s0 (decide1 d x).s := by
  unfold decide1
  dsimp only
  split
  · exact hk
  · exact setCtx_still _ _ hk
  · exact setCtx_still _ _ (abort_still _ _ _ hk)
  · split
    · exact setCtx_still _ _ (abort_still _ _ _ hk)
    · split
      · exact discardGen_still _ hk
      · split
        · exact discardHeld_still _ (commitGen_still _ hk)
        · exact commitGen_still _ hk

theorem decisions_still (l : List Nat) {d : Decision} (hk : Still s0 d.s) : Still s0 (l.foldl decide1 d).s := by
  induction l generalizing d with
  | nil => exact hk
  | cons x r ih => exact ih (decide1_still x hk)

theorem commitDecision_still {s : State} (dom : Nat) (num : Word) (hk : Still s0 s) : Still s0 (s.commitDecision dom num) := by
  have h := decisions_still (s.dueCtxs dom) (d := ⟨s, true, []⟩) hk
  unfold State.commitDecision
  extract_lets due d any
  split
  · exact upd_commits_still _ h
  · split
    · exact setReg_still _ _ h
    · exact h

theorem execFault_still {s : State} (x : Nat) (hk : Still s0 s) : Still s0 (State.execFault s x).1 := by
  unfold State.execFault
  try dsimp only
  repeat' (first | (with_reducible assumption) | (with_reducible apply each_still) | (with_reducible apply foldl_still) | (with_reducible apply report_still) | (with_reducible apply abort_still) | (with_reducible apply commitGen_still) | split | (intros; with_reducible assumption) | intro _ _ _ | (with_reducible refine still_fst (by with_reducible assumption) ?_) | dsimp only | (with_reducible apply upd_commits_still))

theorem configureSheaves_still {s : State}  (hk : Still s0 s) : Still s0 (State.configureSheaves s) := by
  unfold State.configureSheaves
  try dsimp only
  repeat' (first | (with_reducible assumption) | (with_reducible apply each_still) | (with_reducible apply foldl_still) | (with_reducible apply setThr_still) | (with_reducible apply setCtx_still) | (with_reducible apply abort_still) | split | (intros; with_reducible assumption) | intro _ _ _ | (with_reducible refine still_fst (by with_reducible assumption) ?_) | dsimp only)

theorem tdrAbandon_still {s : State}  (hk : Still s0 s) : Still s0 (State.tdrAbandon s) := by
  unfold State.tdrAbandon
  try dsimp only
  repeat' (first | (with_reducible assumption) | (with_reducible apply each_still) | (with_reducible apply foldl_still) | (with_reducible apply setReg_still) | split | (intros; with_reducible assumption) | intro _ _ _ | (with_reducible refine still_fst (by with_reducible assumption) ?_) | dsimp only | (with_reducible apply upd_tdrPin_still))

theorem choose_still {s : State} (p : Nat) (c : Nat) (hk : Still s0 s) : Still s0 (State.choose s p c) := by
  unfold State.choose
  try dsimp only
  repeat' (first | (with_reducible assumption) | (with_reducible apply each_still) | (with_reducible apply foldl_still) | (with_reducible apply setPin_still) | (with_reducible apply tdrAbandon_still) | split | (intros; with_reducible assumption) | intro _ _ _ | (with_reducible refine still_fst (by with_reducible assumption) ?_) | dsimp only)

theorem laneEdge_still {s : State} (q : Nat) (l : Nat) (lvl : Bool) (ph : Nat) (hk : Still s0 s) : Still s0 (State.laneEdge s q l lvl ph) := by
  unfold State.laneEdge
  try dsimp only
  repeat' (first | (with_reducible assumption) | (with_reducible apply each_still) | (with_reducible apply foldl_still) | (with_reducible apply setPsq_still) | (with_reducible apply setLane_still) | split | (intros; with_reducible assumption) | intro _ _ _ | (with_reducible refine still_fst (by with_reducible assumption) ?_) | dsimp only)

theorem refreshLanes_still {s : State} (p : Nat) (ph : Nat) (hk : Still s0 s) : Still s0 (State.refreshLanes s p ph) := by
  unfold State.refreshLanes
  try dsimp only
  repeat' (first | (with_reducible assumption) | (with_reducible apply each_still) | (with_reducible apply foldl_still) | (with_reducible apply laneEdge_still) | split | (intros; with_reducible assumption) | intro _ _ _ | (with_reducible refine still_fst (by with_reducible assumption) ?_) | dsimp only)

theorem pinChanged_still {s : State} (p : Nat) (c : Nat) (hk : Still s0 s) : Still s0 (State.pinChanged s p c) := by
  unfold State.pinChanged
  try dsimp only
  repeat' (first | (with_reducible assumption) | (with_reducible apply each_still) | (with_reducible apply foldl_still) | (with_reducible apply choose_still) | (with_reducible apply refreshLanes_still) | split | (intros; with_reducible assumption) | intro _ _ _ | (with_reducible refine still_fst (by with_reducible assumption) ?_) | dsimp only)

theorem freezePins_still {s : State}  (hk : Still s0 s) : Still s0 (State.freezePins s) := by
  unfold State.freezePins
  try dsimp only
  repeat' (first | (with_reducible assumption) | (with_reducible apply each_still) | (with_reducible apply foldl_still) | (with_reducible apply setPin_still) | split | (intros; with_reducible assumption) | intro _ _ _ | (with_reducible refine still_fst (by with_reducible assumption) ?_) | dsimp only)

theorem thawPins_still {s : State}  (hk : Still s0 s) : Still s0 (State.thawPins s) := by
  unfold State.thawPins
  try dsimp only
  repeat' (first | (with_reducible assumption) | (with_reducible apply each_still) | (with_reducible apply foldl_still) | (with_reducible apply setPin_still) | (with_reducible apply choose_still) | split | (intros; with_reducible assumption) | intro _ _ _ | (with_reducible refine still_fst (by with_reducible assumption) ?_) | dsimp only)

theorem rehearsePins_still {s : State}  (hk : Still s0 s) : Still s0 (State.rehearsePins s) := by
  unfold State.rehearsePins
  try dsimp only
  repeat' (first | (with_reducible assumption) | (with_reducible apply each_still) | (with_reducible apply foldl_still) | (with_reducible apply setPin_still) | split | (intros; with_reducible assumption) | intro _ _ _ | (with_reducible refine still_fst (by with_reducible assumption) ?_) | dsimp only)

theorem runPins_still {s : State}  (hk : Still s0 s) : Still s0 (State.runPins s) := by
  unfold State.runPins
  try dsimp only
  repeat' (first | (with_reducible assumption) | (with_reducible apply each_still) | (with_reducible apply foldl_still) | (with_reducible apply setPin_still) | split | (intros; with_reducible assumption) | intro _ _ _ | (with_reducible refine still_fst (by with_reducible assumption) ?_) | dsimp only)

theorem change_still {s : State} (q : Nat) (l : Nat) (c : Chg) (hk : Still s0 s) : Still s0 (State.change s q l c) := by
  unfold State.change
  try dsimp only
  repeat' (first | (with_reducible assumption) | (with_reducible apply each_still) | (with_reducible apply foldl_still) | (with_reducible apply setLane_still) | (with_reducible apply setRb_still) | split | (intros; with_reducible assumption) | intro _ _ _ | (with_reducible refine still_fst (by with_reducible assumption) ?_) | dsimp only)

theorem changeMask_still {s : State} (q : Nat) (mask : Nat) (ph : Nat) (pri : Nat) (op : Nat → ChgOp) (hk : Still s0 s) : Still s0 (State.changeMask s q mask ph pri op) := by
  unfold State.changeMask
  try dsimp only
  repeat' (first | (with_reducible assumption) | (with_reducible apply each_still) | (with_reducible apply foldl_still) | (with_reducible apply change_still) | split | (intros; with_reducible assumption) | intro _ _ _ | (with_reducible refine still_fst (by with_reducible assumption) ?_) | dsimp only)

theorem setTrig_still {s : State} (q : Nat) (mask : Byte) (hk : Still s0 s) : Still s0 (State.setTrig s q mask) := by
  unfold State.setTrig
  try dsimp only
  repeat' (first | (with_reducible assumption) | (with_reducible apply each_still) | (with_reducible apply foldl_still) | (with_reducible apply setPsq_still) | split | (intros; with_reducible assumption) | intro _ _ _ | (with_reducible refine still_fst (by with_reducible assumption) ?_) | dsimp only)

theorem clrTrig_still {s : State} (q : Nat) (b : Nat) (hk : Still s0 s) : Still s0 (State.clrTrig s q b) := by
  unfold State.clrTrig
  try dsimp only
  repeat' (first | (with_reducible assumption) | (with_reducible apply each_still) | (with_reducible apply foldl_still) | (with_reducible apply setPsq_still) | split | (intros; with_reducible assumption) | intro _ _ _ | (with_reducible refine still_fst (by with_reducible assumption) ?_) | dsimp only)

theorem vwrite_still {s : State} (q : Nat) (pri : Nat) (n : Nat) (v : Nat) (hk : Still s0 s) : Still s0 (State.vwrite s q pri n v) := by
  unfold State.vwrite
  try dsimp only
  repeat' (first | (with_reducible assumption) | (with_reducible apply each_still) | (with_reducible apply foldl_still) | (with_reducible apply setPsq_still) | split | (intros; with_reducible assumption) | intro _ _ _ | (with_reducible refine still_fst (by with_reducible assumption) ?_) | dsimp only)

theorem settleV_still {s : State} (q : Nat) (hk : Still s0 s) : Still s0 (State.settleV s q) := by
  unfold State.settleV
  try dsimp only
  repeat' (first | (with_reducible assumption) | (with_reducible apply each_still) | (with_reducible apply foldl_still) | (with_reducible apply setPsq_still) | (with_reducible apply setRf_still) | split | (intros; with_reducible assumption) | intro _ _ _ | (with_reducible refine still_fst (by with_reducible assumption) ?_) | dsimp only)

theorem setCnt_still {s : State} (q : Nat) (k : Nat) (c : Counter) (hk : Still s0 s) : Still s0 (State.setCnt s q k c) := by
  unfold State.setCnt
  try dsimp only
  repeat' (first | (with_reducible assumption) | (with_reducible apply each_still) | (with_reducible apply foldl_still) | (with_reducible apply setPsq_still) | split | (intros; with_reducible assumption) | intro _ _ _ | (with_reducible refine still_fst (by with_reducible assumption) ?_) | dsimp only)

theorem pwm_still {s : State} (q : Nat) (k : Nat) (hk : Still s0 s) : Still s0 (State.pwm s q k) := by
  unfold State.pwm
  try dsimp only
  repeat' (first | (with_reducible assumption) | (with_reducible apply each_still) | (with_reducible apply foldl_still) | (with_reducible apply setLane_still) | split | (intros; with_reducible assumption) | intro _ _ _ | (with_reducible refine still_fst (by with_reducible assumption) ?_) | dsimp only)

theorem countUp_still {s : State} (q : Nat) (k : Nat) (hk : Still s0 s) : Still s0 (State.countUp s q k) := by
  unfold State.countUp
  try dsimp only
  repeat' (first | (with_reducible assumption) | (with_reducible apply each_still) | (with_reducible apply foldl_still) | (with_reducible apply setRb_still) | (with_reducible apply setFlag_still) | (with_reducible apply setCnt_still) | (with_reducible apply pwm_still) | split | (intros; with_reducible assumption) | intro _ _ _ | (with_reducible refine still_fst (by with_reducible assumption) ?_) | dsimp only)

theorem quad_still {s : State} (q : Nat) (k : Nat) (onA : Bool) (hk : Still s0 s) : Still s0 (State.quad s q k onA) := by
  unfold State.quad
  try dsimp only
  repeat' (first | (with_reducible assumption) | (with_reducible apply each_still) | (with_reducible apply foldl_still) | (with_reducible apply setRb_still) | (with_reducible apply setCnt_still) | (with_reducible apply pwm_still) | split | (intros; with_reducible assumption) | intro _ _ _ | (with_reducible refine still_fst (by with_reducible assumption) ?_) | dsimp only)

theorem countEdge_still {s : State} (q : Nat) (l : Nat) (lvl : Bool) (hk : Still s0 s) : Still s0 (State.countEdge s q l lvl) := by
  unfold State.countEdge
  try dsimp only
  repeat' (first | (with_reducible assumption) | (with_reducible apply each_still) | (with_reducible apply foldl_still) | (with_reducible apply countUp_still) | (with_reducible apply quad_still) | split | (intros; with_reducible assumption) | intro _ _ _ | (with_reducible refine still_fst (by with_reducible assumption) ?_) | dsimp only)

theorem settleCaps_still {s : State} (q : Nat) (l : Nat) (hk : Still s0 s) : Still s0 (State.settleCaps s q l) := by
  unfold State.settleCaps
  try dsimp only
  repeat' (first | (with_reducible assumption) | (with_reducible apply each_still) | (with_reducible apply foldl_still) | (with_reducible apply setLane_still) | (with_reducible apply setRb_still) | (with_reducible apply bumpRf_still) | split | (intros; with_reducible assumption) | intro _ _ _ | (with_reducible refine still_fst (by with_reducible assumption) ?_) | dsimp only)

theorem settleFl_still {s : State} (q : Nat) (l : Nat) (hk : Still s0 s) : Still s0 (State.settleFl s q l) := by
  unfold State.settleFl
  try dsimp only
  repeat' (first | (with_reducible assumption) | (with_reducible apply each_still) | (with_reducible apply foldl_still) | (with_reducible apply setLane_still) | split | (intros; with_reducible assumption) | intro _ _ _ | (with_reducible refine still_fst (by with_reducible assumption) ?_) | dsimp only)

theorem settleLane_still {s : State} (q : Nat) (l : Nat) (hk : Still s0 s) : Still s0 (State.settleLane s q l) := by
  unfold State.settleLane
  try dsimp only
  repeat' (first | (with_reducible assumption) | (with_reducible apply each_still) | (with_reducible apply foldl_still) | (with_reducible apply setLane_still) | split | (intros; with_reducible assumption) | intro _ _ _ | (with_reducible refine still_fst (by with_reducible assumption) ?_) | dsimp only)

theorem popCap_still {s : State} (q : Nat) (l : Nat) (hk : Still s0 s) : Still s0 (State.popCap s q l).1 := by
  unfold State.popCap
  try dsimp only
  repeat' (first | (with_reducible assumption) | (with_reducible apply each_still) | (with_reducible apply foldl_still) | (with_reducible apply setLane_still) | split | (intros; with_reducible assumption) | intro _ _ _ | (with_reducible refine still_fst (by with_reducible assumption) ?_) | dsimp only)

theorem stopCounters_still {s : State} (q : Nat) (hk : Still s0 s) : Still s0 (State.stopCounters s q) := by
  unfold State.stopCounters
  try dsimp only
  repeat' (first | (with_reducible assumption) | (with_reducible apply each_still) | (with_reducible apply foldl_still) | (with_reducible apply setRb_still) | split | (intros; with_reducible assumption) | intro _ _ _ | (with_reducible refine still_fst (by with_reducible assumption) ?_) | dsimp only)

theorem psqHalt_still {s : State} (q : Nat) (counters : Bool) (hk : Still s0 s) : Still s0 (State.psqHalt s q counters) := by
  unfold State.psqHalt
  try dsimp only
  repeat' (first | (with_reducible assumption) | (with_reducible apply each_still) | (with_reducible apply foldl_still) | (with_reducible apply setPsq_still) | (with_reducible apply stopCounters_still) | split | (intros; with_reducible assumption) | intro _ _ _ | (with_reducible refine still_fst (by with_reducible assumption) ?_) | dsimp only)

theorem psqStart_still {s : State} (q : Nat) (ran : Option Nat) (hk : Still s0 s) : Still s0 (State.psqStart s q ran) := by
  unfold State.psqStart
  try dsimp only
  repeat' (first | (with_reducible assumption) | (with_reducible apply each_still) | (with_reducible apply foldl_still) | (with_reducible apply setPsq_still) | (with_reducible apply setLane_still) | split | (intros; with_reducible assumption) | intro _ _ _ | (with_reducible refine still_fst (by with_reducible assumption) ?_) | dsimp only)

theorem psqFault_still {s : State} (q : Nat) (code : Nat) (dirm : Bool) (hk : Still s0 s) : Still s0 (State.psqFault s q code dirm) := by
  unfold State.psqFault
  try dsimp only
  repeat' (first | (with_reducible assumption) | (with_reducible apply each_still) | (with_reducible apply foldl_still) | (with_reducible apply setReg_still) | (with_reducible apply report_still) | (with_reducible apply psqHalt_still) | split | (intros; with_reducible assumption) | intro _ _ _ | (with_reducible refine still_fst (by with_reducible assumption) ?_) | dsimp only)

theorem engine_still {s : State} (q op : Nat) (body : State → Word → State) (hk : Still s0 s)
    (hb : ∀ s w, Still s0 s → Still s0 (body s w)) : Still s0 (s.engine q op body) := by
  unfold State.engine
  dsimp only
  repeat' split
  · exact hk
  · exact psqFault_still _ _ _ hk
  · exact hb _ _ (setPsq_still _ _ hk)
  · exact hk

theorem psqGo_still {s : State} (q : Nat) (pc : Byte) (hk : Still s0 s) : Still s0 (State.psqGo s q pc) := by
  unfold State.psqGo
  try dsimp only
  repeat' (first | (with_reducible assumption) | (with_reducible apply each_still) | (with_reducible apply foldl_still) | (with_reducible apply setPsq_still) | split | (intros; with_reducible assumption) | intro _ _ _ | (with_reducible refine still_fst (by with_reducible assumption) ?_) | dsimp only)

theorem psqNext_still {s : State} (q : Nat) (hk : Still s0 s) : Still s0 (State.psqNext s q) := by
  unfold State.psqNext
  try dsimp only
  repeat' (first | (with_reducible assumption) | (with_reducible apply each_still) | (with_reducible apply foldl_still) | (with_reducible apply psqGo_still) | split | (intros; with_reducible assumption) | intro _ _ _ | (with_reducible refine still_fst (by with_reducible assumption) ?_) | dsimp only)

theorem psqWait_still {s : State} (q : Nat) (met : Bool) (hk : Still s0 s) : Still s0 (State.psqWait s q met) := by
  unfold State.psqWait
  try dsimp only
  repeat' (first | (with_reducible assumption) | (with_reducible apply each_still) | (with_reducible apply foldl_still) | (with_reducible apply setPsq_still) | (with_reducible apply psqNext_still) | split | (intros; with_reducible assumption) | intro _ _ _ | (with_reducible refine still_fst (by with_reducible assumption) ?_) | dsimp only)

theorem setSh_still {s : State} (q : Nat) (k : Nat) (x : Shift) (hk : Still s0 s) : Still s0 (State.setSh s q k x) := by
  unfold State.setSh
  try dsimp only
  repeat' (first | (with_reducible assumption) | (with_reducible apply each_still) | (with_reducible apply foldl_still) | (with_reducible apply setPsq_still) | split | (intros; with_reducible assumption) | intro _ _ _ | (with_reducible refine still_fst (by with_reducible assumption) ?_) | dsimp only)

theorem outb_still {s : State} (q : Nat) (w : Word) (hk : Still s0 s) : Still s0 (State.outb s q w) := by
  unfold State.outb
  try dsimp only
  repeat' (first | (with_reducible assumption) | (with_reducible apply each_still) | (with_reducible apply foldl_still) | (with_reducible apply setPsq_still) | (with_reducible apply change_still) | (with_reducible apply psqFault_still) | (with_reducible apply psqNext_still) | (with_reducible apply setSh_still) | split | (intros; with_reducible assumption) | intro _ _ _ | (with_reducible refine still_fst (by with_reducible assumption) ?_) | dsimp only)

theorem inb_still {s : State} (q : Nat) (w : Word) (hk : Still s0 s) : Still s0 (State.inb s q w) := by
  unfold State.inb
  try dsimp only
  repeat' (first | (with_reducible assumption) | (with_reducible apply each_still) | (with_reducible apply foldl_still) | (with_reducible apply setPsq_still) | (with_reducible apply psqFault_still) | (with_reducible apply psqNext_still) | (with_reducible apply setSh_still) | split | (intros; with_reducible assumption) | intro _ _ _ | (with_reducible refine still_fst (by with_reducible assumption) ?_) | dsimp only)

theorem actionLate_still {s : State} (q : Nat) (a : DWord) (db : Nat) (hk : Still s0 s) : Still s0 (State.actionLate s q a db) := by
  unfold State.actionLate
  try dsimp only
  repeat' (first | (with_reducible assumption) | (with_reducible apply each_still) | (with_reducible apply foldl_still) | (with_reducible apply bumpRf_still) | (with_reducible apply report_still) | split | (intros; with_reducible assumption) | intro _ _ _ | (with_reducible refine still_fst (by with_reducible assumption) ?_) | dsimp only)

theorem queueAction_still {s : State} (q : Nat) (a : DWord) (hk : Still s0 s) : Still s0 (State.queueAction s q a).1 := by
  unfold State.queueAction
  try dsimp only
  repeat' (first | (with_reducible assumption) | (with_reducible apply each_still) | (with_reducible apply foldl_still) | (with_reducible apply setPsq_still) | (with_reducible apply bumpRf_still) | split | (intros; with_reducible assumption) | intro _ _ _ | (with_reducible refine still_fst (by with_reducible assumption) ?_) | dsimp only)

theorem deliver_still {s : State} (q : Nat) (a : DWord) (hk : Still s0 s) : Still s0 (State.deliver s q a) := by
  unfold State.deliver
  try dsimp only
  repeat' (first | (with_reducible assumption) | (with_reducible apply each_still) | (with_reducible apply foldl_still) | (with_reducible apply setPsq_still) | (with_reducible apply actionLate_still) | split | (intros; with_reducible assumption) | intro _ _ _ | (with_reducible refine still_fst (by with_reducible assumption) ?_) | dsimp only)

theorem runAction_still {s : State} (q kind : Nat) (act : State → DWord → State) (hk : Still s0 s)
    (hb : ∀ s a, Still s0 s → Still s0 (act s a)) : Still s0 (s.runAction q kind act) := by
  unfold State.runAction
  dsimp only
  repeat' split
  · exact hk
  · exact hk
  · exact bump_still _ _ (hb _ _ (setPsq_still _ _ hk))

theorem readSh_still {s : State} (q : Nat) (k : Nat) (hk : Still s0 s) : Still s0 (State.readSh s q k).1 := by
  unfold State.readSh
  try dsimp only
  repeat' (first | (with_reducible assumption) | (with_reducible apply each_still) | (with_reducible apply foldl_still) | (with_reducible apply setSh_still) | split | (intros; with_reducible assumption) | intro _ _ _ | (with_reducible refine still_fst (by with_reducible assumption) ?_) | dsimp only)

theorem writeSh_still {s : State} (q : Nat) (k : Nat) (v : DWord) (hk : Still s0 s) : Still s0 (State.writeSh s q k v).1 := by
  unfold State.writeSh
  try dsimp only
  repeat' (first | (with_reducible assumption) | (with_reducible apply each_still) | (with_reducible apply foldl_still) | (with_reducible apply setSh_still) | split | (intros; with_reducible assumption) | intro _ _ _ | (with_reducible refine still_fst (by with_reducible assumption) ?_) | dsimp only)

theorem portRead_still {s : State} (q : Nat) (port : Nat) (hk : Still s0 s) : Still s0 (State.portRead s q port).1 := by
  unfold State.portRead
  try dsimp only
  repeat' (first | (with_reducible assumption) | (with_reducible apply each_still) | (with_reducible apply foldl_still) | (with_reducible apply popCap_still) | (with_reducible apply readSh_still) | split | (intros; with_reducible assumption) | intro _ _ _ | (with_reducible refine still_fst (by with_reducible assumption) ?_) | dsimp only)

theorem psqCommand_still {s : State} (q : Nat) (cmd : Nat) (hk : Still s0 s) : Still s0 (State.psqCommand s q cmd).1 := by
  unfold State.psqCommand
  try dsimp only
  repeat' (first | (with_reducible assumption) | (with_reducible apply each_still) | (with_reducible apply foldl_still) | (with_reducible apply psqHalt_still) | (with_reducible apply psqStart_still) | split | (intros; with_reducible assumption) | intro _ _ _ | (with_reducible refine still_fst (by with_reducible assumption) ?_) | dsimp only)

theorem portWrite_still {s : State} (q : Nat) (port : Nat) (v : DWord) (hk : Still s0 s) : Still s0 (State.portWrite s q port v).1 := by
  unfold State.portWrite
  try dsimp only
  repeat' (first | (with_reducible assumption) | (with_reducible apply each_still) | (with_reducible apply foldl_still) | (with_reducible apply setPsq_still) | (with_reducible apply setTrig_still) | (with_reducible apply vwrite_still) | (with_reducible apply writeSh_still) | (with_reducible apply psqCommand_still) | split | (intros; with_reducible assumption) | intro _ _ _ | (with_reducible refine still_fst (by with_reducible assumption) ?_) | dsimp only)

theorem psqConfigure_still {s : State} (q : Nat) (hk : Still s0 s) : Still s0 (State.psqConfigure s q) := by
  unfold State.psqConfigure
  try dsimp only
  repeat' (first | (with_reducible assumption) | (with_reducible apply each_still) | (with_reducible apply foldl_still) | (with_reducible apply setPsq_still) | (with_reducible apply bumpRf_still) | (with_reducible apply stopCounters_still) | (with_reducible apply psqHalt_still) | split | (intros; with_reducible assumption) | intro _ _ _ | (with_reducible refine still_fst (by with_reducible assumption) ?_) | dsimp only)

theorem psqHold_still {s : State} (q : Nat) (hk : Still s0 s) : Still s0 (State.psqHold s q) := by
  unfold State.psqHold
  try dsimp only
  repeat' (first | (with_reducible assumption) | (with_reducible apply each_still) | (with_reducible apply foldl_still) | (with_reducible apply setPsq_still) | split | (intros; with_reducible assumption) | intro _ _ _ | (with_reducible refine still_fst (by with_reducible assumption) ?_) | dsimp only)

theorem psqReturn_still {s : State} (q : Nat) (hk : Still s0 s) : Still s0 (State.psqReturn s q) := by
  unfold State.psqReturn
  try dsimp only
  repeat' (first | (with_reducible assumption) | (with_reducible apply each_still) | (with_reducible apply foldl_still) | (with_reducible apply setPsq_still) | (with_reducible apply actionLate_still) | split | (intros; with_reducible assumption) | intro _ _ _ | (with_reducible refine still_fst (by with_reducible assumption) ?_) | dsimp only)

theorem touch_still {s : State}  (hk : Still s0 s) : Still s0 (State.touch s) := by
  unfold State.touch
  try dsimp only
  repeat' (first | (with_reducible assumption) | (with_reducible apply each_still) | (with_reducible apply foldl_still) | split | (intros; with_reducible assumption) | intro _ _ _ | (with_reducible refine still_fst (by with_reducible assumption) ?_) | dsimp only | (with_reducible apply upd_commons_still))

theorem advanceTime_still {s : State}  (hk : Still s0 s) : Still s0 (State.advanceTime s) := by
  unfold State.advanceTime
  try dsimp only
  repeat' (first | (with_reducible assumption) | (with_reducible apply each_still) | (with_reducible apply foldl_still) | split | (intros; with_reducible assumption) | intro _ _ _ | (with_reducible refine still_fst (by with_reducible assumption) ?_) | dsimp only | (with_reducible apply upd_commons_still))

theorem requestStep_still {s : State} (path : Nat) (w : Word) (hk : Still s0 s) : Still s0 (State.requestStep s path w).1 := by
  unfold State.requestStep
  try dsimp only
  repeat' (first | (with_reducible assumption) | (with_reducible apply each_still) | (with_reducible apply foldl_still) | (with_reducible apply setReg_still) | (with_reducible apply setRb_still) | (with_reducible apply bumpRf_still) | (with_reducible apply report_still) | (with_reducible apply touch_still) | split | (intros; with_reducible assumption) | intro _ _ _ | (with_reducible refine still_fst (by with_reducible assumption) ?_) | dsimp only | (with_reducible apply upd_commons_still))

theorem syncLost_still {s : State} (why : Nat) (hk : Still s0 s) : Still s0 (State.syncLost s why) := by
  unfold State.syncLost
  try dsimp only
  repeat' (first | (with_reducible assumption) | (with_reducible apply each_still) | (with_reducible apply foldl_still) | (with_reducible apply setRb_still) | (with_reducible apply report_still) | split | (intros; with_reducible assumption) | intro _ _ _ | (with_reducible refine still_fst (by with_reducible assumption) ?_) | dsimp only)

theorem tmrCapture_still {s : State} (ch : Nat) (hk : Still s0 s) : Still s0 (State.tmrCapture s ch) := by
  unfold State.tmrCapture
  try dsimp only
  repeat' (first | (with_reducible assumption) | (with_reducible apply each_still) | (with_reducible apply foldl_still) | (with_reducible apply setTimer_still) | split | (intros; with_reducible assumption) | intro _ _ _ | (with_reducible refine still_fst (by with_reducible assumption) ?_) | dsimp only)

theorem tmrPop_still {s : State} (ch : Nat) (hk : Still s0 s) : Still s0 (State.tmrPop s ch).1 := by
  unfold State.tmrPop
  try dsimp only
  repeat' (first | (with_reducible assumption) | (with_reducible apply each_still) | (with_reducible apply foldl_still) | (with_reducible apply setTimer_still) | split | (intros; with_reducible assumption) | intro _ _ _ | (with_reducible refine still_fst (by with_reducible assumption) ?_) | dsimp only)

theorem tmrSettle_still {s : State} (ch : Nat) (hk : Still s0 s) : Still s0 (State.tmrSettle s ch) := by
  unfold State.tmrSettle
  try dsimp only
  repeat' (first | (with_reducible assumption) | (with_reducible apply each_still) | (with_reducible apply foldl_still) | (with_reducible apply setTimer_still) | (with_reducible apply setRb_still) | (with_reducible apply bumpRf_still) | split | (intros; with_reducible assumption) | intro _ _ _ | (with_reducible refine still_fst (by with_reducible assumption) ?_) | dsimp only)

theorem flagCaptures_still {s : State} (c : Nat) (f : Nat) (hk : Still s0 s) : Still s0 (State.flagCaptures s c f) := by
  unfold State.flagCaptures
  try dsimp only
  repeat' (first | (with_reducible assumption) | (with_reducible apply each_still) | (with_reducible apply foldl_still) | (with_reducible apply tmrCapture_still) | split | (intros; with_reducible assumption) | intro _ _ _ | (with_reducible refine still_fst (by with_reducible assumption) ?_) | dsimp only)

theorem tmrAdvance_still {s : State} (ch : Nat) (hk : Still s0 s) : Still s0 (State.tmrAdvance s ch) := by
  unfold State.tmrAdvance
  try dsimp only
  repeat' (first | (with_reducible assumption) | (with_reducible apply each_still) | (with_reducible apply foldl_still) | (with_reducible apply setTimer_still) | (with_reducible apply setRb_still) | (with_reducible apply bumpRf_still) | split | (intros; with_reducible assumption) | intro _ _ _ | (with_reducible refine still_fst (by with_reducible assumption) ?_) | dsimp only)

theorem tmrSlaves_still {s : State} (m : Nat) (hk : Still s0 s) : Still s0 (State.tmrSlaves s m) := by
  unfold State.tmrSlaves
  try dsimp only
  repeat' (first | (with_reducible assumption) | (with_reducible apply each_still) | (with_reducible apply foldl_still) | (with_reducible apply setTimer_still) | (with_reducible apply tmrCapture_still) | split | (intros; with_reducible assumption) | intro _ _ _ | (with_reducible refine still_fst (by with_reducible assumption) ?_) | dsimp only)

theorem tmrFire_still {s : State} (ch : Nat) (hk : Still s0 s) : Still s0 (State.tmrFire s ch) := by
  unfold State.tmrFire
  try dsimp only
  repeat' (first | (with_reducible assumption) | (with_reducible apply each_still) | (with_reducible apply foldl_still) | (with_reducible apply bump_still) | (with_reducible apply setFlagAt_still) | (with_reducible apply flagCaptures_still) | (with_reducible apply tmrAdvance_still) | (with_reducible apply tmrSlaves_still) | split | (intros; with_reducible assumption) | intro _ _ _ | (with_reducible refine still_fst (by with_reducible assumption) ?_) | dsimp only)

theorem tmrEnable_still {s : State} (ch : Nat) (hk : Still s0 s) : Still s0 (State.tmrEnable s ch) := by
  unfold State.tmrEnable
  try dsimp only
  repeat' (first | (with_reducible assumption) | (with_reducible apply each_still) | (with_reducible apply foldl_still) | (with_reducible apply setTimer_still) | split | (intros; with_reducible assumption) | intro _ _ _ | (with_reducible refine still_fst (by with_reducible assumption) ?_) | dsimp only)

theorem tmrSetCmp_still {s : State} (ch : Nat) (v : DWord) (hk : Still s0 s) : Still s0 (State.tmrSetCmp s ch v) := by
  unfold State.tmrSetCmp
  try dsimp only
  repeat' (first | (with_reducible assumption) | (with_reducible apply each_still) | (with_reducible apply foldl_still) | (with_reducible apply setTimer_still) | split | (intros; with_reducible assumption) | intro _ _ _ | (with_reducible refine still_fst (by with_reducible assumption) ?_) | dsimp only)

theorem tmrSetIvl_still {s : State} (ch : Nat) (v : DWord) (hk : Still s0 s) : Still s0 (State.tmrSetIvl s ch v) := by
  unfold State.tmrSetIvl
  try dsimp only
  repeat' (first | (with_reducible assumption) | (with_reducible apply each_still) | (with_reducible apply foldl_still) | (with_reducible apply setTimer_still) | split | (intros; with_reducible assumption) | intro _ _ _ | (with_reducible refine still_fst (by with_reducible assumption) ?_) | dsimp only)

theorem tmrGo_still {s : State} (ch : Nat) (hk : Still s0 s) : Still s0 (State.tmrGo s ch) := by
  unfold State.tmrGo
  try dsimp only
  repeat' (first | (with_reducible assumption) | (with_reducible apply each_still) | (with_reducible apply foldl_still) | (with_reducible apply tmrCapture_still) | split | (intros; with_reducible assumption) | intro _ _ _ | (with_reducible refine still_fst (by with_reducible assumption) ?_) | dsimp only)

theorem tmrReturn_still {s : State}  (hk : Still s0 s) : Still s0 (State.tmrReturn s) := by
  unfold State.tmrReturn
  try dsimp only
  repeat' (first | (with_reducible assumption) | (with_reducible apply each_still) | (with_reducible apply foldl_still) | (with_reducible apply setTimer_still) | split | (intros; with_reducible assumption) | intro _ _ _ | (with_reducible refine still_fst (by with_reducible assumption) ?_) | dsimp only)

theorem lag_still {s : State} (k : LagKey) (old : Word) (hk : Still s0 s) : Still s0 (State.lag s k old) := by
  unfold State.lag
  try dsimp only
  repeat' (first | (with_reducible assumption) | (with_reducible apply each_still) | (with_reducible apply foldl_still) | split | (intros; with_reducible assumption) | intro _ _ _ | (with_reducible refine still_fst (by with_reducible assumption) ?_) | dsimp only | (with_reducible apply upd_lags_still))

theorem goOn_still {s : State} (g : Nat) (nxt : Word) (hk : Still s0 s) : Still s0 (State.goOn s g nxt) := by
  unfold State.goOn
  try dsimp only
  repeat' (first | (with_reducible assumption) | (with_reducible apply each_still) | (with_reducible apply foldl_still) | (with_reducible apply setThr_still) | split | (intros; with_reducible assumption) | intro _ _ _ | (with_reducible refine still_fst (by with_reducible assumption) ?_) | dsimp only)

theorem toIdle_still {s : State} (g : Nat) (hk : Still s0 s) : Still s0 (State.toIdle s g) := by
  unfold State.toIdle
  try dsimp only
  repeat' (first | (with_reducible assumption) | (with_reducible apply each_still) | (with_reducible apply foldl_still) | (with_reducible apply setThr_still) | (with_reducible apply leaveChans_still) | split | (intros; with_reducible assumption) | intro _ _ _ | (with_reducible refine still_fst (by with_reducible assumption) ?_) | dsimp only)

theorem threadFault_still {s : State} (g : Nat) (code : Nat) (db : Word) (hk : Still s0 s) : Still s0 (State.threadFault s g code db) := by
  unfold State.threadFault
  try dsimp only
  repeat' (first | (with_reducible assumption) | (with_reducible apply each_still) | (with_reducible apply foldl_still) | (with_reducible apply setThr_still) | (with_reducible apply setReg_still) | (with_reducible apply report_still) | (with_reducible apply leaveChans_still) | split | (intros; with_reducible assumption) | intro _ _ _ | (with_reducible refine still_fst (by with_reducible assumption) ?_) | dsimp only)

theorem toHalted_still {s : State} (g : Nat) (cause : Nat) (bp : Nat) (hk : Still s0 s) : Still s0 (State.toHalted s g cause bp) := by
  unfold State.toHalted
  try dsimp only
  repeat' (first | (with_reducible assumption) | (with_reducible apply each_still) | (with_reducible apply foldl_still) | (with_reducible apply setThr_still) | split | (intros; with_reducible assumption) | intro _ _ _ | (with_reducible refine still_fst (by with_reducible assumption) ?_) | dsimp only)

theorem stopThread_still {s : State} (g : Nat) (hk : Still s0 s) : Still s0 (State.stopThread s g) := by
  unfold State.stopThread
  try dsimp only
  repeat' (first | (with_reducible assumption) | (with_reducible apply each_still) | (with_reducible apply foldl_still) | (with_reducible apply setThr_still) | (with_reducible apply toIdle_still) | split | (intros; with_reducible assumption) | intro _ _ _ | (with_reducible refine still_fst (by with_reducible assumption) ?_) | dsimp only)

theorem haltThread_still {s : State} (g : Nat) (cause : Nat) (hk : Still s0 s) : Still s0 (State.haltThread s g cause) := by
  unfold State.haltThread
  try dsimp only
  repeat' (first | (with_reducible assumption) | (with_reducible apply each_still) | (with_reducible apply foldl_still) | (with_reducible apply setThr_still) | (with_reducible apply toHalted_still) | split | (intros; with_reducible assumption) | intro _ _ _ | (with_reducible refine still_fst (by with_reducible assumption) ?_) | dsimp only)

theorem stopNow_still {s : State} (g : Nat) (hk : Still s0 s) : Still s0 (State.stopNow s g) := by
  unfold State.stopNow
  try dsimp only
  repeat' (first | (with_reducible assumption) | (with_reducible apply each_still) | (with_reducible apply foldl_still) | (with_reducible apply setThr_still) | (with_reducible apply toIdle_still) | (with_reducible apply toHalted_still) | split | (intros; with_reducible assumption) | intro _ _ _ | (with_reducible refine still_fst (by with_reducible assumption) ?_) | dsimp only)

theorem startThread_still {s : State} (g : Nat) (hk : Still s0 s) : Still s0 (State.startThread s g) := by
  unfold State.startThread
  try dsimp only
  repeat' (first | (with_reducible assumption) | (with_reducible apply each_still) | (with_reducible apply foldl_still) | (with_reducible apply setThr_still) | split | (intros; with_reducible assumption) | intro _ _ _ | (with_reducible refine still_fst (by with_reducible assumption) ?_) | dsimp only)

theorem wakeDoze_still {s : State} (g : Nat) (hk : Still s0 s) : Still s0 (State.wakeDoze s g) := by
  unfold State.wakeDoze
  try dsimp only
  repeat' (first | (with_reducible assumption) | (with_reducible apply each_still) | (with_reducible apply foldl_still) | (with_reducible apply setThr_still) | (with_reducible apply goOn_still) | split | (intros; with_reducible assumption) | intro _ _ _ | (with_reducible refine still_fst (by with_reducible assumption) ?_) | dsimp only)

theorem resume_still {s : State} (g : Nat) (first : Nat) (hk : Still s0 s) : Still s0 (State.resume s g first) := by
  unfold State.resume
  try dsimp only
  repeat' (first | (with_reducible assumption) | (with_reducible apply each_still) | (with_reducible apply foldl_still) | (with_reducible apply setThr_still) | (with_reducible apply wakeDoze_still) | split | (intros; with_reducible assumption) | intro _ _ _ | (with_reducible refine still_fst (by with_reducible assumption) ?_) | dsimp only)

theorem tcmdCmd_still {s : State} (n : Nat) (cmd : Nat) (t : Nat) (hk : Still s0 s) : Still s0 (State.tcmdCmd s n cmd t).1 := by
  unfold State.tcmdCmd
  try dsimp only
  repeat' (first | (with_reducible assumption) | (with_reducible apply each_still) | (with_reducible apply foldl_still) | (with_reducible apply setThr_still) | (with_reducible apply toIdle_still) | (with_reducible apply stopThread_still) | (with_reducible apply startThread_still) | split | (intros; with_reducible assumption) | intro _ _ _ | (with_reducible refine still_fst (by with_reducible assumption) ?_) | dsimp only)

theorem debugCmd_still {s : State} (n : Nat) (cmd : Nat) (t : Nat) (hk : Still s0 s) : Still s0 (State.debugCmd s n cmd t).1 := by
  unfold State.debugCmd
  try dsimp only
  repeat' (first | (with_reducible assumption) | (with_reducible apply each_still) | (with_reducible apply foldl_still) | (with_reducible apply setThr_still) | (with_reducible apply haltThread_still) | (with_reducible apply resume_still) | split | (intros; with_reducible assumption) | intro _ _ _ | (with_reducible refine still_fst (by with_reducible assumption) ?_) | dsimp only)

theorem moverStat_still {s : State} (m : Nat) (busy : Bool) (err : Nat) (hk : Still s0 s) : Still s0 (State.moverStat s m busy err) := by
  unfold State.moverStat
  try dsimp only
  repeat' (first | (with_reducible assumption) | (with_reducible apply each_still) | (with_reducible apply foldl_still) | (with_reducible apply setWord_still) | split | (intros; with_reducible assumption) | intro _ _ _ | (with_reducible refine still_fst (by with_reducible assumption) ?_) | dsimp only)

theorem moverStop_still {s : State} (m : Nat) (code : Nat) (da : Word) (hk : Still s0 s) : Still s0 (State.moverStop s m code da) := by
  unfold State.moverStop
  try dsimp only
  repeat' (first | (with_reducible assumption) | (with_reducible apply each_still) | (with_reducible apply foldl_still) | (with_reducible apply setMover_still) | (with_reducible apply report_still) | (with_reducible apply moverStat_still) | split | (intros; with_reducible assumption) | intro _ _ _ | (with_reducible refine still_fst (by with_reducible assumption) ?_) | dsimp only | (with_reducible apply upd_held_still))

theorem moverStart_still {s : State} (m : Nat) (hk : Still s0 s) : Still s0 (State.moverStart s m) := by
  unfold State.moverStart
  try dsimp only
  repeat' (first | (with_reducible assumption) | (with_reducible apply each_still) | (with_reducible apply foldl_still) | (with_reducible apply setMover_still) | (with_reducible apply touchRead_still) | (with_reducible apply setWord_still) | (with_reducible apply moverStat_still) | (with_reducible apply moverStop_still) | split | (intros; with_reducible assumption) | intro _ _ _ | (with_reducible refine still_fst (by with_reducible assumption) ?_) | dsimp only | (with_reducible apply upd_held_still))

theorem moverBoundary_still {s : State} (m : Nat) (hk : Still s0 s) : Still s0 (State.moverBoundary s m) := by
  unfold State.moverBoundary
  try dsimp only
  repeat' (first | (with_reducible assumption) | (with_reducible apply each_still) | (with_reducible apply foldl_still) | (with_reducible apply moverStart_still) | split | (intros; with_reducible assumption) | intro _ _ _ | (with_reducible refine still_fst (by with_reducible assumption) ?_) | dsimp only)

theorem moverRead_still {s : State} (c : Nat) (sp : Nat) (a : Nat) (hk : Still s0 s) : Still s0 (State.moverRead s c sp a).1 := by
  unfold State.moverRead
  try dsimp only
  repeat' (first | (with_reducible assumption) | (with_reducible apply each_still) | (with_reducible apply foldl_still) | (with_reducible apply touchRead_still) | split | (intros; with_reducible assumption) | intro _ _ _ | (with_reducible refine still_fst (by with_reducible assumption) ?_) | dsimp only)

theorem moverGather_still {s : State} (c sp n a : Nat) (acc : List Byte) (hk : Still s0 s) :
    Still s0 (s.moverGather c sp n a acc).1 := by
  induction n generalizing s a acc with
  | zero => exact hk
  | succ n ih =>
    unfold State.moverGather
    have h := moverRead_still c sp a hk
    split
    · rename_i e; exact still_fst e h
    · rename_i e; exact ih _ _ (still_fst e h)

theorem moverPut_still {s : State} (c sp a : Nat) (bs : List Byte) (hk : Still s0 s) : Still s0 (s.moverPut c sp a bs) := by
  unfold State.moverPut
  split
  · suffices h : ∀ (l : List Byte) (p : State × Nat), Still s0 p.1 →
        Still s0 (l.foldl (fun (p : State × Nat) b => (p.1.setChip p.2 b, p.2 + 1)) p).1 from h bs (s, a) hk
    intro l
    induction l with
    | nil => exact fun p h => h
    | cons b r ih => exact fun p h => ih _ (setChip_still _ _ h)
  · exact memWrite_still _ _ hk

theorem moverCopy_still {s : State} (c ssp dsp fuel n src dst : Nat) (hk : Still s0 s) :
    Still s0 (s.moverCopy c ssp dsp fuel n src dst).1 := by
  induction fuel generalizing s n src dst with
  | zero => exact hk
  | succ f ih =>
    unfold State.moverCopy
    split
    · exact hk
    · dsimp only
      split
      · exact hk
      · have h := moverGather_still c ssp (min (min n (8 - dst % 8)) (min (spaceSize ssp - src) (spaceSize dsp - dst))) src [] hk
        have h' : Still s0 (if (s.moverGather c ssp (min (min n (8 - dst % 8)) (min (spaceSize ssp - src) (spaceSize dsp - dst))) src []).2.1.isEmpty
            then (s.moverGather c ssp (min (min n (8 - dst % 8)) (min (spaceSize ssp - src) (spaceSize dsp - dst))) src []).1
            else (s.moverGather c ssp (min (min n (8 - dst % 8)) (min (spaceSize ssp - src) (spaceSize dsp - dst))) src []).1.moverPut c dsp dst
              (s.moverGather c ssp (min (min n (8 - dst % 8)) (min (spaceSize ssp - src) (spaceSize dsp - dst))) src []).2.1) :=
          ite_still h (moverPut_still _ _ _ _ h)
        split
        · exact h'
        · exact ih _ _ _ h'


theorem moverStep_still {s : State} (m : Nat) (hk : Still s0 s) : Still s0 (State.moverStep s m) := by
  unfold State.moverStep
  try dsimp only
  repeat' (first | (with_reducible assumption) | (with_reducible apply each_still) | (with_reducible apply foldl_still) | (with_reducible apply setMover_still) | (with_reducible apply touchRead_still) | (with_reducible apply moverStop_still) | (with_reducible apply moverCopy_still) | split | (intros; with_reducible assumption) | intro _ _ _ | (with_reducible refine still_fst (by with_reducible assumption) ?_) | dsimp only | (with_reducible apply upd_held_still))

theorem moversReturn_still {s : State}  (hk : Still s0 s) : Still s0 (State.moversReturn s) := by
  unfold State.moversReturn
  try dsimp only
  repeat' (first | (with_reducible assumption) | (with_reducible apply each_still) | (with_reducible apply foldl_still) | (with_reducible apply setMover_still) | split | (intros; with_reducible assumption) | intro _ _ _ | (with_reducible refine still_fst (by with_reducible assumption) ?_) | dsimp only | (with_reducible apply upd_held_still))

theorem moversConfigure_still {s : State}  (hk : Still s0 s) : Still s0 (State.moversConfigure s) := by
  unfold State.moversConfigure
  try dsimp only
  repeat' (first | (with_reducible assumption) | (with_reducible apply each_still) | (with_reducible apply foldl_still) | (with_reducible apply setMover_still) | (with_reducible apply moverStat_still) | split | (intros; with_reducible assumption) | intro _ _ _ | (with_reducible refine still_fst (by with_reducible assumption) ?_) | dsimp only | (with_reducible apply upd_held_still))

theorem gleanAdvance_still {s : State}  (hk : Still s0 s) : Still s0 (State.gleanAdvance s) := by
  unfold State.gleanAdvance
  try dsimp only
  repeat' (first | (with_reducible assumption) | (with_reducible apply each_still) | (with_reducible apply foldl_still) | (with_reducible apply bumpRf_still) | split | (intros; with_reducible assumption) | intro _ _ _ | (with_reducible refine still_fst (by with_reducible assumption) ?_) | dsimp only | (with_reducible apply upd_gleaner_still))

theorem gleanSeek_still {s : State}  (hk : Still s0 s) : Still s0 (State.gleanSeek s) := by
  unfold State.gleanSeek
  try dsimp only
  repeat' (first | (with_reducible assumption) | (with_reducible apply each_still) | (with_reducible apply foldl_still) | split | (intros; with_reducible assumption) | intro _ _ _ | (with_reducible refine still_fst (by with_reducible assumption) ?_) | dsimp only | (with_reducible apply upd_gleaner_still))

theorem gleanCopy_still {s : State}  (hk : Still s0 s) : Still s0 (State.gleanCopy s) := by
  unfold State.gleanCopy
  try dsimp only
  repeat' (first | (with_reducible assumption) | (with_reducible apply each_still) | (with_reducible apply foldl_still) | (with_reducible apply report_still) | (with_reducible apply setCell_still) | (with_reducible apply touchRead_still) | (with_reducible apply gleanAdvance_still) | (with_reducible apply gleanSeek_still) | split | (intros; with_reducible assumption) | intro _ _ _ | (with_reducible refine still_fst (by with_reducible assumption) ?_) | dsimp only | (with_reducible apply upd_gleaner_still))

theorem gleanFail_still {s : State} (addr : Nat) (bit : Nat) (chk : Bool) (hk : Still s0 s) : Still s0 (State.gleanFail s addr bit chk) := by
  unfold State.gleanFail
  try dsimp only
  repeat' (first | (with_reducible assumption) | (with_reducible apply each_still) | (with_reducible apply foldl_still) | (with_reducible apply setReg_still) | (with_reducible apply report_still) | split | (intros; with_reducible assumption) | intro _ _ _ | (with_reducible refine still_fst (by with_reducible assumption) ?_) | dsimp only | (with_reducible apply upd_gleaner_still))

theorem gleanStop_still {s : State}  (hk : Still s0 s) : Still s0 (State.gleanStop s) := by
  unfold State.gleanStop
  try dsimp only
  repeat' (first | (with_reducible assumption) | (with_reducible apply each_still) | (with_reducible apply foldl_still) | split | (intros; with_reducible assumption) | intro _ _ _ | (with_reducible refine still_fst (by with_reducible assumption) ?_) | dsimp only | (with_reducible apply upd_gleaner_still))

theorem zeroSecure_still {s : State} (hk : Still s0 s) : Still s0 s.zeroSecure := by
  have h : ∀ (t : State) (p q) (r : List Nat), Still s0 t →
      Still s0 { t with ram := t.ram.filter p, ecc := t.ecc.filter q, scrubs := r } := fun t p q r ht =>
    ht.trans ⟨rfl, rfl, rfl, rfl, rfl, rfl, rfl, rfl, rfl, wf_filter p, id⟩
  unfold State.zeroSecure
  dsimp only
  split <;> split
  · exact writeMarks_still _ _ (h _ _ _ _ (yield_still _ _ hk))
  · exact h _ _ _ _ (yield_still _ _ hk)
  · exact writeMarks_still _ _ (h _ _ _ _ hk)
  · exact h _ _ _ _ hk

theorem startWipe_still {s : State} (cause : Nat) (hk : Still s0 s) : Still s0 (State.startWipe s cause) := by
  unfold State.startWipe
  try dsimp only
  repeat' (first | (with_reducible assumption) | (with_reducible apply each_still) | (with_reducible apply foldl_still) | (with_reducible apply setRf_still) | (with_reducible apply setRb_still) | split | (intros; with_reducible assumption) | intro _ _ _ | (with_reducible refine still_fst (by with_reducible assumption) ?_) | dsimp only)

theorem enableDom_still {s : State} (d : Nat) (hk : Still s0 s) : Still s0 (State.enableDom s d) := by
  unfold State.enableDom
  try dsimp only
  repeat' (first | (with_reducible assumption) | (with_reducible apply each_still) | (with_reducible apply foldl_still) | (with_reducible apply setDom_still) | split | (intros; with_reducible assumption) | intro _ _ _ | (with_reducible refine still_fst (by with_reducible assumption) ?_) | dsimp only)

theorem disableDom_still {s : State} (d : Nat) (hk : Still s0 s) : Still s0 (State.disableDom s d) := by
  unfold State.disableDom
  try dsimp only
  repeat' (first | (with_reducible assumption) | (with_reducible apply each_still) | (with_reducible apply foldl_still) | (with_reducible apply setRb_still) | (with_reducible apply setHeld_still) | split | (intros; with_reducible assumption) | intro _ _ _ | (with_reducible refine still_fst (by with_reducible assumption) ?_) | dsimp only)

theorem lateRecord_still {s : State} (d : Nat) (g : Nat) (n : Word) (kind : Nat) (hk : Still s0 s) : Still s0 (State.lateRecord s d g n kind) := by
  unfold State.lateRecord
  try dsimp only
  repeat' (first | (with_reducible assumption) | (with_reducible apply each_still) | (with_reducible apply foldl_still) | (with_reducible apply setReg_still) | (with_reducible apply setRb_still) | (with_reducible apply bump_still) | split | (intros; with_reducible assumption) | intro _ _ _ | (with_reducible refine still_fst (by with_reducible assumption) ?_) | dsimp only)

theorem late_still {s : State} (g : Nat) (p : Part) (kind : Nat) (hk : Still s0 s) : Still s0 (State.late s g p kind) := by
  unfold State.late
  try dsimp only
  repeat' (first | (with_reducible assumption) | (with_reducible apply each_still) | (with_reducible apply foldl_still) | (with_reducible apply report_still) | (with_reducible apply abort_still) | (with_reducible apply lateRecord_still) | split | (intros; with_reducible assumption) | intro _ _ _ | (with_reducible refine still_fst (by with_reducible assumption) ?_) | dsimp only)

theorem checkThread_still {s : State} (g : Nat) (p : Part) (kind : Nat) (hk : Still s0 s) : Still s0 (State.checkThread s g p kind) := by
  unfold State.checkThread
  try dsimp only
  repeat' (first | (with_reducible assumption) | (with_reducible apply each_still) | (with_reducible apply foldl_still) | (with_reducible apply setThr_still) | (with_reducible apply bump_still) | (with_reducible apply late_still) | split | (intros; with_reducible assumption) | intro _ _ _ | (with_reducible refine still_fst (by with_reducible assumption) ?_) | dsimp only)

theorem checkMover_still {s : State} (m : Nat) (d : Nat) (n : Word) (kind : Nat) (hk : Still s0 s) : Still s0 (State.checkMover s m d n kind) := by
  unfold State.checkMover
  try dsimp only
  repeat' (first | (with_reducible assumption) | (with_reducible apply each_still) | (with_reducible apply foldl_still) | (with_reducible apply setMover_still) | (with_reducible apply report_still) | split | (intros; with_reducible assumption) | intro _ _ _ | (with_reducible refine still_fst (by with_reducible assumption) ?_) | dsimp only)

theorem boundaryThreads_still {s : State} (d : Nat) (hk : Still s0 s) : Still s0 (State.boundaryThreads s d) := by
  unfold State.boundaryThreads
  try dsimp only
  repeat' (first | (with_reducible assumption) | (with_reducible apply each_still) | (with_reducible apply foldl_still) | (with_reducible apply setThr_still) | (with_reducible apply checkThread_still) | split | (intros; with_reducible assumption) | intro _ _ _ | (with_reducible refine still_fst (by with_reducible assumption) ?_) | dsimp only)

theorem boundaryMovers_still {s : State} (d : Nat) (hk : Still s0 s) : Still s0 (State.boundaryMovers s d) := by
  unfold State.boundaryMovers
  try dsimp only
  repeat' (first | (with_reducible assumption) | (with_reducible apply each_still) | (with_reducible apply foldl_still) | (with_reducible apply checkMover_still) | split | (intros; with_reducible assumption) | intro _ _ _ | (with_reducible refine still_fst (by with_reducible assumption) ?_) | dsimp only)

theorem releaseThreads_still {s : State} (d : Nat) (n : Word) (hk : Still s0 s) : Still s0 (State.releaseThreads s d n) := by
  unfold State.releaseThreads
  try dsimp only
  repeat' (first | (with_reducible assumption) | (with_reducible apply each_still) | (with_reducible apply foldl_still) | (with_reducible apply setThr_still) | split | (intros; with_reducible assumption) | intro _ _ _ | (with_reducible refine still_fst (by with_reducible assumption) ?_) | dsimp only)

theorem startMovers_still {s : State} (d : Nat) (hk : Still s0 s) : Still s0 (State.startMovers s d) := by
  unfold State.startMovers
  try dsimp only
  repeat' (first | (with_reducible assumption) | (with_reducible apply each_still) | (with_reducible apply foldl_still) | (with_reducible apply setMover_still) | (with_reducible apply moverBoundary_still) | split | (intros; with_reducible assumption) | intro _ _ _ | (with_reducible refine still_fst (by with_reducible assumption) ?_) | dsimp only)

theorem promoteDom_still {s : State} (d : Nat) (hk : Still s0 s) : Still s0 (State.promoteDom s d) := by
  unfold State.promoteDom
  try dsimp only
  repeat' (first | (with_reducible assumption) | (with_reducible apply each_still) | (with_reducible apply foldl_still) | (with_reducible apply promote_still) | (with_reducible apply pinChanged_still) | split | (intros; with_reducible assumption) | intro _ _ _ | (with_reducible refine still_fst (by with_reducible assumption) ?_) | dsimp only)

theorem boundary_still {s : State} (d : Nat) (hk : Still s0 s) : Still s0 (State.boundary s d) := by
  unfold State.boundary
  try dsimp only
  repeat' (first | (with_reducible assumption) | (with_reducible apply each_still) | (with_reducible apply foldl_still) | (with_reducible apply setDom_still) | (with_reducible apply setReg_still) | (with_reducible apply setRb_still) | (with_reducible apply bumpRf_still) | (with_reducible apply setReg64_still) | (with_reducible apply commitDecision_still) | (with_reducible apply boundaryThreads_still) | (with_reducible apply boundaryMovers_still) | (with_reducible apply releaseThreads_still) | (with_reducible apply startMovers_still) | (with_reducible apply promoteDom_still) | split | (intros; with_reducible assumption) | intro _ _ _ | (with_reducible refine still_fst (by with_reducible assumption) ?_) | dsimp only)

theorem noteFinish_still {s : State} (g : Nat) (p : Part) (hk : Still s0 s) : Still s0 (State.noteFinish s g p) := by
  unfold State.noteFinish
  try dsimp only
  repeat' (first | (with_reducible assumption) | (with_reducible apply each_still) | (with_reducible apply foldl_still) | (with_reducible apply setReg_still) | split | (intros; with_reducible assumption) | intro _ _ _ | (with_reducible refine still_fst (by with_reducible assumption) ?_) | dsimp only)

theorem swathWait_still {s : State} (g : Nat) (hk : Still s0 s) : Still s0 (State.swathWait s g) := by
  unfold State.swathWait
  try dsimp only
  repeat' (first | (with_reducible assumption) | (with_reducible apply each_still) | (with_reducible apply foldl_still) | (with_reducible apply setThr_still) | (with_reducible apply bump_still) | (with_reducible apply noteFinish_still) | split | (intros; with_reducible assumption) | intro _ _ _ | (with_reducible refine still_fst (by with_reducible assumption) ?_) | dsimp only)

theorem reregister_still {s : State} (g : Nat) (hk : Still s0 s) : Still s0 (State.reregister s g) := by
  unfold State.reregister
  try dsimp only
  repeat' (first | (with_reducible assumption) | (with_reducible apply each_still) | (with_reducible apply foldl_still) | (with_reducible apply setThr_still) | split | (intros; with_reducible assumption) | intro _ _ _ | (with_reducible refine still_fst (by with_reducible assumption) ?_) | dsimp only)

theorem reregisterMover_still {s : State} (m : Nat) (hk : Still s0 s) : Still s0 (State.reregisterMover s m) := by
  unfold State.reregisterMover
  try dsimp only
  repeat' (first | (with_reducible assumption) | (with_reducible apply each_still) | (with_reducible apply foldl_still) | (with_reducible apply setMover_still) | split | (intros; with_reducible assumption) | intro _ _ _ | (with_reducible refine still_fst (by with_reducible assumption) ?_) | dsimp only)

theorem trigger_still {s : State} (r : Report) (o : Nat) (hk : Still s0 s) : Still s0 (State.trigger s r o).1 := by
  unfold State.trigger
  try dsimp only
  repeat' (first | (with_reducible assumption) | (with_reducible apply each_still) | (with_reducible apply foldl_still) | (with_reducible apply setRb_still) | (with_reducible apply bumpRf_still) | split | (intros; with_reducible assumption) | intro _ _ _ | (with_reducible refine still_fst (by with_reducible assumption) ?_) | dsimp only | (with_reducible apply upd_orders_still))

theorem logRecord_still {s : State} (r : Record) (hk : Still s0 s) : Still s0 (s.logRecord r) := by
  unfold State.logRecord
  dsimp only
  split
  · exact hk.trans ⟨rfl, rfl, rfl, rfl, rfl, rfl, rfl, rfl, rfl, id, id⟩
  · exact upd_log_still _ (bumpRf_still _ _ _ _ (setRb_still _ _ _ (upd_seq_still _ hk)))

theorem triggers_still (l : List Nat) (r : Report) {a : State × Bool} (hk : Still s0 a.1) :
    Still s0 (l.foldl (fun (a : State × Bool) o => ((a.1.trigger r o).1, a.2 || (a.1.trigger r o).2)) a).1 := by
  induction l generalizing a with
  | nil => exact hk
  | cons o l ih => exact ih (trigger_still r o hk)

theorem record_still {s : State} (r : Report) (hk : Still s0 s) : Still s0 (s.record r) := by
  have h := fun l => triggers_still l r (a := ((({ s with reports := s.reports.erase r } : State).bump (.fltCnt r.code) 1), false))
    (bump_still _ _ (upd_reports_still _ hk))
  unfold State.record
  extract_lets s1 s2 hits
  split
  rename_i s3 q e
  have h3 : Still s0 s3 := still_fst e (h hits)
  extract_lets s4
  have h4 : Still s0 s4 := logRecord_still _ h3
  split
  · exact setReg_still _ _ (setReg_still _ _ h4)
  · exact h4

theorem popLog_still {s : State} (q : Half) (hk : Still s0 s) : Still s0 (State.popLog s q) := by
  unfold State.popLog
  try dsimp only
  repeat' (first | (with_reducible assumption) | (with_reducible apply each_still) | (with_reducible apply foldl_still) | split | (intros; with_reducible assumption) | intro _ _ _ | (with_reducible refine still_fst (by with_reducible assumption) ?_) | dsimp only | (with_reducible apply upd_log_still))

theorem cancelOrder_still {s : State} (o : Nat) (hk : Still s0 s) : Still s0 (State.cancelOrder s o) := by
  unfold State.cancelOrder
  try dsimp only
  repeat' (first | (with_reducible assumption) | (with_reducible apply each_still) | (with_reducible apply foldl_still) | split | (intros; with_reducible assumption) | intro _ _ _ | (with_reducible refine still_fst (by with_reducible assumption) ?_) | dsimp only | (with_reducible apply upd_orders_still))

theorem forceSlot_still {s : State} (p : Nat) (j : Nat) (b : Bool) (hk : Still s0 s) : Still s0 (State.forceSlot s p j b) := by
  unfold State.forceSlot
  try dsimp only
  repeat' (first | (with_reducible assumption) | (with_reducible apply each_still) | (with_reducible apply foldl_still) | (with_reducible apply setRb_still) | (with_reducible apply setHeld_still) | split | (intros; with_reducible assumption) | intro _ _ _ | (with_reducible refine still_fst (by with_reducible assumption) ?_) | dsimp only)

theorem movePin_still {s : State} (p : Nat) (own : Nat) (mask : Nat) (hk : Still s0 s) : Still s0 (State.movePin s p own mask).1 := by
  unfold State.movePin
  try dsimp only
  repeat' (first | (with_reducible assumption) | (with_reducible apply each_still) | (with_reducible apply foldl_still) | (with_reducible apply setRf_still) | (with_reducible apply pinChanged_still) | (with_reducible apply forceSlot_still) | split | (intros; with_reducible assumption) | intro _ _ _ | (with_reducible refine still_fst (by with_reducible assumption) ?_) | dsimp only)

theorem movePins_still {s : State} (o : Nat) (hk : Still s0 s) : Still s0 (State.movePins s o) := by
  unfold State.movePins
  try dsimp only
  repeat' (first | (with_reducible assumption) | (with_reducible apply each_still) | (with_reducible apply foldl_still) | (with_reducible apply setRb_still) | (with_reducible apply movePin_still) | split | (intros; with_reducible assumption) | intro _ _ _ | (with_reducible refine still_fst (by with_reducible assumption) ?_) | dsimp only)

theorem moveForwarding_still {s : State} (pair : Nat) (m : Nat) (hk : Still s0 s) : Still s0 (State.moveForwarding s pair m) := by
  unfold State.moveForwarding
  try dsimp only
  repeat' (first | (with_reducible assumption) | (with_reducible apply each_still) | (with_reducible apply foldl_still) | (with_reducible apply setRb_still) | split | (intros; with_reducible assumption) | intro _ _ _ | (with_reducible refine still_fst (by with_reducible assumption) ?_) | dsimp only)

theorem orderStop_still {s : State} (o : Nat) (tact : Nat) (p : Pend) (hk : Still s0 s) : Still s0 (State.orderStop s o tact p) := by
  unfold State.orderStop
  try dsimp only
  repeat' (first | (with_reducible assumption) | (with_reducible apply each_still) | (with_reducible apply foldl_still) | (with_reducible apply setRb_still) | (with_reducible apply stopThread_still) | (with_reducible apply haltThread_still) | split | (intros; with_reducible assumption) | intro _ _ _ | (with_reducible refine still_fst (by with_reducible assumption) ?_) | dsimp only)

theorem orderStart_still {s : State} (o : Nat) (g : Nat) (hk : Still s0 s) : Still s0 (State.orderStart s o g) := by
  unfold State.orderStart
  try dsimp only
  repeat' (first | (with_reducible assumption) | (with_reducible apply each_still) | (with_reducible apply foldl_still) | (with_reducible apply setRb_still) | (with_reducible apply startThread_still) | split | (intros; with_reducible assumption) | intro _ _ _ | (with_reducible refine still_fst (by with_reducible assumption) ?_) | dsimp only)

theorem runOrder_still {s : State} (p : Pend) (hk : Still s0 s) : Still s0 (s.runOrder p) := by
  have h0 : Still s0 { s with orders := s.orders.erase p, ordered := some s.cycle } :=
    hk.trans ⟨rfl, rfl, rfl, rfl, rfl, rfl, rfl, rfl, rfl, id, id⟩
  unfold State.runOrder
  extract_lets o a s1 s2 s3 s4 s5 s6 s7
  have h2 : Still s0 s2 := by
    simp only [s2]
    split
    · have h := execFault_still (fld a 15 8) h0
      split
      · rename_i e; exact still_fst e h
      · rename_i e; exact setRb_still _ _ _ (still_fst e h)
    · exact h0
  have h3 : Still s0 s3 := ite_still (movePins_still _ h2) h2
  have h4 : Still s0 s4 := ite_still (moveForwarding_still _ _ h3) h3
  have h5 : Still s0 s5 := orderStop_still _ _ _ h4
  have h6 : Still s0 s6 := ite_still (orderStart_still _ _ h5) h5
  have h7 : Still s0 s7 := bumpRf_still _ _ _ _ (setReg64_still _ _ h6)
  split
  · exact upd_holdReq_still _ h7
  · exact h7

theorem dropOrders_still {s : State}  (hk : Still s0 s) : Still s0 (State.dropOrders s) := by
  unfold State.dropOrders
  try dsimp only
  repeat' (first | (with_reducible assumption) | (with_reducible apply each_still) | (with_reducible apply foldl_still) | (with_reducible apply setRb_still) | split | (intros; with_reducible assumption) | intro _ _ _ | (with_reducible refine still_fst (by with_reducible assumption) ?_) | dsimp only | (with_reducible apply upd_orders_still))

theorem mbuCount_still {s : State} (m : Nat) (k : Nat) (hk : Still s0 s) : Still s0 (State.mbuCount s m k) := by
  unfold State.mbuCount
  try dsimp only
  repeat' (first | (with_reducible assumption) | (with_reducible apply each_still) | (with_reducible apply foldl_still) | (with_reducible apply bump_still) | split | (intros; with_reducible assumption) | intro _ _ _ | (with_reducible refine still_fst (by with_reducible assumption) ?_) | dsimp only)

theorem linkFall_still {s : State} (m : Nat) (hk : Still s0 s) : Still s0 (State.linkFall s m) := by
  unfold State.linkFall
  try dsimp only
  repeat' (first | (with_reducible assumption) | (with_reducible apply each_still) | (with_reducible apply foldl_still) | (with_reducible apply setMbu_still) | (with_reducible apply setRf_still) | (with_reducible apply setRb_still) | split | (intros; with_reducible assumption) | intro _ _ _ | (with_reducible refine still_fst (by with_reducible assumption) ?_) | dsimp only)

theorem anRestart_still {s : State} (m : Nat) (hk : Still s0 s) : Still s0 (State.anRestart s m) := by
  unfold State.anRestart
  try dsimp only
  repeat' (first | (with_reducible assumption) | (with_reducible apply each_still) | (with_reducible apply foldl_still) | (with_reducible apply setRb_still) | (with_reducible apply linkFall_still) | split | (intros; with_reducible assumption) | intro _ _ _ | (with_reducible refine still_fst (by with_reducible assumption) ?_) | dsimp only)

theorem extracts_still {s : State} (m : Nat) (l : List Byte) (hk : Still s0 s) : Still s0 (State.extracts s m l) := by
  unfold State.extracts
  try dsimp only
  repeat' (first | (with_reducible assumption) | (with_reducible apply each_still) | (with_reducible apply foldl_still) | (with_reducible apply setFlag_still) | (with_reducible apply memWrite_still) | split | (intros; with_reducible assumption) | intro _ _ _ | (with_reducible refine still_fst (by with_reducible assumption) ?_) | dsimp only)

theorem forwardDone_still {s : State} (m : Nat) (f : Fwd) (fr : Frame) (good : Bool) (hk : Still s0 s) : Still s0 (State.forwardDone s m f fr good) := by
  unfold State.forwardDone
  try dsimp only
  repeat' (first | (with_reducible assumption) | (with_reducible apply each_still) | (with_reducible apply foldl_still) | (with_reducible apply setMbu_still) | (with_reducible apply late_still) | (with_reducible apply mbuCount_still) | split | (intros; with_reducible assumption) | intro _ _ _ | (with_reducible refine still_fst (by with_reducible assumption) ?_) | dsimp only)

theorem ringWrite_still {s : State} (m : Nat) (fr : Frame) (good : Bool) (fwd : Option Fwd) (hk : Still s0 s) : Still s0 (State.ringWrite s m fr good fwd) := by
  unfold State.ringWrite
  try dsimp only
  repeat' (first | (with_reducible assumption) | (with_reducible apply each_still) | (with_reducible apply foldl_still) | (with_reducible apply setRf_still) | (with_reducible apply setFlag_still) | (with_reducible apply memWrite_still) | (with_reducible apply setWord_still) | (with_reducible apply mbuCount_still) | split | (intros; with_reducible assumption) | intro _ _ _ | (with_reducible refine still_fst (by with_reducible assumption) ?_) | dsimp only)

theorem headNext_still {s : State} (m : Nat) (j : Nat) (hk : Still s0 s) : Still s0 (State.headNext s m j) := by
  unfold State.headNext
  try dsimp only
  repeat' (first | (with_reducible assumption) | (with_reducible apply each_still) | (with_reducible apply foldl_still) | (with_reducible apply setRf_still) | split | (intros; with_reducible assumption) | intro _ _ _ | (with_reducible refine still_fst (by with_reducible assumption) ?_) | dsimp only)

theorem readHead_still {s : State} (m : Nat) (j : Nat) (hk : Still s0 s) : Still s0 (State.readHead s m j) := by
  unfold State.readHead
  try dsimp only
  repeat' (first | (with_reducible assumption) | (with_reducible apply each_still) | (with_reducible apply foldl_still) | (with_reducible apply setMbu_still) | split | (intros; with_reducible assumption) | intro _ _ _ | (with_reducible refine still_fst (by with_reducible assumption) ?_) | dsimp only)

theorem txFinish_still {s : State} (m : Nat) (j : Nat) (stamp : DWord) (res : Nat) (hk : Still s0 s) : Still s0 (State.txFinish s m j stamp res) := by
  unfold State.txFinish
  try dsimp only
  repeat' (first | (with_reducible assumption) | (with_reducible apply each_still) | (with_reducible apply foldl_still) | (with_reducible apply setMbu_still) | (with_reducible apply setHead_still) | split | (intros; with_reducible assumption) | intro _ _ _ | (with_reducible refine still_fst (by with_reducible assumption) ?_) | dsimp only)

theorem launchLate_still {s : State} (m : Nat) (j : Nat) (h : FqHead) (gone : Bool) (hk : Still s0 s) : Still s0 (State.launchLate s m j h gone) := by
  unfold State.launchLate
  try dsimp only
  repeat' (first | (with_reducible assumption) | (with_reducible apply each_still) | (with_reducible apply foldl_still) | (with_reducible apply report_still) | split | (intros; with_reducible assumption) | intro _ _ _ | (with_reducible refine still_fst (by with_reducible assumption) ?_) | dsimp only)

theorem writeResult_still {s : State} (m : Nat) (j : Nat) (stamp : DWord) (res : Nat) (hk : Still s0 s) : Still s0 (State.writeResult s m j stamp res) := by
  unfold State.writeResult
  try dsimp only
  repeat' (first | (with_reducible assumption) | (with_reducible apply each_still) | (with_reducible apply foldl_still) | (with_reducible apply memWrite_still) | (with_reducible apply setWord_still) | (with_reducible apply headNext_still) | split | (intros; with_reducible assumption) | intro _ _ _ | (with_reducible refine still_fst (by with_reducible assumption) ?_) | dsimp only)

theorem complete_still {s : State} (m : Nat) (j : Nat) (hk : Still s0 s) : Still s0 (State.complete s m j) := by
  unfold State.complete
  try dsimp only
  repeat' (first | (with_reducible assumption) | (with_reducible apply each_still) | (with_reducible apply foldl_still) | (with_reducible apply setMbu_still) | (with_reducible apply setFlag_still) | (with_reducible apply writeResult_still) | split | (intros; with_reducible assumption) | intro _ _ _ | (with_reducible refine still_fst (by with_reducible assumption) ?_) | dsimp only)

theorem discardOwned_still {s : State} (m j n : Nat) (hk : Still s0 s) : Still s0 (s.discardOwned m j n) := by
  induction n generalizing s with
  | zero => exact hk
  | succ n ih =>
    unfold State.discardOwned
    split
    · exact ih (mbuCount_still _ _ (writeResult_still _ _ _ _ hk))
    · exact hk

theorem stopQueue_still {s : State} (m : Nat) (j : Nat) (hk : Still s0 s) : Still s0 (State.stopQueue s m j) := by
  unfold State.stopQueue
  try dsimp only
  repeat' (first | (with_reducible assumption) | (with_reducible apply each_still) | (with_reducible apply foldl_still) | (with_reducible apply setMbu_still) | (with_reducible apply setHead_still) | (with_reducible apply complete_still) | (with_reducible apply discardOwned_still) | split | (intros; with_reducible assumption) | intro _ _ _ | (with_reducible refine still_fst (by with_reducible assumption) ?_) | dsimp only)

theorem enableQueue_still {s : State} (m : Nat) (j : Nat) (hk : Still s0 s) : Still s0 (State.enableQueue s m j) := by
  unfold State.enableQueue
  try dsimp only
  repeat' (first | (with_reducible assumption) | (with_reducible apply each_still) | (with_reducible apply foldl_still) | (with_reducible apply setRf_still) | (with_reducible apply readHead_still) | split | (intros; with_reducible assumption) | intro _ _ _ | (with_reducible refine still_fst (by with_reducible assumption) ?_) | dsimp only)

theorem mbusConfigure_still {s : State}  (hk : Still s0 s) : Still s0 (State.mbusConfigure s) := by
  unfold State.mbusConfigure
  try dsimp only
  repeat' (first | (with_reducible assumption) | (with_reducible apply each_still) | (with_reducible apply foldl_still) | (with_reducible apply stopQueue_still) | split | (intros; with_reducible assumption) | intro _ _ _ | (with_reducible refine still_fst (by with_reducible assumption) ?_) | dsimp only)

theorem mbusStart_still {s : State}  (hk : Still s0 s) : Still s0 (State.mbusStart s) := by
  unfold State.mbusStart
  try dsimp only
  repeat' (first | (with_reducible assumption) | (with_reducible apply each_still) | (with_reducible apply foldl_still) | (with_reducible apply readHead_still) | split | (intros; with_reducible assumption) | intro _ _ _ | (with_reducible refine still_fst (by with_reducible assumption) ?_) | dsimp only)

theorem mbusRetain_still {s : State}  (hk : Still s0 s) : Still s0 (State.mbusRetain s) := by
  unfold State.mbusRetain
  try dsimp only
  repeat' (first | (with_reducible assumption) | (with_reducible apply each_still) | (with_reducible apply foldl_still) | (with_reducible apply linkFall_still) | split | (intros; with_reducible assumption) | intro _ _ _ | (with_reducible refine still_fst (by with_reducible assumption) ?_) | dsimp only)

theorem enableMbu_still {s : State} (m : Nat) (hk : Still s0 s) : Still s0 (State.enableMbu s m) := by
  unfold State.enableMbu
  try dsimp only
  repeat' (first | (with_reducible assumption) | (with_reducible apply each_still) | (with_reducible apply foldl_still) | (with_reducible apply setMbu_still) | (with_reducible apply setReg_still) | split | (intros; with_reducible assumption) | intro _ _ _ | (with_reducible refine still_fst (by with_reducible assumption) ?_) | dsimp only)

theorem wakeCore_still {s : State} (n : Nat) (hk : Still s0 s) : Still s0 (State.wakeCore s n) := by
  unfold State.wakeCore
  try dsimp only
  repeat' (first | (with_reducible assumption) | (with_reducible apply each_still) | (with_reducible apply foldl_still) | (with_reducible apply setCore_still) | split | (intros; with_reducible assumption) | intro _ _ _ | (with_reducible refine still_fst (by with_reducible assumption) ?_) | dsimp only)

theorem gateAll_still {s : State}  (hk : Still s0 s) : Still s0 (State.gateAll s) := by
  unfold State.gateAll
  try dsimp only
  repeat' (first | (with_reducible assumption) | (with_reducible apply each_still) | (with_reducible apply foldl_still) | (with_reducible apply setCore_still) | split | (intros; with_reducible assumption) | intro _ _ _ | (with_reducible refine still_fst (by with_reducible assumption) ?_) | dsimp only)

theorem runAll_still {s : State}  (hk : Still s0 s) : Still s0 (State.runAll s) := by
  unfold State.runAll
  try dsimp only
  repeat' (first | (with_reducible assumption) | (with_reducible apply each_still) | (with_reducible apply foldl_still) | (with_reducible apply setCore_still) | split | (intros; with_reducible assumption) | intro _ _ _ | (with_reducible refine still_fst (by with_reducible assumption) ?_) | dsimp only)

theorem sample1_still {s : State} (r : Nat) (mv : Nat) (hk : Still s0 s) : Still s0 (State.sample1 s r mv) := by
  unfold State.sample1
  try dsimp only
  repeat' (first | (with_reducible assumption) | (with_reducible apply each_still) | (with_reducible apply foldl_still) | (with_reducible apply setSup_still) | (with_reducible apply setReg_still) | (with_reducible apply setRf_still) | (with_reducible apply setRb_still) | (with_reducible apply report_still) | split | (intros; with_reducible assumption) | intro _ _ _ | (with_reducible refine still_fst (by with_reducible assumption) ?_) | dsimp only)

theorem finishCommit_still {s : State} (c : Commit) (hk : Still s0 s) : Still s0 (State.finishCommit s c) := by
  unfold State.finishCommit
  try dsimp only
  repeat' (first | (with_reducible assumption) | (with_reducible apply each_still) | (with_reducible apply foldl_still) | (with_reducible apply setReg_still) | (with_reducible apply setRf_still) | (with_reducible apply discardHeld_still) | (with_reducible apply deliver_still) | split | (intros; with_reducible assumption) | intro _ _ _ | (with_reducible refine still_fst (by with_reducible assumption) ?_) | dsimp only)

theorem finishCommits_still {s : State}  (hk : Still s0 s) : Still s0 (State.finishCommits s) := by
  unfold State.finishCommits
  try dsimp only
  repeat' (first | (with_reducible assumption) | (with_reducible apply each_still) | (with_reducible apply foldl_still) | (with_reducible apply finishCommit_still) | split | (intros; with_reducible assumption) | intro _ _ _ | (with_reducible refine still_fst (by with_reducible assumption) ?_) | dsimp only | (with_reducible apply upd_commits_still))

theorem repost_still {s : State}  (hk : Still s0 s) : Still s0 (State.repost s) := by
  unfold State.repost
  try dsimp only
  repeat' (first | (with_reducible assumption) | (with_reducible apply each_still) | (with_reducible apply foldl_still) | split | (intros; with_reducible assumption) | intro _ _ _ | (with_reducible refine still_fst (by with_reducible assumption) ?_) | dsimp only | (with_reducible apply upd_posted_still))

theorem placeThread_still {s : State} (g : Nat) (hk : Still s0 s) : Still s0 (State.placeThread s g) := by
  unfold State.placeThread
  try dsimp only
  repeat' (first | (with_reducible assumption) | (with_reducible apply each_still) | (with_reducible apply foldl_still) | (with_reducible apply setThr_still) | (with_reducible apply stopNow_still) | (with_reducible apply resume_still) | split | (intros; with_reducible assumption) | intro _ _ _ | (with_reducible refine still_fst (by with_reducible assumption) ?_) | dsimp only)

theorem flushCaches_still {s : State}  (hk : Still s0 s) : Still s0 (State.flushCaches s) := by
  unfold State.flushCaches
  try dsimp only
  repeat' (first | (with_reducible assumption) | (with_reducible apply each_still) | (with_reducible apply foldl_still) | (with_reducible apply setCore_still) | split | (intros; with_reducible assumption) | intro _ _ _ | (with_reducible refine still_fst (by with_reducible assumption) ?_) | dsimp only)

theorem settleWindow_still {s : State}  (hk : Still s0 s) : Still s0 (State.settleWindow s) := by
  unfold State.settleWindow
  try dsimp only
  repeat' (first | (with_reducible assumption) | (with_reducible apply each_still) | (with_reducible apply foldl_still) | (with_reducible apply setCell_still) | split | (intros; with_reducible assumption) | intro _ _ _ | (with_reducible refine still_fst (by with_reducible assumption) ?_) | dsimp only)

theorem spSet_still {s : State} (g n : Nat) (v : DWord) (hk : Still s0 s) : Still s0 (s.spSet g n v) := by
  unfold State.spSet
  dsimp only
  repeat' (first | (with_reducible assumption) | (with_reducible apply setThr_still) | (with_reducible apply setReg_still) | (with_reducible apply ite_still))

theorem dropLag_still {s : State} (k : LagKey) (hk : Still s0 s) : Still s0 (State.dropLag s k) := by
  unfold State.dropLag
  try dsimp only
  repeat' (first | (with_reducible assumption) | (with_reducible apply each_still) | (with_reducible apply foldl_still) | split | (intros; with_reducible assumption) | intro _ _ _ | (with_reducible refine still_fst (by with_reducible assumption) ?_) | dsimp only | (with_reducible apply upd_lags_still))

theorem spCommit_still {s : State} (g : Nat) (n : Nat) (v : DWord) (hk : Still s0 s) : Still s0 (State.spCommit s g n v) := by
  unfold State.spCommit
  try dsimp only
  repeat' (first | (with_reducible assumption) | (with_reducible apply each_still) | (with_reducible apply foldl_still) | (with_reducible apply spSet_still) | (with_reducible apply dropLag_still) | split | (intros; with_reducible assumption) | intro _ _ _ | (with_reducible refine still_fst (by with_reducible assumption) ?_) | dsimp only)

theorem spWrite_still {s : State} (g : Nat) (n : Nat) (v : DWord) (hk : Still s0 s) : Still s0 (State.spWrite s g n v) := by
  unfold State.spWrite
  try dsimp only
  repeat' (first | (with_reducible assumption) | (with_reducible apply each_still) | (with_reducible apply foldl_still) | (with_reducible apply report_still) | (with_reducible apply lag_still) | (with_reducible apply spSet_still) | split | (intros; with_reducible assumption) | intro _ _ _ | (with_reducible refine still_fst (by with_reducible assumption) ?_) | dsimp only)

theorem refuse_still {s : State} (acc : Acc) (code : Nat) (off : Nat) (hk : Still s0 s) : Still s0 (State.refuse s acc code off).1 := by
  unfold State.refuse
  try dsimp only
  repeat' (first | (with_reducible assumption) | (with_reducible apply each_still) | (with_reducible apply foldl_still) | (with_reducible apply report_still) | split | (intros; with_reducible assumption) | intro _ _ _ | (with_reducible refine still_fst (by with_reducible assumption) ?_) | dsimp only)

theorem readLow_still {s : State} (p : Path) (o : Nat) (v : DWord) (hk : Still s0 s) : Still s0 (State.readLow s p o v).1 := by
  unfold State.readLow
  try dsimp only
  repeat' (first | (with_reducible assumption) | (with_reducible apply each_still) | (with_reducible apply foldl_still) | (with_reducible apply setLatch_still) | split | (intros; with_reducible assumption) | intro _ _ _ | (with_reducible refine still_fst (by with_reducible assumption) ?_) | dsimp only)

theorem readTimeLow_still {s : State} (p : Path) (hk : Still s0 s) : Still s0 (State.readTimeLow s p).1 := by
  unfold State.readTimeLow
  try dsimp only
  repeat' (first | (with_reducible assumption) | (with_reducible apply each_still) | (with_reducible apply foldl_still) | (with_reducible apply setLatch_still) | (with_reducible apply readLow_still) | split | (intros; with_reducible assumption) | intro _ _ _ | (with_reducible refine still_fst (by with_reducible assumption) ?_) | dsimp only)

theorem readProg_still {s : State} (q : Nat) (hk : Still s0 s) : Still s0 (State.readProg s q).1 := by
  unfold State.readProg
  try dsimp only
  repeat' (first | (with_reducible assumption) | (with_reducible apply each_still) | (with_reducible apply foldl_still) | (with_reducible apply setReg_still) | split | (intros; with_reducible assumption) | intro _ _ _ | (with_reducible refine still_fst (by with_reducible assumption) ?_) | dsimp only)

theorem readReg_still {s : State} (acc : Acc) (r : Reg) (hk : Still s0 s) : Still s0 (State.readReg s acc r).1 := by
  unfold State.readReg
  try dsimp only
  repeat' (first | (with_reducible assumption) | (with_reducible apply each_still) | (with_reducible apply foldl_still) | (with_reducible apply popCap_still) | (with_reducible apply tmrPop_still) | (with_reducible apply refuse_still) | (with_reducible apply readLow_still) | (with_reducible apply readTimeLow_still) | (with_reducible apply readProg_still) | split | (intros; with_reducible assumption) | intro _ _ _ | (with_reducible refine still_fst (by with_reducible assumption) ?_) | dsimp only)

theorem readFast_still {s : State} (p : Path) (o : Nat) (hk : Still s0 s) : Still s0 (State.readFast s p o).1 := by
  unfold State.readFast
  try dsimp only
  repeat' (first | (with_reducible assumption) | (with_reducible apply each_still) | (with_reducible apply foldl_still) | (with_reducible apply readTimeLow_still) | split | (intros; with_reducible assumption) | intro _ _ _ | (with_reducible refine still_fst (by with_reducible assumption) ?_) | dsimp only)

theorem read32_still {s : State} (acc : Acc) (o : Nat) (hk : Still s0 s) : Still s0 (State.read32 s acc o).1 := by
  unfold State.read32
  try dsimp only
  repeat' (first | (with_reducible assumption) | (with_reducible apply each_still) | (with_reducible apply foldl_still) | (with_reducible apply readReg_still) | (with_reducible apply readFast_still) | split | (intros; with_reducible assumption) | intro _ _ _ | (with_reducible refine still_fst (by with_reducible assumption) ?_) | dsimp only)

theorem busRead_still {s : State} (acc : Acc) (size : Size) (o : Nat) (hk : Still s0 s) : Still s0 (State.busRead s acc size o) := by
  unfold State.busRead
  try dsimp only
  repeat' (first | (with_reducible assumption) | (with_reducible apply each_still) | (with_reducible apply foldl_still) | (with_reducible apply setRead_still) | (with_reducible apply refuse_still) | (with_reducible apply read32_still) | split | (intros; with_reducible assumption) | intro _ _ _ | (with_reducible refine still_fst (by with_reducible assumption) ?_) | dsimp only)

theorem dropRgmii_still {s : State}  (hk : Still s0 s) : Still s0 (State.dropRgmii s) := by
  unfold State.dropRgmii
  try dsimp only
  repeat' (first | (with_reducible assumption) | (with_reducible apply each_still) | (with_reducible apply foldl_still) | (with_reducible apply linkFall_still) | split | (intros; with_reducible assumption) | intro _ _ _ | (with_reducible refine still_fst (by with_reducible assumption) ?_) | dsimp only)

theorem slotWritten_still {s : State} (p h : Nat) (v : Word) (hk : Still s0 s) : Still s0 (s.slotWritten p h v) := by
  unfold State.slotWritten
  extract_lets r live s1 s2
  have hl : ∀ t i, Still s0 t → Still s0 (live t i) := by
    intro t i ht
    refine ite_still ?_ ht
    split
    · exact ht
    · exact setHeld_still _ _ ht
  have h1 : Still s0 s1 := hl _ 1 (hl _ 0 hk)
  refine pinChanged_still _ _ ?_
  show Still s0 (match s1.heldAt r with
    | some x => if bit x.force 15 = bit (s1.reg r) 15 ∧ bit x.force 31 = bit (s1.reg r) 31 then s1.setHeld r none else s1
    | none => s1)
  split
  · exact ite_still (setHeld_still _ _ h1) h1
  · exact h1

theorem wrote_still {s : State} (r : Reg) (old : Word) (v : Word) (hk : Still s0 s) : Still s0 (State.wrote s r old v) := by
  unfold State.wrote
  try dsimp only
  repeat' (first | (with_reducible assumption) | (with_reducible apply each_still) | (with_reducible apply foldl_still) | (with_reducible apply setMbu_still) | (with_reducible apply setLock_still) | (with_reducible apply setChan_still) | (with_reducible apply setRf_still) | (with_reducible apply setFlag_still) | (with_reducible apply clrFlag_still) | (with_reducible apply pinChanged_still) | (with_reducible apply setCnt_still) | (with_reducible apply touch_still) | (with_reducible apply tmrEnable_still) | (with_reducible apply tmrGo_still) | (with_reducible apply enableDom_still) | (with_reducible apply disableDom_still) | (with_reducible apply reregister_still) | (with_reducible apply reregisterMover_still) | (with_reducible apply popLog_still) | (with_reducible apply cancelOrder_still) | (with_reducible apply linkFall_still) | (with_reducible apply anRestart_still) | (with_reducible apply stopQueue_still) | (with_reducible apply enableQueue_still) | (with_reducible apply enableMbu_still) | (with_reducible apply dropLag_still) | (with_reducible apply dropRgmii_still) | (with_reducible apply slotWritten_still) | split | (intros; with_reducible assumption) | intro _ _ _ | (with_reducible refine still_fst (by with_reducible assumption) ?_) | dsimp only | (with_reducible apply upd_commons_still) | (with_reducible apply upd_tdrPin_still))

theorem putTick_still {s : State} (r : Reg) (w : Word) (hk : Still s0 s) : Still s0 (State.putTick s r w) := by
  unfold State.putTick
  try dsimp only
  repeat' (first | (with_reducible assumption) | (with_reducible apply each_still) | (with_reducible apply foldl_still) | (with_reducible apply setReg_still) | (with_reducible apply setHeld_still) | (with_reducible apply setShadow_still) | split | (intros; with_reducible assumption) | intro _ _ _ | (with_reducible refine still_fst (by with_reducible assumption) ?_) | dsimp only)

theorem putFields_still {s : State} (acc : Acc) (r : Reg) (v : Word) (da : Nat) (hk : Still s0 s) : Still s0 (State.putFields s acc r v da).1 := by
  unfold State.putFields
  try dsimp only
  repeat' (first | (with_reducible assumption) | (with_reducible apply each_still) | (with_reducible apply foldl_still) | (with_reducible apply setReg_still) | (with_reducible apply refuse_still) | (with_reducible apply wrote_still) | (with_reducible apply putTick_still) | split | (intros; with_reducible assumption) | intro _ _ _ | (with_reducible refine still_fst (by with_reducible assumption) ?_) | dsimp only)

theorem commitTime_still {s : State} (acc : Acc) (v : DWord) (da : Nat) (hk : Still s0 s) : Still s0 (State.commitTime s acc v da).1 := by
  unfold State.commitTime
  try dsimp only
  repeat' (first | (with_reducible assumption) | (with_reducible apply each_still) | (with_reducible apply foldl_still) | (with_reducible apply setRb_still) | (with_reducible apply refuse_still) | split | (intros; with_reducible assumption) | intro _ _ _ | (with_reducible refine still_fst (by with_reducible assumption) ?_) | dsimp only | (with_reducible apply upd_commons_still))

theorem commitIvl_still {s : State} (acc : Acc) (ch : Nat) (v : DWord) (da : Nat) (hk : Still s0 s) : Still s0 (State.commitIvl s acc ch v da).1 := by
  unfold State.commitIvl
  try dsimp only
  repeat' (first | (with_reducible assumption) | (with_reducible apply each_still) | (with_reducible apply foldl_still) | (with_reducible apply tmrSetIvl_still) | (with_reducible apply refuse_still) | split | (intros; with_reducible assumption) | intro _ _ _ | (with_reducible refine still_fst (by with_reducible assumption) ?_) | dsimp only)

theorem offerAction_still {s : State} (acc : Acc) (q : Nat) (a : DWord) (da : Nat) (hk : Still s0 s) : Still s0 (State.offerAction s acc q a da).1 := by
  unfold State.offerAction
  try dsimp only
  repeat' (first | (with_reducible assumption) | (with_reducible apply each_still) | (with_reducible apply foldl_still) | (with_reducible apply actionLate_still) | (with_reducible apply queueAction_still) | (with_reducible apply refuse_still) | split | (intros; with_reducible assumption) | intro _ _ _ | (with_reducible refine still_fst (by with_reducible assumption) ?_) | dsimp only)

theorem commitDsrd_still {s : State} (acc : Acc) (n : Nat) (v : DWord) (da : Nat) (hk : Still s0 s) : Still s0 (State.commitDsrd s acc n v da).1 := by
  unfold State.commitDsrd
  try dsimp only
  repeat' (first | (with_reducible assumption) | (with_reducible apply each_still) | (with_reducible apply foldl_still) | (with_reducible apply spCommit_still) | (with_reducible apply refuse_still) | split | (intros; with_reducible assumption) | intro _ _ _ | (with_reducible refine still_fst (by with_reducible assumption) ?_) | dsimp only)

theorem writeProg_still {s : State} (acc : Acc) (q : Nat) (v : Word) (hk : Still s0 s) : Still s0 (State.writeProg s acc q v).1 := by
  unfold State.writeProg
  try dsimp only
  repeat' (first | (with_reducible assumption) | (with_reducible apply each_still) | (with_reducible apply foldl_still) | (with_reducible apply setReg_still) | (with_reducible apply report_still) | (with_reducible apply setWord_still) | split | (intros; with_reducible assumption) | intro _ _ _ | (with_reducible refine still_fst (by with_reducible assumption) ?_) | dsimp only)

theorem writePc_still {s : State} (g : Nat) (v : Word) (hk : Still s0 s) : Still s0 (State.writePc s g v) := by
  unfold State.writePc
  try dsimp only
  repeat' (first | (with_reducible assumption) | (with_reducible apply each_still) | (with_reducible apply foldl_still) | (with_reducible apply setThr_still) | split | (intros; with_reducible assumption) | intro _ _ _ | (with_reducible refine still_fst (by with_reducible assumption) ?_) | dsimp only)

theorem portPut_still {s : State} (g : Nat) (q : Nat) (port : Nat) (v : DWord) (hk : Still s0 s) : Still s0 (State.portPut s g q port v) := by
  unfold State.portPut
  try dsimp only
  repeat' (first | (with_reducible assumption) | (with_reducible apply each_still) | (with_reducible apply foldl_still) | (with_reducible apply report_still) | (with_reducible apply portWrite_still) | split | (intros; with_reducible assumption) | intro _ _ _ | (with_reducible refine still_fst (by with_reducible assumption) ?_) | dsimp only)

theorem apertureRefuse_still {s : State} (acc : Acc) (o : Nat) (hk : Still s0 s) : Still s0 (State.apertureRefuse s acc o) := by
  unfold State.apertureRefuse
  try dsimp only
  repeat' (first | (with_reducible assumption) | (with_reducible apply each_still) | (with_reducible apply foldl_still) | (with_reducible apply report_still) | split | (intros; with_reducible assumption) | intro _ _ _ | (with_reducible refine still_fst (by with_reducible assumption) ?_) | dsimp only)

theorem apertureBad_still {s : State} (g : Nat) (hk : Still s0 s) : Still s0 (State.apertureBad s g) := by
  unfold State.apertureBad
  try dsimp only
  repeat' (first | (with_reducible assumption) | (with_reducible apply each_still) | (with_reducible apply foldl_still) | (with_reducible apply report_still) | split | (intros; with_reducible assumption) | intro _ _ _ | (with_reducible refine still_fst (by with_reducible assumption) ?_) | dsimp only)

theorem apertureRead_still {s : State} (acc : Acc) (n : Nat) (o : Nat) (hk : Still s0 s) : Still s0 (State.apertureRead s acc n o) := by
  unfold State.apertureRead
  try dsimp only
  repeat' (first | (with_reducible assumption) | (with_reducible apply each_still) | (with_reducible apply foldl_still) | (with_reducible apply setRead_still) | (with_reducible apply touchRead_still) | (with_reducible apply apertureRefuse_still) | (with_reducible apply apertureBad_still) | split | (intros; with_reducible assumption) | intro _ _ _ | (with_reducible refine still_fst (by with_reducible assumption) ?_) | dsimp only)

theorem apertureWrite_still {s : State} (acc : Acc) (n : Nat) (o : Nat) (v : DWord) (hk : Still s0 s) : Still s0 (State.apertureWrite s acc n o v) := by
  unfold State.apertureWrite
  try dsimp only
  repeat' (first | (with_reducible assumption) | (with_reducible apply each_still) | (with_reducible apply foldl_still) | (with_reducible apply memWrite_still) | (with_reducible apply apertureRefuse_still) | split | (intros; with_reducible assumption) | intro _ _ _ | (with_reducible refine still_fst (by with_reducible assumption) ?_) | dsimp only)

theorem mailboxRead_still {s : State} (w : Word) (k : Nat) (hk : Still s0 s) : Still s0 (State.mailboxRead s w k) := by
  unfold State.mailboxRead
  try dsimp only
  repeat' (first | (with_reducible assumption) | (with_reducible apply each_still) | (with_reducible apply foldl_still) | (with_reducible apply setWord_still) | (with_reducible apply read32_still) | split | (intros; with_reducible assumption) | intro _ _ _ | (with_reducible refine still_fst (by with_reducible assumption) ?_) | dsimp only)

theorem touchAll_still {s : State} (ks : List Nat) (agent : Nat) (hk : Still s0 s) : Still s0 (State.touchAll s ks agent) := by
  unfold State.touchAll
  try dsimp only
  repeat' (first | (with_reducible assumption) | (with_reducible apply each_still) | (with_reducible apply foldl_still) | (with_reducible apply touchRead_still) | split | (intros; with_reducible assumption) | intro _ _ _ | (with_reducible refine still_fst (by with_reducible assumption) ?_) | dsimp only)

theorem value_still {s : State} (g : Nat) (bits : Nat) (u : Use) (wk : Wk) (p : Place) (hk : Still s0 s) : Still s0 (State.value s g bits u wk p).1 := by
  unfold State.value
  try dsimp only
  repeat' (first | (with_reducible assumption) | (with_reducible apply each_still) | (with_reducible apply foldl_still) | (with_reducible apply portRead_still) | split | (intros; with_reducible assumption) | intro _ _ _ | (with_reducible refine still_fst (by with_reducible assumption) ?_) | dsimp only)

theorem values_still {s : State} (g : Nat) (h : Head) (wk : Wk) (os : List Opd) (ps : List Place) (hk : Still s0 s) :
    Still s0 (s.values g h wk os ps).1 := by
  induction os generalizing s ps with
  | nil => exact hk
  | cons o os ih =>
    cases ps with
    | nil => exact hk
    | cons p ps =>
      unfold State.values
      split
      · exact ih ps hk
      · exact ih ps (value_still _ _ _ _ _ hk)

theorem postAll_still {s : State} (g : Nat) (ready : Nat) (p : Place) (cells : List (Nat × Byte)) (gen : Option (Nat × Nat)) (hk : Still s0 s) : Still s0 (State.postAll s g ready p cells gen) := by
  unfold State.postAll
  try dsimp only
  repeat' (first | (with_reducible assumption) | (with_reducible apply each_still) | (with_reducible apply foldl_still) | (with_reducible apply post_still) | split | (intros; with_reducible assumption) | intro _ _ _ | (with_reducible refine still_fst (by with_reducible assumption) ?_) | dsimp only)

theorem buffer_still {s : State} (g : Nat) (e : StoreEnt) (hk : Still s0 s) : Still s0 (State.buffer s g e) := by
  unfold State.buffer
  try dsimp only
  repeat' (first | (with_reducible assumption) | (with_reducible apply each_still) | (with_reducible apply foldl_still) | (with_reducible apply setThr_still) | split | (intros; with_reducible assumption) | intro _ _ _ | (with_reducible refine still_fst (by with_reducible assumption) ?_) | dsimp only)

theorem putMem_still {s : State} (g : Nat) (ready : Nat) (p : Place) (cells : List (Nat × Byte)) (gen : Option (Nat × Nat)) (hk : Still s0 s) : Still s0 (State.putMem s g ready p cells gen) := by
  unfold State.putMem
  try dsimp only
  repeat' (first | (with_reducible assumption) | (with_reducible apply each_still) | (with_reducible apply foldl_still) | (with_reducible apply putRuns_still) | (with_reducible apply postAll_still) | (with_reducible apply buffer_still) | split | (intros; with_reducible assumption) | intro _ _ _ | (with_reducible refine still_fst (by with_reducible assumption) ?_) | dsimp only)

theorem putBits_still {s : State} (bits : Nat) (b : Nat) (n : Nat) (v : Nat) (mask : Nat) (hk : Still s0 s) : Still s0 (State.putBits s bits b n v mask) := by
  unfold State.putBits
  try dsimp only
  repeat' (first | (with_reducible assumption) | (with_reducible apply each_still) | (with_reducible apply foldl_still) | (with_reducible apply memWrite_still) | split | (intros; with_reducible assumption) | intro _ _ _ | (with_reducible refine still_fst (by with_reducible assumption) ?_) | dsimp only | (with_reducible apply upd_bitOld_still))

theorem setOpd_still {s : State} (g : Nat) (bits : Nat) (ready : Nat) (p : Place) (v : Nat) (mask : Nat) (hk : Still s0 s) : Still s0 (State.setOpd s g bits ready p v mask) := by
  unfold State.setOpd
  try dsimp only
  repeat' (first | (with_reducible assumption) | (with_reducible apply each_still) | (with_reducible apply foldl_still) | (with_reducible apply drivePort_still) | (with_reducible apply report_still) | (with_reducible apply piWrite_still) | (with_reducible apply portWrite_still) | (with_reducible apply spWrite_still) | (with_reducible apply putMem_still) | (with_reducible apply putBits_still) | split | (intros; with_reducible assumption) | intro _ _ _ | (with_reducible refine still_fst (by with_reducible assumption) ?_) | dsimp only)

theorem putUpdates_still {s : State} (g : Nat) (upd : List (List (Nat × Byte))) (hk : Still s0 s) : Still s0 (State.putUpdates s g upd) := by
  unfold State.putUpdates
  try dsimp only
  repeat' (first | (with_reducible assumption) | (with_reducible apply each_still) | (with_reducible apply foldl_still) | (with_reducible apply putMem_still) | split | (intros; with_reducible assumption) | intro _ _ _ | (with_reducible refine still_fst (by with_reducible assumption) ?_) | dsimp only)

theorem finishDiv_still {s : State} (g : Nat) (hk : Still s0 s) : Still s0 (State.finishDiv s g) := by
  unfold State.finishDiv
  try dsimp only
  repeat' (first | (with_reducible assumption) | (with_reducible apply each_still) | (with_reducible apply foldl_still) | (with_reducible apply setThr_still) | (with_reducible apply goOn_still) | (with_reducible apply putUpdates_still) | split | (intros; with_reducible assumption) | intro _ _ _ | (with_reducible refine still_fst (by with_reducible assumption) ?_) | dsimp only)

theorem btbTake_still {s : State} (g : Nat) (pc : Word) (tgt : Word) (hk : Still s0 s) : Still s0 (State.btbTake s g pc tgt) := by
  unfold State.btbTake
  try dsimp only
  repeat' (first | (with_reducible assumption) | (with_reducible apply each_still) | (with_reducible apply foldl_still) | (with_reducible apply setCore_still) | split | (intros; with_reducible assumption) | intro _ _ _ | (with_reducible refine still_fst (by with_reducible assumption) ?_) | dsimp only)

theorem takeBranch_still {s : State} (g : Nat) (pc : Word) (tgt : Word) (hk : Still s0 s) : Still s0 (State.takeBranch s g pc tgt).1 := by
  unfold State.takeBranch
  try dsimp only
  repeat' (first | (with_reducible assumption) | (with_reducible apply each_still) | (with_reducible apply foldl_still) | (with_reducible apply btbTake_still) | split | (intros; with_reducible assumption) | intro _ _ _ | (with_reducible refine still_fst (by with_reducible assumption) ?_) | dsimp only)

theorem writeOuts_still {s : State} (g : Nat) (h : Head) (os : List Opd) (ps : List Place) (outs : List Out) (hk : Still s0 s) : Still s0 (State.writeOuts s g h os ps outs) := by
  unfold State.writeOuts
  try dsimp only
  repeat' (first | (with_reducible assumption) | (with_reducible apply each_still) | (with_reducible apply foldl_still) | (with_reducible apply setOpd_still) | split | (intros; with_reducible assumption) | intro _ _ _ | (with_reducible refine still_fst (by with_reducible assumption) ?_) | dsimp only)

theorem writeFlags_still {s : State} (g : Nat) (h : Head) (fl : Option Flags) (hk : Still s0 s) : Still s0 (State.writeFlags s g h fl) := by
  unfold State.writeFlags
  try dsimp only
  repeat' (first | (with_reducible assumption) | (with_reducible apply each_still) | (with_reducible apply foldl_still) | (with_reducible apply setThr_still) | split | (intros; with_reducible assumption) | intro _ _ _ | (with_reducible refine still_fst (by with_reducible assumption) ?_) | dsimp only)

theorem noteIssue_still {s : State} (g : Nat) (spill : Bool) (l : Nat) (hk : Still s0 s) : Still s0 (State.noteIssue s g spill l) := by
  unfold State.noteIssue
  try dsimp only
  repeat' (first | (with_reducible assumption) | (with_reducible apply each_still) | (with_reducible apply foldl_still) | (with_reducible apply setThr_still) | (with_reducible apply setCore_still) | (with_reducible apply bump_still) | (with_reducible apply bumpRf_still) | split | (intros; with_reducible assumption) | intro _ _ _ | (with_reducible refine still_fst (by with_reducible assumption) ?_) | dsimp only)

theorem endStep_still {s : State} (g : Nat) (step : Bool) (hk : Still s0 s) : Still s0 (State.endStep s g step) := by
  unfold State.endStep
  try dsimp only
  repeat' (first | (with_reducible assumption) | (with_reducible apply each_still) | (with_reducible apply foldl_still) | (with_reducible apply toHalted_still) | split | (intros; with_reducible assumption) | intro _ _ _ | (with_reducible refine still_fst (by with_reducible assumption) ?_) | dsimp only)

theorem useLines_still {s : State} (g : Nat) (lines : List Nat) (hk : Still s0 s) : Still s0 (State.useLines s g lines) := by
  unfold State.useLines
  try dsimp only
  repeat' (first | (with_reducible assumption) | (with_reducible apply each_still) | (with_reducible apply foldl_still) | (with_reducible apply setCore_still) | split | (intros; with_reducible assumption) | intro _ _ _ | (with_reducible refine still_fst (by with_reducible assumption) ?_) | dsimp only)

theorem pass_still {s : State} (g : Nat) (h : Head) (r : OpRow) (ws : List Word) (hk : Still s0 s) : Still s0 (State.pass s g h r ws).1 := by
  unfold State.pass
  try dsimp only
  repeat' (first | (with_reducible assumption) | (with_reducible apply each_still) | (with_reducible apply foldl_still) | (with_reducible apply goOn_still) | (with_reducible apply values_still) | split | (intros; with_reducible assumption) | intro _ _ _ | (with_reducible refine still_fst (by with_reducible assumption) ?_) | dsimp only)

theorem faultIssue_still {s : State} (g : Nat) (spill : Bool) (code : Nat) (db : Word) (hk : Still s0 s) : Still s0 (State.faultIssue s g spill code db) := by
  unfold State.faultIssue
  try dsimp only
  repeat' (first | (with_reducible assumption) | (with_reducible apply each_still) | (with_reducible apply foldl_still) | (with_reducible apply threadFault_still) | (with_reducible apply noteIssue_still) | split | (intros; with_reducible assumption) | intro _ _ _ | (with_reducible refine still_fst (by with_reducible assumption) ?_) | dsimp only)

theorem actSecond_still {s : State} (g : Nat) (h : Head) (hk : Still s0 s) : Still s0 (State.actSecond s g h).1 := by
  unfold State.actSecond
  try dsimp only
  repeat' (first | (with_reducible assumption) | (with_reducible apply each_still) | (with_reducible apply foldl_still) | (with_reducible apply setThr_still) | (with_reducible apply goOn_still) | (with_reducible apply takeBranch_still) | split | (intros; with_reducible assumption) | intro _ _ _ | (with_reducible refine still_fst (by with_reducible assumption) ?_) | dsimp only)

theorem Issue_stop_still {s : State} (x : Issue) (g : Nat) (e : Stop) (hk : Still s0 s)
    (he : ∀ code db t, e = .fault code db t → Still s0 t) : Still s0 (x.stop g s e) := by
  unfold Issue.stop
  split
  · exact hk
  · exact faultIssue_still _ _ _ _ (he _ _ _ rfl)

theorem fenceStores_still {s : State} (g : Nat) (hk : Still s0 s) : Still s0 (State.fenceStores s g) := by
  unfold State.fenceStores
  try dsimp only
  repeat' (first | (with_reducible assumption) | (with_reducible apply each_still) | (with_reducible apply foldl_still) | (with_reducible apply setThr_still) | split | (intros; with_reducible assumption) | intro _ _ _ | (with_reducible refine still_fst (by with_reducible assumption) ?_) | dsimp only)

theorem cacheInv_still {s : State} (n : Nat) (hk : Still s0 s) : Still s0 (State.cacheInv s n) := by
  unfold State.cacheInv
  try dsimp only
  repeat' (first | (with_reducible assumption) | (with_reducible apply each_still) | (with_reducible apply foldl_still) | (with_reducible apply setThr_still) | (with_reducible apply setCore_still) | split | (intros; with_reducible assumption) | intro _ _ _ | (with_reducible refine still_fst (by with_reducible assumption) ?_) | dsimp only)

theorem actionCheck_still {s : State} (g : Nat) (q : Nat) (a : DWord) (held : Bool) (hk : Still s0 s) : Still s0 (State.actionCheck s g q a held).1 := by
  unfold State.actionCheck
  try dsimp only
  repeat' (first | (with_reducible assumption) | (with_reducible apply each_still) | (with_reducible apply foldl_still) | (with_reducible apply report_still) | (with_reducible apply actionLate_still) | split | (intros; with_reducible assumption) | intro _ _ _ | (with_reducible refine still_fst (by with_reducible assumption) ?_) | dsimp only)

theorem holdAction_still {s : State} (g : Nat) (x : Nat) (q : Nat) (a : DWord) (hk : Still s0 s) : Still s0 (State.holdAction s g x q a).1 := by
  unfold State.holdAction
  try dsimp only
  repeat' (first | (with_reducible assumption) | (with_reducible apply each_still) | (with_reducible apply foldl_still) | (with_reducible apply setCtx_still) | (with_reducible apply setPsq_still) | (with_reducible apply abort_still) | (with_reducible apply actionCheck_still) | split | (intros; with_reducible assumption) | intro _ _ _ | (with_reducible refine still_fst (by with_reducible assumption) ?_) | dsimp only | (with_reducible apply upd_held_still))

theorem fillCache_still {s : State} (n : Nat) (line : Nat) (hk : Still s0 s) : Still s0 (State.fillCache s n line) := by
  unfold State.fillCache
  try dsimp only
  repeat' (first | (with_reducible assumption) | (with_reducible apply each_still) | (with_reducible apply foldl_still) | (with_reducible apply setCore_still) | (with_reducible apply setCell_still) | split | (intros; with_reducible assumption) | intro _ _ _ | (with_reducible refine still_fst (by with_reducible assumption) ?_) | dsimp only)

theorem settleSeqs_still {s : State}  (hk : Still s0 s) : Still s0 (State.settleSeqs s) := by
  unfold State.settleSeqs
  try dsimp only
  repeat' (first | (with_reducible assumption) | (with_reducible apply each_still) | (with_reducible apply foldl_still) | (with_reducible apply settleV_still) | (with_reducible apply settleCaps_still) | (with_reducible apply settleFl_still) | (with_reducible apply settleLane_still) | (with_reducible apply psqHalt_still) | split | (intros; with_reducible assumption) | intro _ _ _ | (with_reducible refine still_fst (by with_reducible assumption) ?_) | dsimp only)

theorem settleFlags_still {s : State} (hk : Still s0 s) : Still s0 s.settleFlags :=
  hk.trans ⟨rfl, rfl, rfl, rfl, rfl, rfl, rfl, rfl, rfl, id, id⟩

theorem countCycle_still {s : State}  (hk : Still s0 s) : Still s0 (State.countCycle s) := by
  unfold State.countCycle
  try dsimp only
  repeat' (first | (with_reducible assumption) | (with_reducible apply each_still) | (with_reducible apply foldl_still) | (with_reducible apply bump_still) | split | (intros; with_reducible assumption) | intro _ _ _ | (with_reducible refine still_fst (by with_reducible assumption) ?_) | dsimp only)

theorem settleDeadlocks_still {s : State}  (hk : Still s0 s) : Still s0 (State.settleDeadlocks s) := by
  unfold State.settleDeadlocks
  try dsimp only
  repeat' (first | (with_reducible assumption) | (with_reducible apply each_still) | (with_reducible apply foldl_still) | split | (intros; with_reducible assumption) | intro _ _ _ | (with_reducible refine still_fst (by with_reducible assumption) ?_) | dsimp only | (with_reducible apply upd_dlDone_still))

theorem endCycle_still {s : State}  (hk : Still s0 s) : Still s0 (State.endCycle s) := by
  unfold State.endCycle
  try dsimp only
  repeat' (first | (with_reducible assumption) | (with_reducible apply each_still) | (with_reducible apply foldl_still) | (with_reducible apply tmrSettle_still) | (with_reducible apply settleSeqs_still) | (with_reducible apply settleFlags_still) | (with_reducible apply countCycle_still) | (with_reducible apply settleDeadlocks_still) | split | (intros; with_reducible assumption) | intro _ _ _ | (with_reducible refine still_fst (by with_reducible assumption) ?_) | dsimp only)

theorem slewCycle_still {s : State}  (hk : Still s0 s) : Still s0 (State.slewCycle s) := by
  unfold State.slewCycle
  try dsimp only
  repeat' (first | (with_reducible assumption) | (with_reducible apply each_still) | (with_reducible apply foldl_still) | split | (intros; with_reducible assumption) | intro _ _ _ | (with_reducible refine still_fst (by with_reducible assumption) ?_) | dsimp only | (with_reducible apply upd_commons_still))

theorem startFills_still {s : State}  (hk : Still s0 s) : Still s0 (State.startFills s) := by
  unfold State.startFills
  try dsimp only
  repeat' (first | (with_reducible assumption) | (with_reducible apply each_still) | (with_reducible apply foldl_still) | (with_reducible apply setThr_still) | split | (intros; with_reducible assumption) | intro _ _ _ | (with_reducible refine still_fst (by with_reducible assumption) ?_) | dsimp only)

theorem noteDelay_still {s : State} (n : Nat) (hk : Still s0 s) : Still s0 (State.noteDelay s n) := by
  unfold State.noteDelay
  try dsimp only
  repeat' (first | (with_reducible assumption) | (with_reducible apply each_still) | (with_reducible apply foldl_still) | (with_reducible apply setCore_still) | split | (intros; with_reducible assumption) | intro _ _ _ | (with_reducible refine still_fst (by with_reducible assumption) ?_) | dsimp only)

theorem countDozes_still {s : State}  (hk : Still s0 s) : Still s0 (State.countDozes s) := by
  unfold State.countDozes
  try dsimp only
  repeat' (first | (with_reducible assumption) | (with_reducible apply each_still) | (with_reducible apply foldl_still) | (with_reducible apply bump_still) | (with_reducible apply noteDelay_still) | split | (intros; with_reducible assumption) | intro _ _ _ | (with_reducible refine still_fst (by with_reducible assumption) ?_) | dsimp only)

end Sys2Proof.Laws
end

