-- ==== Sys2Proof/Laws/Instr.lean ====
section
/-! SUPPORT. What the issue of a thread instruction leaves as it is, whatever its operands and its body: the driver `instr`, once
for every thread instruction. -/
namespace Sys2Proof.Laws
open Sys2Proof.Machine

variable {s0 : State}

/-- The state that a stop carries is still. -/
def StopStill (s0 : State) : Stop → Prop
  | .fault _ _ t => Still s0 t
  | .stall => True

/-- What a body answers is still. -/
def ActStill (s0 : State) : Except Stop Act → Prop
  | .ok a => Still s0 a.s
  | .error e => StopStill s0 e

theorem space_still {s : State} (hk : Still s0 s) : StopStill s0 s.space := hk
theorem dataUe_still {s : State} (b : Nat) (hk : Still s0 s) : StopStill s0 (s.dataUe b) := recordUe_still _ _ hk

theorem fetch_still {s : State} {g : Nat} {pc : Word} {e : Stop} (hk : Still s0 s) (h : s.fetch g pc = .bad e) : StopStill s0 e := by
  unfold State.fetch at h
  dsimp only at h
  repeat' split at h
  all_goals first
    | (cases h; done)
    | (injection h with h; subst h; first | exact hk | exact space_still hk | exact recordUe_still _ _ hk)

theorem ptrWord_still {s : State} {g : Nat} {wk : Wk} {o n : Nat} {e : Stop} (hk : Still s0 s)
    (h : s.ptrWord g wk o n = .error e) : StopStill s0 e := by
  unfold State.ptrWord at h
  dsimp only at h
  repeat' split at h
  all_goals first
    | (cases h; done)
    | (injection h with h; subst h; first | exact hk | exact dataUe_still _ hk | trivial)

/-- A stop that an evaluation ends in, if any, is still. -/
def ExStill {α : Type} (s0 : State) : Except Stop α → Prop
  | .ok _ => True
  | .error e => StopStill s0 e

theorem ite_ex {α : Type} {p : Prop} [Decidable p] {a b : Except Stop α} (ha : ExStill s0 a) (hb : ExStill s0 b) :
    ExStill s0 (if p then a else b) := by
  split
  · exact ha
  · exact hb

theorem form_ex {s : State} (g : Nat) (hd : Head) (pc : Word) (o : Opd) (w : Word) (wk : Wk) (hk : Still s0 s) :
    ExStill s0 (s.form g hd pc o w wk) := by
  unfold State.form
  dsimp only
  repeat' (first
    | exact trivial
    | exact space_still hk
    | exact ptrWord_still hk (by assumption)
    | (with_reducible apply ite_ex)
    | split)

theorem form_still {s : State} {g : Nat} {hd : Head} {pc : Word} {o : Opd} {w : Word} {wk : Wk} {e : Stop} (hk : Still s0 s)
    (h : s.form g hd pc o w wk = .error e) : StopStill s0 e := by
  have := form_ex g hd pc o w wk hk
  rwa [h] at this

theorem piCheck_still {s : State} {g a n : Nat} {e : Stop} (hk : Still s0 s) (h : s.piCheck g a n = some e) : StopStill s0 e := by
  unfold State.piCheck at h
  have hp := piWrite_still g a n hk
  split at h
  · cases h; exact hk
  · rename_i t b e'; cases h; exact (still_fst e' hp : Still s0 t)
  · cases h
  · rename_i t ks gen e'
    have ht : Still s0 t := still_fst e' hp
    cases hb : t.badWrite ks with
    | none => simp [hb] at h
    | some b => simp [hb] at h; subst h; exact dataUe_still _ hk

theorem check_still {s : State} {g bits : Nat} {u : Use} {p : Place} {e : Stop} (hk : Still s0 s)
    (h : s.check g bits u p = some e) : StopStill s0 e := by
  have data : ∀ {x : Option Stop}, x = (match (if u.reads then s.badRead (s.keysOf g bits p) else none) with
      | some b => some (s.dataUe b)
      | none => if u.writes then (s.badWrite (s.keysOf g bits p)).map s.dataUe else none) → ∀ e, x = some e → StopStill s0 e := by
    intro x hx e he
    subst hx
    split at he
    · cases he; exact dataUe_still _ hk
    · split at he
      · cases hb : s.badWrite (s.keysOf g bits p) with
        | none => simp [hb] at he
        | some b => simp [hb] at he; subst he; exact dataUe_still _ hk
      · cases he
  have orStall : ∀ {x y : Option Stop}, (∀ e, x = some e → StopStill s0 e) → (∀ e, y = some e → StopStill s0 e) →
      ∀ e, x.or y = some e → StopStill s0 e := by
    intro x y hx hy e he
    cases x with
    | none => exact hy e (by simpa using he)
    | some v => exact hx e (by simpa using he)
  have stall : ∀ e, (if u.reads = true ∧ ((s.thr g).forward (s.keysOf g bits p)).isNone = true then some Stop.stall else none) = some e →
      StopStill s0 e := by
    intro e he
    split at he
    · cases he; trivial
    · cases he
  unfold State.check at h
  dsimp only at h
  cases p with
  | near o => dsimp only at h; split at h; · cases h; exact hk
              exact orStall (data rfl) stall _ h
  | shared a => dsimp only at h; split at h; · cases h; exact hk
                exact orStall (data rfl) stall _ h
  | pi a =>
    dsimp only at h
    split at h
    · cases h; exact hk
    · split at h
      · split at h
        · cases h; exact hk
        · split at h
          · cases h; exact dataUe_still _ hk
          · exact orStall (fun e he => piCheck_still hk he) stall _ h
      · refine orStall (fun e he => ?_) stall _ h
        split at he
        · cases he; exact dataUe_still _ hk
        · cases he
  | bits pg a => dsimp only at h; split at h; · cases h; exact hk
                 exact data rfl _ h
  | pin sub q =>
    dsimp only at h
    split at h
    · cases h; exact hk
    · split at h <;> cases h
      exact hk
  | port q n => cases h
  | special n => cases h
  | time a b => cases h
  | imm v => cases h

theorem prep_still {s : State} {g : Nat} {hd : Head} {pc : Word} {os : List Opd} {ws : List Word} {wk : Wk} {e : Stop}
    (hk : Still s0 s) (h : s.prep g hd pc os ws wk = .error e) : StopStill s0 e := by
  induction os generalizing ws wk with
  | nil => simp [State.prep] at h
  | cons o os ih =>
    cases ws with
    | nil => simp [State.prep] at h
    | cons w ws =>
      unfold State.prep at h
      split at h
      · rename_i e1 h1
        cases h
        unfold State.prep1 at h1
        split at h1
        · rename_i h2; cases h1; exact form_still hk h2
        · split at h1
          · cases h1
          · dsimp only at h1
            split at h1
            · rename_i h3; cases h1; exact check_still hk h3
            · cases h1
      · split at h
        · rename_i h2; cases h; exact ih h2
        · cases h

theorem begin_bad_still {s t : State} {g op : Nat} (hk : Still s0 s) (h : s.begin g op = .bad t) : Still s0 t := by
  have hf := finishDiv_still g hk
  unfold State.begin at h
  dsimp only at h
  split at h
  · cases h
  · split at h
    · cases h
    · rename_i hbad; cases h; exact faultIssue_still _ _ _ _ (fetch_still hf hbad)
    · cases h
    · split at h
      · cases h
      · split at h
        · cases h
          exact faultIssue_still _ _ _ _ (useLines_still _ _ (touchAll_still _ _ (setThr_still _ _ hf)))
        · split at h
          · cases h
            exact faultIssue_still _ _ _ _ (useLines_still _ _ (touchAll_still _ _ (setThr_still _ _ hf)))
          · cases h

theorem begin_go_still {s : State} {g op : Nat} {x : Issue} (hk : Still s0 s) (h : s.begin g op = .go x) : Still s0 x.s := by
  have hf := finishDiv_still g hk
  unfold State.begin at h
  dsimp only at h
  repeat' split at h
  all_goals first
    | (cases h; done)
    | (cases h; exact useLines_still _ _ (touchAll_still _ _ (setThr_still _ _ hf)))

theorem gather_still {x : Issue} {g : Nat} {y : Gathered} (hk : Still s0 x.s) (h : x.gather g = .ok y) : Still s0 y.s := by
  unfold Issue.gather at h
  dsimp only at h
  split at h
  · cases h
  · cases h; exact values_still _ _ _ _ _ (touchAll_still _ _ hk)

theorem gather_stop_still {x : Issue} {g : Nat} {e : Stop} (hk : Still s0 x.s) (h : x.gather g = .error e) : StopStill s0 e := by
  unfold Issue.gather at h
  dsimp only at h
  split at h
  · rename_i h2; cases h; exact prep_still hk h2
  · cases h

theorem issue_stop_still {s : State} {x : Issue} {g : Nat} {e : Stop} (hk : Still s0 s) (he : StopStill s0 e) :
    Still s0 (x.stop g s e) := by
  cases e with
  | stall => exact hk
  | fault code db t => exact faultIssue_still _ _ _ _ he

theorem write_still {x : Issue} {g : Nat} {y : Gathered} {a : Act} (ha : Still s0 a.s) : Still s0 (x.write g y a) := by
  have h := writeFlags_still g x.h a.fl (writeOuts_still g x.h x.r.opds y.ps a.outs (putUpdates_still g y.wk.upd ha))
  exact ite_still h (setThr_still _ _ h)

theorem conclude_still {x : Issue} {g : Nat} {y : Gathered} {a : Act} (ha : Still s0 a.s) : Still s0 (x.conclude g y a).1 := by
  unfold Issue.conclude
  split
  · exact setThr_still _ _ ha
  · have h := write_still (x := x) (g := g) (y := y) ha
    dsimp only
    split
    · exact goOn_still _ _ h
    · exact h
    · exact setThr_still _ _ h
    · exact setThr_still _ _ (takeBranch_still _ _ _ h)

theorem issue_close_still {x : Issue} {g : Nat} {r : State × Nat} (hr : Still s0 r.1) : Still s0 (x.close g r) := by
  unfold Issue.close
  dsimp only
  have h2 := fun h2 => actSecond_still g h2 hr
  repeat' split
  all_goals first
    | exact endStep_still _ _ (noteIssue_still _ _ _ hr)
    | exact endStep_still _ _ (noteIssue_still _ _ _ (h2 _))

/-- The driver, once for every thread instruction: if the body keeps still what it is given, the issue does. -/
theorem instr_still {s : State} (g op : Nat) (body : In → State → Except Stop Act) (hk : Still s0 s)
    (hb : ∀ c t, Still s0 t → ActStill s0 (body c t)) : Still s0 (s.instr g op body) := by
  unfold State.instr
  split
  · exact hk
  · rename_i h; exact begin_bad_still hk h
  · rename_i x h
    have hx := begin_go_still hk h
    split
    · split
      · rename_i h2; exact issue_stop_still hk (gather_stop_still hx h2)
      · rename_i y h2
        have hy := hb y.c _ (gather_still hx h2)
        split
        · rename_i h3; rw [h3] at hy; exact issue_stop_still hk hy
        · rename_i h3; rw [h3] at hy; exact issue_close_still (conclude_still hy)
    · exact issue_close_still (pass_still _ _ _ _ hx)

theorem alu_still {s : State} (g op : Nat) (f : In → Res) (hk : Still s0 s) : Still s0 (s.alu g op f) :=
  instr_still _ _ _ hk fun _ _ h => h
theorem test_still {s : State} (g op : Nat) (f : In → Flags) (hk : Still s0 s) : Still s0 (s.test g op f) :=
  instr_still _ _ _ hk fun _ _ h => h
theorem effect_still {s : State} (g op : Nat) (f : In → State → State) (hk : Still s0 s)
    (hf : ∀ c t, Still s0 t → Still s0 (f c t)) : Still s0 (s.effect g op f) := instr_still _ _ _ hk hf

end Sys2Proof.Laws
end

