-- ==== Sys2Proof/Laws/State.lean ====
section
/-! SUPPORT. What each update of State leaves in each field, and what each family reads after an update of it. -/
namespace Sys2Proof.Laws
open Sys2Proof.Machine

variable (s : State)

/-! ### setThr -/

section
variable (g : Nat) (t : Thread)
@[simp] theorem setThr_cycle : (s.setThr g t).cycle = s.cycle := rfl
@[simp] theorem setThr_sptr : (s.setThr g t).sptr = s.sptr := rfl
@[simp] theorem setThr_mode : (s.setThr g t).mode = s.mode := rfl
@[simp] theorem setThr_off : (s.setThr g t).off = s.off := rfl
@[simp] theorem setThr_pend : (s.setThr g t).pend = s.pend := rfl
@[simp] theorem setThr_pendCyc : (s.setThr g t).pendCyc = s.pendCyc := rfl
@[simp] theorem setThr_heldFrom : (s.setThr g t).heldFrom = s.heldFrom := rfl
@[simp] theorem setThr_holdSrc : (s.setThr g t).holdSrc = s.holdSrc := rfl
@[simp] theorem setThr_settled : (s.setThr g t).settled = s.settled := rfl
@[simp] theorem setThr_regs : (s.setThr g t).regs = s.regs := rfl
@[simp] theorem setThr_held : (s.setThr g t).held = s.held := rfl
@[simp] theorem setThr_ram : (s.setThr g t).ram = s.ram := rfl
@[simp] theorem setThr_chip : (s.setThr g t).chip = s.chip := rfl
@[simp] theorem setThr_ecc : (s.setThr g t).ecc = s.ecc := rfl
@[simp] theorem setThr_scrubs : (s.setThr g t).scrubs = s.scrubs := rfl
@[simp] theorem setThr_ver : (s.setThr g t).ver = s.ver := rfl
@[simp] theorem setThr_claims : (s.setThr g t).claims = s.claims := rfl
@[simp] theorem setThr_side : (s.setThr g t).side = s.side := rfl
@[simp] theorem setThr_ctxs : (s.setThr g t).ctxs = s.ctxs := rfl
@[simp] theorem setThr_commits : (s.setThr g t).commits = s.commits := rfl
@[simp] theorem setThr_cores : (s.setThr g t).cores = s.cores := rfl
@[simp] theorem setThr_lags : (s.setThr g t).lags = s.lags := rfl
@[simp] theorem setThr_posted : (s.setThr g t).posted = s.posted := rfl
@[simp] theorem setThr_bitOld : (s.setThr g t).bitOld = s.bitOld := rfl
@[simp] theorem setThr_portOld : (s.setThr g t).portOld = s.portOld := rfl
@[simp] theorem setThr_locks : (s.setThr g t).locks = s.locks := rfl
@[simp] theorem setThr_flags : (s.setThr g t).flags = s.flags := rfl
@[simp] theorem setThr_chans : (s.setThr g t).chans = s.chans := rfl
@[simp] theorem setThr_dlDone : (s.setThr g t).dlDone = s.dlDone := rfl
@[simp] theorem setThr_doms : (s.setThr g t).doms = s.doms := rfl
@[simp] theorem setThr_movers : (s.setThr g t).movers = s.movers := rfl
@[simp] theorem setThr_commons : (s.setThr g t).commons = s.commons := rfl
@[simp] theorem setThr_timers : (s.setThr g t).timers = s.timers := rfl
@[simp] theorem setThr_psqs : (s.setThr g t).psqs = s.psqs := rfl
@[simp] theorem setThr_lanes : (s.setThr g t).lanes = s.lanes := rfl
@[simp] theorem setThr_pins : (s.setThr g t).pins = s.pins := rfl
@[simp] theorem setThr_ports : (s.setThr g t).ports = s.ports := rfl
@[simp] theorem setThr_tdrPin : (s.setThr g t).tdrPin = s.tdrPin := rfl
@[simp] theorem setThr_mbus : (s.setThr g t).mbus = s.mbus := rfl
@[simp] theorem setThr_heads : (s.setThr g t).heads = s.heads := rfl
@[simp] theorem setThr_gleaner : (s.setThr g t).gleaner = s.gleaner := rfl
@[simp] theorem setThr_reports : (s.setThr g t).reports = s.reports := rfl
@[simp] theorem setThr_log : (s.setThr g t).log = s.log := rfl
@[simp] theorem setThr_seq : (s.setThr g t).seq = s.seq := rfl
@[simp] theorem setThr_orders : (s.setThr g t).orders = s.orders := rfl
@[simp] theorem setThr_ordered : (s.setThr g t).ordered = s.ordered := rfl
@[simp] theorem setThr_holdReq : (s.setThr g t).holdReq = s.holdReq := rfl
@[simp] theorem setThr_supply : (s.setThr g t).supply = s.supply := rfl
@[simp] theorem setThr_latch : (s.setThr g t).latch = s.latch := rfl
@[simp] theorem setThr_stage : (s.setThr g t).stage = s.stage := rfl
@[simp] theorem setThr_rdata : (s.setThr g t).rdata = s.rdata := rfl
@[simp] theorem setThr_half : (s.setThr g t).half = s.half := rfl
@[simp] theorem setThr_pending : (s.setThr g t).pending = s.pending := rfl
end
theorem setThr_thr (g x : Nat) (t : Thread) : (s.setThr g t).thr x = if x = g then t else s.thr x := get_put _ _ _ _

/-! ### setCore -/

section
variable (n : Nat) (c : Core)
@[simp] theorem setCore_cycle : (s.setCore n c).cycle = s.cycle := rfl
@[simp] theorem setCore_sptr : (s.setCore n c).sptr = s.sptr := rfl
@[simp] theorem setCore_mode : (s.setCore n c).mode = s.mode := rfl
@[simp] theorem setCore_off : (s.setCore n c).off = s.off := rfl
@[simp] theorem setCore_pend : (s.setCore n c).pend = s.pend := rfl
@[simp] theorem setCore_pendCyc : (s.setCore n c).pendCyc = s.pendCyc := rfl
@[simp] theorem setCore_heldFrom : (s.setCore n c).heldFrom = s.heldFrom := rfl
@[simp] theorem setCore_holdSrc : (s.setCore n c).holdSrc = s.holdSrc := rfl
@[simp] theorem setCore_settled : (s.setCore n c).settled = s.settled := rfl
@[simp] theorem setCore_regs : (s.setCore n c).regs = s.regs := rfl
@[simp] theorem setCore_held : (s.setCore n c).held = s.held := rfl
@[simp] theorem setCore_ram : (s.setCore n c).ram = s.ram := rfl
@[simp] theorem setCore_chip : (s.setCore n c).chip = s.chip := rfl
@[simp] theorem setCore_ecc : (s.setCore n c).ecc = s.ecc := rfl
@[simp] theorem setCore_scrubs : (s.setCore n c).scrubs = s.scrubs := rfl
@[simp] theorem setCore_ver : (s.setCore n c).ver = s.ver := rfl
@[simp] theorem setCore_claims : (s.setCore n c).claims = s.claims := rfl
@[simp] theorem setCore_side : (s.setCore n c).side = s.side := rfl
@[simp] theorem setCore_ctxs : (s.setCore n c).ctxs = s.ctxs := rfl
@[simp] theorem setCore_commits : (s.setCore n c).commits = s.commits := rfl
@[simp] theorem setCore_threads : (s.setCore n c).threads = s.threads := rfl
@[simp] theorem setCore_lags : (s.setCore n c).lags = s.lags := rfl
@[simp] theorem setCore_posted : (s.setCore n c).posted = s.posted := rfl
@[simp] theorem setCore_bitOld : (s.setCore n c).bitOld = s.bitOld := rfl
@[simp] theorem setCore_portOld : (s.setCore n c).portOld = s.portOld := rfl
@[simp] theorem setCore_locks : (s.setCore n c).locks = s.locks := rfl
@[simp] theorem setCore_flags : (s.setCore n c).flags = s.flags := rfl
@[simp] theorem setCore_chans : (s.setCore n c).chans = s.chans := rfl
@[simp] theorem setCore_dlDone : (s.setCore n c).dlDone = s.dlDone := rfl
@[simp] theorem setCore_doms : (s.setCore n c).doms = s.doms := rfl
@[simp] theorem setCore_movers : (s.setCore n c).movers = s.movers := rfl
@[simp] theorem setCore_commons : (s.setCore n c).commons = s.commons := rfl
@[simp] theorem setCore_timers : (s.setCore n c).timers = s.timers := rfl
@[simp] theorem setCore_psqs : (s.setCore n c).psqs = s.psqs := rfl
@[simp] theorem setCore_lanes : (s.setCore n c).lanes = s.lanes := rfl
@[simp] theorem setCore_pins : (s.setCore n c).pins = s.pins := rfl
@[simp] theorem setCore_ports : (s.setCore n c).ports = s.ports := rfl
@[simp] theorem setCore_tdrPin : (s.setCore n c).tdrPin = s.tdrPin := rfl
@[simp] theorem setCore_mbus : (s.setCore n c).mbus = s.mbus := rfl
@[simp] theorem setCore_heads : (s.setCore n c).heads = s.heads := rfl
@[simp] theorem setCore_gleaner : (s.setCore n c).gleaner = s.gleaner := rfl
@[simp] theorem setCore_reports : (s.setCore n c).reports = s.reports := rfl
@[simp] theorem setCore_log : (s.setCore n c).log = s.log := rfl
@[simp] theorem setCore_seq : (s.setCore n c).seq = s.seq := rfl
@[simp] theorem setCore_orders : (s.setCore n c).orders = s.orders := rfl
@[simp] theorem setCore_ordered : (s.setCore n c).ordered = s.ordered := rfl
@[simp] theorem setCore_holdReq : (s.setCore n c).holdReq = s.holdReq := rfl
@[simp] theorem setCore_supply : (s.setCore n c).supply = s.supply := rfl
@[simp] theorem setCore_latch : (s.setCore n c).latch = s.latch := rfl
@[simp] theorem setCore_stage : (s.setCore n c).stage = s.stage := rfl
@[simp] theorem setCore_rdata : (s.setCore n c).rdata = s.rdata := rfl
@[simp] theorem setCore_half : (s.setCore n c).half = s.half := rfl
@[simp] theorem setCore_pending : (s.setCore n c).pending = s.pending := rfl
end
theorem setCore_core (n x : Nat) (c : Core) : (s.setCore n c).core x = if x = n then c else s.core x := get_put _ _ _ _

/-! ### setCtx -/

section
variable (y : Nat) (c : Ctx)
@[simp] theorem setCtx_cycle : (s.setCtx y c).cycle = s.cycle := rfl
@[simp] theorem setCtx_sptr : (s.setCtx y c).sptr = s.sptr := rfl
@[simp] theorem setCtx_mode : (s.setCtx y c).mode = s.mode := rfl
@[simp] theorem setCtx_off : (s.setCtx y c).off = s.off := rfl
@[simp] theorem setCtx_pend : (s.setCtx y c).pend = s.pend := rfl
@[simp] theorem setCtx_pendCyc : (s.setCtx y c).pendCyc = s.pendCyc := rfl
@[simp] theorem setCtx_heldFrom : (s.setCtx y c).heldFrom = s.heldFrom := rfl
@[simp] theorem setCtx_holdSrc : (s.setCtx y c).holdSrc = s.holdSrc := rfl
@[simp] theorem setCtx_settled : (s.setCtx y c).settled = s.settled := rfl
@[simp] theorem setCtx_regs : (s.setCtx y c).regs = s.regs := rfl
@[simp] theorem setCtx_held : (s.setCtx y c).held = s.held := rfl
@[simp] theorem setCtx_ram : (s.setCtx y c).ram = s.ram := rfl
@[simp] theorem setCtx_chip : (s.setCtx y c).chip = s.chip := rfl
@[simp] theorem setCtx_ecc : (s.setCtx y c).ecc = s.ecc := rfl
@[simp] theorem setCtx_scrubs : (s.setCtx y c).scrubs = s.scrubs := rfl
@[simp] theorem setCtx_ver : (s.setCtx y c).ver = s.ver := rfl
@[simp] theorem setCtx_claims : (s.setCtx y c).claims = s.claims := rfl
@[simp] theorem setCtx_side : (s.setCtx y c).side = s.side := rfl
@[simp] theorem setCtx_commits : (s.setCtx y c).commits = s.commits := rfl
@[simp] theorem setCtx_threads : (s.setCtx y c).threads = s.threads := rfl
@[simp] theorem setCtx_cores : (s.setCtx y c).cores = s.cores := rfl
@[simp] theorem setCtx_lags : (s.setCtx y c).lags = s.lags := rfl
@[simp] theorem setCtx_posted : (s.setCtx y c).posted = s.posted := rfl
@[simp] theorem setCtx_bitOld : (s.setCtx y c).bitOld = s.bitOld := rfl
@[simp] theorem setCtx_portOld : (s.setCtx y c).portOld = s.portOld := rfl
@[simp] theorem setCtx_locks : (s.setCtx y c).locks = s.locks := rfl
@[simp] theorem setCtx_flags : (s.setCtx y c).flags = s.flags := rfl
@[simp] theorem setCtx_chans : (s.setCtx y c).chans = s.chans := rfl
@[simp] theorem setCtx_dlDone : (s.setCtx y c).dlDone = s.dlDone := rfl
@[simp] theorem setCtx_doms : (s.setCtx y c).doms = s.doms := rfl
@[simp] theorem setCtx_movers : (s.setCtx y c).movers = s.movers := rfl
@[simp] theorem setCtx_commons : (s.setCtx y c).commons = s.commons := rfl
@[simp] theorem setCtx_timers : (s.setCtx y c).timers = s.timers := rfl
@[simp] theorem setCtx_psqs : (s.setCtx y c).psqs = s.psqs := rfl
@[simp] theorem setCtx_lanes : (s.setCtx y c).lanes = s.lanes := rfl
@[simp] theorem setCtx_pins : (s.setCtx y c).pins = s.pins := rfl
@[simp] theorem setCtx_ports : (s.setCtx y c).ports = s.ports := rfl
@[simp] theorem setCtx_tdrPin : (s.setCtx y c).tdrPin = s.tdrPin := rfl
@[simp] theorem setCtx_mbus : (s.setCtx y c).mbus = s.mbus := rfl
@[simp] theorem setCtx_heads : (s.setCtx y c).heads = s.heads := rfl
@[simp] theorem setCtx_gleaner : (s.setCtx y c).gleaner = s.gleaner := rfl
@[simp] theorem setCtx_reports : (s.setCtx y c).reports = s.reports := rfl
@[simp] theorem setCtx_log : (s.setCtx y c).log = s.log := rfl
@[simp] theorem setCtx_seq : (s.setCtx y c).seq = s.seq := rfl
@[simp] theorem setCtx_orders : (s.setCtx y c).orders = s.orders := rfl
@[simp] theorem setCtx_ordered : (s.setCtx y c).ordered = s.ordered := rfl
@[simp] theorem setCtx_holdReq : (s.setCtx y c).holdReq = s.holdReq := rfl
@[simp] theorem setCtx_supply : (s.setCtx y c).supply = s.supply := rfl
@[simp] theorem setCtx_latch : (s.setCtx y c).latch = s.latch := rfl
@[simp] theorem setCtx_stage : (s.setCtx y c).stage = s.stage := rfl
@[simp] theorem setCtx_rdata : (s.setCtx y c).rdata = s.rdata := rfl
@[simp] theorem setCtx_half : (s.setCtx y c).half = s.half := rfl
@[simp] theorem setCtx_pending : (s.setCtx y c).pending = s.pending := rfl
end
theorem setCtx_ctx (y x : Nat) (c : Ctx) : (s.setCtx y c).ctx x = if x = y then c else s.ctx x := get_put _ _ _ _

/-! ### setDom -/

section
variable (d : Nat) (v : Dom)
@[simp] theorem setDom_cycle : (s.setDom d v).cycle = s.cycle := rfl
@[simp] theorem setDom_sptr : (s.setDom d v).sptr = s.sptr := rfl
@[simp] theorem setDom_mode : (s.setDom d v).mode = s.mode := rfl
@[simp] theorem setDom_off : (s.setDom d v).off = s.off := rfl
@[simp] theorem setDom_pend : (s.setDom d v).pend = s.pend := rfl
@[simp] theorem setDom_pendCyc : (s.setDom d v).pendCyc = s.pendCyc := rfl
@[simp] theorem setDom_heldFrom : (s.setDom d v).heldFrom = s.heldFrom := rfl
@[simp] theorem setDom_holdSrc : (s.setDom d v).holdSrc = s.holdSrc := rfl
@[simp] theorem setDom_settled : (s.setDom d v).settled = s.settled := rfl
@[simp] theorem setDom_regs : (s.setDom d v).regs = s.regs := rfl
@[simp] theorem setDom_held : (s.setDom d v).held = s.held := rfl
@[simp] theorem setDom_ram : (s.setDom d v).ram = s.ram := rfl
@[simp] theorem setDom_chip : (s.setDom d v).chip = s.chip := rfl
@[simp] theorem setDom_ecc : (s.setDom d v).ecc = s.ecc := rfl
@[simp] theorem setDom_scrubs : (s.setDom d v).scrubs = s.scrubs := rfl
@[simp] theorem setDom_ver : (s.setDom d v).ver = s.ver := rfl
@[simp] theorem setDom_claims : (s.setDom d v).claims = s.claims := rfl
@[simp] theorem setDom_side : (s.setDom d v).side = s.side := rfl
@[simp] theorem setDom_ctxs : (s.setDom d v).ctxs = s.ctxs := rfl
@[simp] theorem setDom_commits : (s.setDom d v).commits = s.commits := rfl
@[simp] theorem setDom_threads : (s.setDom d v).threads = s.threads := rfl
@[simp] theorem setDom_cores : (s.setDom d v).cores = s.cores := rfl
@[simp] theorem setDom_lags : (s.setDom d v).lags = s.lags := rfl
@[simp] theorem setDom_posted : (s.setDom d v).posted = s.posted := rfl
@[simp] theorem setDom_bitOld : (s.setDom d v).bitOld = s.bitOld := rfl
@[simp] theorem setDom_portOld : (s.setDom d v).portOld = s.portOld := rfl
@[simp] theorem setDom_locks : (s.setDom d v).locks = s.locks := rfl
@[simp] theorem setDom_flags : (s.setDom d v).flags = s.flags := rfl
@[simp] theorem setDom_chans : (s.setDom d v).chans = s.chans := rfl
@[simp] theorem setDom_dlDone : (s.setDom d v).dlDone = s.dlDone := rfl
@[simp] theorem setDom_movers : (s.setDom d v).movers = s.movers := rfl
@[simp] theorem setDom_commons : (s.setDom d v).commons = s.commons := rfl
@[simp] theorem setDom_timers : (s.setDom d v).timers = s.timers := rfl
@[simp] theorem setDom_psqs : (s.setDom d v).psqs = s.psqs := rfl
@[simp] theorem setDom_lanes : (s.setDom d v).lanes = s.lanes := rfl
@[simp] theorem setDom_pins : (s.setDom d v).pins = s.pins := rfl
@[simp] theorem setDom_ports : (s.setDom d v).ports = s.ports := rfl
@[simp] theorem setDom_tdrPin : (s.setDom d v).tdrPin = s.tdrPin := rfl
@[simp] theorem setDom_mbus : (s.setDom d v).mbus = s.mbus := rfl
@[simp] theorem setDom_heads : (s.setDom d v).heads = s.heads := rfl
@[simp] theorem setDom_gleaner : (s.setDom d v).gleaner = s.gleaner := rfl
@[simp] theorem setDom_reports : (s.setDom d v).reports = s.reports := rfl
@[simp] theorem setDom_log : (s.setDom d v).log = s.log := rfl
@[simp] theorem setDom_seq : (s.setDom d v).seq = s.seq := rfl
@[simp] theorem setDom_orders : (s.setDom d v).orders = s.orders := rfl
@[simp] theorem setDom_ordered : (s.setDom d v).ordered = s.ordered := rfl
@[simp] theorem setDom_holdReq : (s.setDom d v).holdReq = s.holdReq := rfl
@[simp] theorem setDom_supply : (s.setDom d v).supply = s.supply := rfl
@[simp] theorem setDom_latch : (s.setDom d v).latch = s.latch := rfl
@[simp] theorem setDom_stage : (s.setDom d v).stage = s.stage := rfl
@[simp] theorem setDom_rdata : (s.setDom d v).rdata = s.rdata := rfl
@[simp] theorem setDom_half : (s.setDom d v).half = s.half := rfl
@[simp] theorem setDom_pending : (s.setDom d v).pending = s.pending := rfl
end
theorem setDom_dom (d x : Nat) (v : Dom) : (s.setDom d v).dom x = if x = d then v else s.dom x := get_put _ _ _ _

/-! ### setMover -/

section
variable (m : Nat) (v : Mover)
@[simp] theorem setMover_cycle : (s.setMover m v).cycle = s.cycle := rfl
@[simp] theorem setMover_sptr : (s.setMover m v).sptr = s.sptr := rfl
@[simp] theorem setMover_mode : (s.setMover m v).mode = s.mode := rfl
@[simp] theorem setMover_off : (s.setMover m v).off = s.off := rfl
@[simp] theorem setMover_pend : (s.setMover m v).pend = s.pend := rfl
@[simp] theorem setMover_pendCyc : (s.setMover m v).pendCyc = s.pendCyc := rfl
@[simp] theorem setMover_heldFrom : (s.setMover m v).heldFrom = s.heldFrom := rfl
@[simp] theorem setMover_holdSrc : (s.setMover m v).holdSrc = s.holdSrc := rfl
@[simp] theorem setMover_settled : (s.setMover m v).settled = s.settled := rfl
@[simp] theorem setMover_regs : (s.setMover m v).regs = s.regs := rfl
@[simp] theorem setMover_held : (s.setMover m v).held = s.held := rfl
@[simp] theorem setMover_ram : (s.setMover m v).ram = s.ram := rfl
@[simp] theorem setMover_chip : (s.setMover m v).chip = s.chip := rfl
@[simp] theorem setMover_ecc : (s.setMover m v).ecc = s.ecc := rfl
@[simp] theorem setMover_scrubs : (s.setMover m v).scrubs = s.scrubs := rfl
@[simp] theorem setMover_ver : (s.setMover m v).ver = s.ver := rfl
@[simp] theorem setMover_claims : (s.setMover m v).claims = s.claims := rfl
@[simp] theorem setMover_side : (s.setMover m v).side = s.side := rfl
@[simp] theorem setMover_ctxs : (s.setMover m v).ctxs = s.ctxs := rfl
@[simp] theorem setMover_commits : (s.setMover m v).commits = s.commits := rfl
@[simp] theorem setMover_threads : (s.setMover m v).threads = s.threads := rfl
@[simp] theorem setMover_cores : (s.setMover m v).cores = s.cores := rfl
@[simp] theorem setMover_lags : (s.setMover m v).lags = s.lags := rfl
@[simp] theorem setMover_posted : (s.setMover m v).posted = s.posted := rfl
@[simp] theorem setMover_bitOld : (s.setMover m v).bitOld = s.bitOld := rfl
@[simp] theorem setMover_portOld : (s.setMover m v).portOld = s.portOld := rfl
@[simp] theorem setMover_locks : (s.setMover m v).locks = s.locks := rfl
@[simp] theorem setMover_flags : (s.setMover m v).flags = s.flags := rfl
@[simp] theorem setMover_chans : (s.setMover m v).chans = s.chans := rfl
@[simp] theorem setMover_dlDone : (s.setMover m v).dlDone = s.dlDone := rfl
@[simp] theorem setMover_doms : (s.setMover m v).doms = s.doms := rfl
@[simp] theorem setMover_commons : (s.setMover m v).commons = s.commons := rfl
@[simp] theorem setMover_timers : (s.setMover m v).timers = s.timers := rfl
@[simp] theorem setMover_psqs : (s.setMover m v).psqs = s.psqs := rfl
@[simp] theorem setMover_lanes : (s.setMover m v).lanes = s.lanes := rfl
@[simp] theorem setMover_pins : (s.setMover m v).pins = s.pins := rfl
@[simp] theorem setMover_ports : (s.setMover m v).ports = s.ports := rfl
@[simp] theorem setMover_tdrPin : (s.setMover m v).tdrPin = s.tdrPin := rfl
@[simp] theorem setMover_mbus : (s.setMover m v).mbus = s.mbus := rfl
@[simp] theorem setMover_heads : (s.setMover m v).heads = s.heads := rfl
@[simp] theorem setMover_gleaner : (s.setMover m v).gleaner = s.gleaner := rfl
@[simp] theorem setMover_reports : (s.setMover m v).reports = s.reports := rfl
@[simp] theorem setMover_log : (s.setMover m v).log = s.log := rfl
@[simp] theorem setMover_seq : (s.setMover m v).seq = s.seq := rfl
@[simp] theorem setMover_orders : (s.setMover m v).orders = s.orders := rfl
@[simp] theorem setMover_ordered : (s.setMover m v).ordered = s.ordered := rfl
@[simp] theorem setMover_holdReq : (s.setMover m v).holdReq = s.holdReq := rfl
@[simp] theorem setMover_supply : (s.setMover m v).supply = s.supply := rfl
@[simp] theorem setMover_latch : (s.setMover m v).latch = s.latch := rfl
@[simp] theorem setMover_stage : (s.setMover m v).stage = s.stage := rfl
@[simp] theorem setMover_rdata : (s.setMover m v).rdata = s.rdata := rfl
@[simp] theorem setMover_half : (s.setMover m v).half = s.half := rfl
@[simp] theorem setMover_pending : (s.setMover m v).pending = s.pending := rfl
end
theorem setMover_mover (m x : Nat) (v : Mover) : (s.setMover m v).mover x = if x = m then v else s.mover x := get_put _ _ _ _

/-! ### setTimer -/

section
variable (ch : Nat) (v : Timer)
@[simp] theorem setTimer_cycle : (s.setTimer ch v).cycle = s.cycle := rfl
@[simp] theorem setTimer_sptr : (s.setTimer ch v).sptr = s.sptr := rfl
@[simp] theorem setTimer_mode : (s.setTimer ch v).mode = s.mode := rfl
@[simp] theorem setTimer_off : (s.setTimer ch v).off = s.off := rfl
@[simp] theorem setTimer_pend : (s.setTimer ch v).pend = s.pend := rfl
@[simp] theorem setTimer_pendCyc : (s.setTimer ch v).pendCyc = s.pendCyc := rfl
@[simp] theorem setTimer_heldFrom : (s.setTimer ch v).heldFrom = s.heldFrom := rfl
@[simp] theorem setTimer_holdSrc : (s.setTimer ch v).holdSrc = s.holdSrc := rfl
@[simp] theorem setTimer_settled : (s.setTimer ch v).settled = s.settled := rfl
@[simp] theorem setTimer_regs : (s.setTimer ch v).regs = s.regs := rfl
@[simp] theorem setTimer_held : (s.setTimer ch v).held = s.held := rfl
@[simp] theorem setTimer_ram : (s.setTimer ch v).ram = s.ram := rfl
@[simp] theorem setTimer_chip : (s.setTimer ch v).chip = s.chip := rfl
@[simp] theorem setTimer_ecc : (s.setTimer ch v).ecc = s.ecc := rfl
@[simp] theorem setTimer_scrubs : (s.setTimer ch v).scrubs = s.scrubs := rfl
@[simp] theorem setTimer_ver : (s.setTimer ch v).ver = s.ver := rfl
@[simp] theorem setTimer_claims : (s.setTimer ch v).claims = s.claims := rfl
@[simp] theorem setTimer_side : (s.setTimer ch v).side = s.side := rfl
@[simp] theorem setTimer_ctxs : (s.setTimer ch v).ctxs = s.ctxs := rfl
@[simp] theorem setTimer_commits : (s.setTimer ch v).commits = s.commits := rfl
@[simp] theorem setTimer_threads : (s.setTimer ch v).threads = s.threads := rfl
@[simp] theorem setTimer_cores : (s.setTimer ch v).cores = s.cores := rfl
@[simp] theorem setTimer_lags : (s.setTimer ch v).lags = s.lags := rfl
@[simp] theorem setTimer_posted : (s.setTimer ch v).posted = s.posted := rfl
@[simp] theorem setTimer_bitOld : (s.setTimer ch v).bitOld = s.bitOld := rfl
@[simp] theorem setTimer_portOld : (s.setTimer ch v).portOld = s.portOld := rfl
@[simp] theorem setTimer_locks : (s.setTimer ch v).locks = s.locks := rfl
@[simp] theorem setTimer_flags : (s.setTimer ch v).flags = s.flags := rfl
@[simp] theorem setTimer_chans : (s.setTimer ch v).chans = s.chans := rfl
@[simp] theorem setTimer_dlDone : (s.setTimer ch v).dlDone = s.dlDone := rfl
@[simp] theorem setTimer_doms : (s.setTimer ch v).doms = s.doms := rfl
@[simp] theorem setTimer_movers : (s.setTimer ch v).movers = s.movers := rfl
@[simp] theorem setTimer_commons : (s.setTimer ch v).commons = s.commons := rfl
@[simp] theorem setTimer_psqs : (s.setTimer ch v).psqs = s.psqs := rfl
@[simp] theorem setTimer_lanes : (s.setTimer ch v).lanes = s.lanes := rfl
@[simp] theorem setTimer_pins : (s.setTimer ch v).pins = s.pins := rfl
@[simp] theorem setTimer_ports : (s.setTimer ch v).ports = s.ports := rfl
@[simp] theorem setTimer_tdrPin : (s.setTimer ch v).tdrPin = s.tdrPin := rfl
@[simp] theorem setTimer_mbus : (s.setTimer ch v).mbus = s.mbus := rfl
@[simp] theorem setTimer_heads : (s.setTimer ch v).heads = s.heads := rfl
@[simp] theorem setTimer_gleaner : (s.setTimer ch v).gleaner = s.gleaner := rfl
@[simp] theorem setTimer_reports : (s.setTimer ch v).reports = s.reports := rfl
@[simp] theorem setTimer_log : (s.setTimer ch v).log = s.log := rfl
@[simp] theorem setTimer_seq : (s.setTimer ch v).seq = s.seq := rfl
@[simp] theorem setTimer_orders : (s.setTimer ch v).orders = s.orders := rfl
@[simp] theorem setTimer_ordered : (s.setTimer ch v).ordered = s.ordered := rfl
@[simp] theorem setTimer_holdReq : (s.setTimer ch v).holdReq = s.holdReq := rfl
@[simp] theorem setTimer_supply : (s.setTimer ch v).supply = s.supply := rfl
@[simp] theorem setTimer_latch : (s.setTimer ch v).latch = s.latch := rfl
@[simp] theorem setTimer_stage : (s.setTimer ch v).stage = s.stage := rfl
@[simp] theorem setTimer_rdata : (s.setTimer ch v).rdata = s.rdata := rfl
@[simp] theorem setTimer_half : (s.setTimer ch v).half = s.half := rfl
@[simp] theorem setTimer_pending : (s.setTimer ch v).pending = s.pending := rfl
end
theorem setTimer_timer (ch x : Nat) (v : Timer) : (s.setTimer ch v).timer x = if x = ch then v else s.timer x := get_put _ _ _ _

/-! ### setPsq -/

section
variable (q : Nat) (v : Psq)
@[simp] theorem setPsq_cycle : (s.setPsq q v).cycle = s.cycle := rfl
@[simp] theorem setPsq_sptr : (s.setPsq q v).sptr = s.sptr := rfl
@[simp] theorem setPsq_mode : (s.setPsq q v).mode = s.mode := rfl
@[simp] theorem setPsq_off : (s.setPsq q v).off = s.off := rfl
@[simp] theorem setPsq_pend : (s.setPsq q v).pend = s.pend := rfl
@[simp] theorem setPsq_pendCyc : (s.setPsq q v).pendCyc = s.pendCyc := rfl
@[simp] theorem setPsq_heldFrom : (s.setPsq q v).heldFrom = s.heldFrom := rfl
@[simp] theorem setPsq_holdSrc : (s.setPsq q v).holdSrc = s.holdSrc := rfl
@[simp] theorem setPsq_settled : (s.setPsq q v).settled = s.settled := rfl
@[simp] theorem setPsq_regs : (s.setPsq q v).regs = s.regs := rfl
@[simp] theorem setPsq_held : (s.setPsq q v).held = s.held := rfl
@[simp] theorem setPsq_ram : (s.setPsq q v).ram = s.ram := rfl
@[simp] theorem setPsq_chip : (s.setPsq q v).chip = s.chip := rfl
@[simp] theorem setPsq_ecc : (s.setPsq q v).ecc = s.ecc := rfl
@[simp] theorem setPsq_scrubs : (s.setPsq q v).scrubs = s.scrubs := rfl
@[simp] theorem setPsq_ver : (s.setPsq q v).ver = s.ver := rfl
@[simp] theorem setPsq_claims : (s.setPsq q v).claims = s.claims := rfl
@[simp] theorem setPsq_side : (s.setPsq q v).side = s.side := rfl
@[simp] theorem setPsq_ctxs : (s.setPsq q v).ctxs = s.ctxs := rfl
@[simp] theorem setPsq_commits : (s.setPsq q v).commits = s.commits := rfl
@[simp] theorem setPsq_threads : (s.setPsq q v).threads = s.threads := rfl
@[simp] theorem setPsq_cores : (s.setPsq q v).cores = s.cores := rfl
@[simp] theorem setPsq_lags : (s.setPsq q v).lags = s.lags := rfl
@[simp] theorem setPsq_posted : (s.setPsq q v).posted = s.posted := rfl
@[simp] theorem setPsq_bitOld : (s.setPsq q v).bitOld = s.bitOld := rfl
@[simp] theorem setPsq_portOld : (s.setPsq q v).portOld = s.portOld := rfl
@[simp] theorem setPsq_locks : (s.setPsq q v).locks = s.locks := rfl
@[simp] theorem setPsq_flags : (s.setPsq q v).flags = s.flags := rfl
@[simp] theorem setPsq_chans : (s.setPsq q v).chans = s.chans := rfl
@[simp] theorem setPsq_dlDone : (s.setPsq q v).dlDone = s.dlDone := rfl
@[simp] theorem setPsq_doms : (s.setPsq q v).doms = s.doms := rfl
@[simp] theorem setPsq_movers : (s.setPsq q v).movers = s.movers := rfl
@[simp] theorem setPsq_commons : (s.setPsq q v).commons = s.commons := rfl
@[simp] theorem setPsq_timers : (s.setPsq q v).timers = s.timers := rfl
@[simp] theorem setPsq_lanes : (s.setPsq q v).lanes = s.lanes := rfl
@[simp] theorem setPsq_pins : (s.setPsq q v).pins = s.pins := rfl
@[simp] theorem setPsq_ports : (s.setPsq q v).ports = s.ports := rfl
@[simp] theorem setPsq_tdrPin : (s.setPsq q v).tdrPin = s.tdrPin := rfl
@[simp] theorem setPsq_mbus : (s.setPsq q v).mbus = s.mbus := rfl
@[simp] theorem setPsq_heads : (s.setPsq q v).heads = s.heads := rfl
@[simp] theorem setPsq_gleaner : (s.setPsq q v).gleaner = s.gleaner := rfl
@[simp] theorem setPsq_reports : (s.setPsq q v).reports = s.reports := rfl
@[simp] theorem setPsq_log : (s.setPsq q v).log = s.log := rfl
@[simp] theorem setPsq_seq : (s.setPsq q v).seq = s.seq := rfl
@[simp] theorem setPsq_orders : (s.setPsq q v).orders = s.orders := rfl
@[simp] theorem setPsq_ordered : (s.setPsq q v).ordered = s.ordered := rfl
@[simp] theorem setPsq_holdReq : (s.setPsq q v).holdReq = s.holdReq := rfl
@[simp] theorem setPsq_supply : (s.setPsq q v).supply = s.supply := rfl
@[simp] theorem setPsq_latch : (s.setPsq q v).latch = s.latch := rfl
@[simp] theorem setPsq_stage : (s.setPsq q v).stage = s.stage := rfl
@[simp] theorem setPsq_rdata : (s.setPsq q v).rdata = s.rdata := rfl
@[simp] theorem setPsq_half : (s.setPsq q v).half = s.half := rfl
@[simp] theorem setPsq_pending : (s.setPsq q v).pending = s.pending := rfl
end
theorem setPsq_psq (q x : Nat) (v : Psq) : (s.setPsq q v).psq x = if x = q then v else s.psq x := get_put _ _ _ _

/-! ### setLane -/

section
variable (q l : Nat) (v : Lane)
@[simp] theorem setLane_cycle : (s.setLane q l v).cycle = s.cycle := rfl
@[simp] theorem setLane_sptr : (s.setLane q l v).sptr = s.sptr := rfl
@[simp] theorem setLane_mode : (s.setLane q l v).mode = s.mode := rfl
@[simp] theorem setLane_off : (s.setLane q l v).off = s.off := rfl
@[simp] theorem setLane_pend : (s.setLane q l v).pend = s.pend := rfl
@[simp] theorem setLane_pendCyc : (s.setLane q l v).pendCyc = s.pendCyc := rfl
@[simp] theorem setLane_heldFrom : (s.setLane q l v).heldFrom = s.heldFrom := rfl
@[simp] theorem setLane_holdSrc : (s.setLane q l v).holdSrc = s.holdSrc := rfl
@[simp] theorem setLane_settled : (s.setLane q l v).settled = s.settled := rfl
@[simp] theorem setLane_regs : (s.setLane q l v).regs = s.regs := rfl
@[simp] theorem setLane_held : (s.setLane q l v).held = s.held := rfl
@[simp] theorem setLane_ram : (s.setLane q l v).ram = s.ram := rfl
@[simp] theorem setLane_chip : (s.setLane q l v).chip = s.chip := rfl
@[simp] theorem setLane_ecc : (s.setLane q l v).ecc = s.ecc := rfl
@[simp] theorem setLane_scrubs : (s.setLane q l v).scrubs = s.scrubs := rfl
@[simp] theorem setLane_ver : (s.setLane q l v).ver = s.ver := rfl
@[simp] theorem setLane_claims : (s.setLane q l v).claims = s.claims := rfl
@[simp] theorem setLane_side : (s.setLane q l v).side = s.side := rfl
@[simp] theorem setLane_ctxs : (s.setLane q l v).ctxs = s.ctxs := rfl
@[simp] theorem setLane_commits : (s.setLane q l v).commits = s.commits := rfl
@[simp] theorem setLane_threads : (s.setLane q l v).threads = s.threads := rfl
@[simp] theorem setLane_cores : (s.setLane q l v).cores = s.cores := rfl
@[simp] theorem setLane_lags : (s.setLane q l v).lags = s.lags := rfl
@[simp] theorem setLane_posted : (s.setLane q l v).posted = s.posted := rfl
@[simp] theorem setLane_bitOld : (s.setLane q l v).bitOld = s.bitOld := rfl
@[simp] theorem setLane_portOld : (s.setLane q l v).portOld = s.portOld := rfl
@[simp] theorem setLane_locks : (s.setLane q l v).locks = s.locks := rfl
@[simp] theorem setLane_flags : (s.setLane q l v).flags = s.flags := rfl
@[simp] theorem setLane_chans : (s.setLane q l v).chans = s.chans := rfl
@[simp] theorem setLane_dlDone : (s.setLane q l v).dlDone = s.dlDone := rfl
@[simp] theorem setLane_doms : (s.setLane q l v).doms = s.doms := rfl
@[simp] theorem setLane_movers : (s.setLane q l v).movers = s.movers := rfl
@[simp] theorem setLane_commons : (s.setLane q l v).commons = s.commons := rfl
@[simp] theorem setLane_timers : (s.setLane q l v).timers = s.timers := rfl
@[simp] theorem setLane_psqs : (s.setLane q l v).psqs = s.psqs := rfl
@[simp] theorem setLane_pins : (s.setLane q l v).pins = s.pins := rfl
@[simp] theorem setLane_ports : (s.setLane q l v).ports = s.ports := rfl
@[simp] theorem setLane_tdrPin : (s.setLane q l v).tdrPin = s.tdrPin := rfl
@[simp] theorem setLane_mbus : (s.setLane q l v).mbus = s.mbus := rfl
@[simp] theorem setLane_heads : (s.setLane q l v).heads = s.heads := rfl
@[simp] theorem setLane_gleaner : (s.setLane q l v).gleaner = s.gleaner := rfl
@[simp] theorem setLane_reports : (s.setLane q l v).reports = s.reports := rfl
@[simp] theorem setLane_log : (s.setLane q l v).log = s.log := rfl
@[simp] theorem setLane_seq : (s.setLane q l v).seq = s.seq := rfl
@[simp] theorem setLane_orders : (s.setLane q l v).orders = s.orders := rfl
@[simp] theorem setLane_ordered : (s.setLane q l v).ordered = s.ordered := rfl
@[simp] theorem setLane_holdReq : (s.setLane q l v).holdReq = s.holdReq := rfl
@[simp] theorem setLane_supply : (s.setLane q l v).supply = s.supply := rfl
@[simp] theorem setLane_latch : (s.setLane q l v).latch = s.latch := rfl
@[simp] theorem setLane_stage : (s.setLane q l v).stage = s.stage := rfl
@[simp] theorem setLane_rdata : (s.setLane q l v).rdata = s.rdata := rfl
@[simp] theorem setLane_half : (s.setLane q l v).half = s.half := rfl
@[simp] theorem setLane_pending : (s.setLane q l v).pending = s.pending := rfl
end
theorem setLane_lane (q l r m : Nat) (v : Lane) : (s.setLane q l v).lane r m = if 8 * r + m = 8 * q + l then v else s.lane r m := get_put _ _ _ _

/-! ### setPin -/

section
variable (p : Nat) (v : Pin)
@[simp] theorem setPin_cycle : (s.setPin p v).cycle = s.cycle := rfl
@[simp] theorem setPin_sptr : (s.setPin p v).sptr = s.sptr := rfl
@[simp] theorem setPin_mode : (s.setPin p v).mode = s.mode := rfl
@[simp] theorem setPin_off : (s.setPin p v).off = s.off := rfl
@[simp] theorem setPin_pend : (s.setPin p v).pend = s.pend := rfl
@[simp] theorem setPin_pendCyc : (s.setPin p v).pendCyc = s.pendCyc := rfl
@[simp] theorem setPin_heldFrom : (s.setPin p v).heldFrom = s.heldFrom := rfl
@[simp] theorem setPin_holdSrc : (s.setPin p v).holdSrc = s.holdSrc := rfl
@[simp] theorem setPin_settled : (s.setPin p v).settled = s.settled := rfl
@[simp] theorem setPin_regs : (s.setPin p v).regs = s.regs := rfl
@[simp] theorem setPin_held : (s.setPin p v).held = s.held := rfl
@[simp] theorem setPin_ram : (s.setPin p v).ram = s.ram := rfl
@[simp] theorem setPin_chip : (s.setPin p v).chip = s.chip := rfl
@[simp] theorem setPin_ecc : (s.setPin p v).ecc = s.ecc := rfl
@[simp] theorem setPin_scrubs : (s.setPin p v).scrubs = s.scrubs := rfl
@[simp] theorem setPin_ver : (s.setPin p v).ver = s.ver := rfl
@[simp] theorem setPin_claims : (s.setPin p v).claims = s.claims := rfl
@[simp] theorem setPin_side : (s.setPin p v).side = s.side := rfl
@[simp] theorem setPin_ctxs : (s.setPin p v).ctxs = s.ctxs := rfl
@[simp] theorem setPin_commits : (s.setPin p v).commits = s.commits := rfl
@[simp] theorem setPin_threads : (s.setPin p v).threads = s.threads := rfl
@[simp] theorem setPin_cores : (s.setPin p v).cores = s.cores := rfl
@[simp] theorem setPin_lags : (s.setPin p v).lags = s.lags := rfl
@[simp] theorem setPin_posted : (s.setPin p v).posted = s.posted := rfl
@[simp] theorem setPin_bitOld : (s.setPin p v).bitOld = s.bitOld := rfl
@[simp] theorem setPin_portOld : (s.setPin p v).portOld = s.portOld := rfl
@[simp] theorem setPin_locks : (s.setPin p v).locks = s.locks := rfl
@[simp] theorem setPin_flags : (s.setPin p v).flags = s.flags := rfl
@[simp] theorem setPin_chans : (s.setPin p v).chans = s.chans := rfl
@[simp] theorem setPin_dlDone : (s.setPin p v).dlDone = s.dlDone := rfl
@[simp] theorem setPin_doms : (s.setPin p v).doms = s.doms := rfl
@[simp] theorem setPin_movers : (s.setPin p v).movers = s.movers := rfl
@[simp] theorem setPin_commons : (s.setPin p v).commons = s.commons := rfl
@[simp] theorem setPin_timers : (s.setPin p v).timers = s.timers := rfl
@[simp] theorem setPin_psqs : (s.setPin p v).psqs = s.psqs := rfl
@[simp] theorem setPin_lanes : (s.setPin p v).lanes = s.lanes := rfl
@[simp] theorem setPin_ports : (s.setPin p v).ports = s.ports := rfl
@[simp] theorem setPin_tdrPin : (s.setPin p v).tdrPin = s.tdrPin := rfl
@[simp] theorem setPin_mbus : (s.setPin p v).mbus = s.mbus := rfl
@[simp] theorem setPin_heads : (s.setPin p v).heads = s.heads := rfl
@[simp] theorem setPin_gleaner : (s.setPin p v).gleaner = s.gleaner := rfl
@[simp] theorem setPin_reports : (s.setPin p v).reports = s.reports := rfl
@[simp] theorem setPin_log : (s.setPin p v).log = s.log := rfl
@[simp] theorem setPin_seq : (s.setPin p v).seq = s.seq := rfl
@[simp] theorem setPin_orders : (s.setPin p v).orders = s.orders := rfl
@[simp] theorem setPin_ordered : (s.setPin p v).ordered = s.ordered := rfl
@[simp] theorem setPin_holdReq : (s.setPin p v).holdReq = s.holdReq := rfl
@[simp] theorem setPin_supply : (s.setPin p v).supply = s.supply := rfl
@[simp] theorem setPin_latch : (s.setPin p v).latch = s.latch := rfl
@[simp] theorem setPin_stage : (s.setPin p v).stage = s.stage := rfl
@[simp] theorem setPin_rdata : (s.setPin p v).rdata = s.rdata := rfl
@[simp] theorem setPin_half : (s.setPin p v).half = s.half := rfl
@[simp] theorem setPin_pending : (s.setPin p v).pending = s.pending := rfl
end
theorem setPin_pin (p x : Nat) (v : Pin) : (s.setPin p v).pin x = if x = p then v else s.pin x := get_put _ _ _ _

/-! ### setPort -/

section
variable (n p : Nat) (b : Bool)
@[simp] theorem setPort_cycle : (s.setPort n p b).cycle = s.cycle := rfl
@[simp] theorem setPort_sptr : (s.setPort n p b).sptr = s.sptr := rfl
@[simp] theorem setPort_mode : (s.setPort n p b).mode = s.mode := rfl
@[simp] theorem setPort_off : (s.setPort n p b).off = s.off := rfl
@[simp] theorem setPort_pend : (s.setPort n p b).pend = s.pend := rfl
@[simp] theorem setPort_pendCyc : (s.setPort n p b).pendCyc = s.pendCyc := rfl
@[simp] theorem setPort_heldFrom : (s.setPort n p b).heldFrom = s.heldFrom := rfl
@[simp] theorem setPort_holdSrc : (s.setPort n p b).holdSrc = s.holdSrc := rfl
@[simp] theorem setPort_settled : (s.setPort n p b).settled = s.settled := rfl
@[simp] theorem setPort_regs : (s.setPort n p b).regs = s.regs := rfl
@[simp] theorem setPort_held : (s.setPort n p b).held = s.held := rfl
@[simp] theorem setPort_ram : (s.setPort n p b).ram = s.ram := rfl
@[simp] theorem setPort_chip : (s.setPort n p b).chip = s.chip := rfl
@[simp] theorem setPort_ecc : (s.setPort n p b).ecc = s.ecc := rfl
@[simp] theorem setPort_scrubs : (s.setPort n p b).scrubs = s.scrubs := rfl
@[simp] theorem setPort_ver : (s.setPort n p b).ver = s.ver := rfl
@[simp] theorem setPort_claims : (s.setPort n p b).claims = s.claims := rfl
@[simp] theorem setPort_side : (s.setPort n p b).side = s.side := rfl
@[simp] theorem setPort_ctxs : (s.setPort n p b).ctxs = s.ctxs := rfl
@[simp] theorem setPort_commits : (s.setPort n p b).commits = s.commits := rfl
@[simp] theorem setPort_threads : (s.setPort n p b).threads = s.threads := rfl
@[simp] theorem setPort_cores : (s.setPort n p b).cores = s.cores := rfl
@[simp] theorem setPort_lags : (s.setPort n p b).lags = s.lags := rfl
@[simp] theorem setPort_posted : (s.setPort n p b).posted = s.posted := rfl
@[simp] theorem setPort_bitOld : (s.setPort n p b).bitOld = s.bitOld := rfl
@[simp] theorem setPort_portOld : (s.setPort n p b).portOld = s.portOld := rfl
@[simp] theorem setPort_locks : (s.setPort n p b).locks = s.locks := rfl
@[simp] theorem setPort_flags : (s.setPort n p b).flags = s.flags := rfl
@[simp] theorem setPort_chans : (s.setPort n p b).chans = s.chans := rfl
@[simp] theorem setPort_dlDone : (s.setPort n p b).dlDone = s.dlDone := rfl
@[simp] theorem setPort_doms : (s.setPort n p b).doms = s.doms := rfl
@[simp] theorem setPort_movers : (s.setPort n p b).movers = s.movers := rfl
@[simp] theorem setPort_commons : (s.setPort n p b).commons = s.commons := rfl
@[simp] theorem setPort_timers : (s.setPort n p b).timers = s.timers := rfl
@[simp] theorem setPort_psqs : (s.setPort n p b).psqs = s.psqs := rfl
@[simp] theorem setPort_lanes : (s.setPort n p b).lanes = s.lanes := rfl
@[simp] theorem setPort_pins : (s.setPort n p b).pins = s.pins := rfl
@[simp] theorem setPort_tdrPin : (s.setPort n p b).tdrPin = s.tdrPin := rfl
@[simp] theorem setPort_mbus : (s.setPort n p b).mbus = s.mbus := rfl
@[simp] theorem setPort_heads : (s.setPort n p b).heads = s.heads := rfl
@[simp] theorem setPort_gleaner : (s.setPort n p b).gleaner = s.gleaner := rfl
@[simp] theorem setPort_reports : (s.setPort n p b).reports = s.reports := rfl
@[simp] theorem setPort_log : (s.setPort n p b).log = s.log := rfl
@[simp] theorem setPort_seq : (s.setPort n p b).seq = s.seq := rfl
@[simp] theorem setPort_orders : (s.setPort n p b).orders = s.orders := rfl
@[simp] theorem setPort_ordered : (s.setPort n p b).ordered = s.ordered := rfl
@[simp] theorem setPort_holdReq : (s.setPort n p b).holdReq = s.holdReq := rfl
@[simp] theorem setPort_supply : (s.setPort n p b).supply = s.supply := rfl
@[simp] theorem setPort_latch : (s.setPort n p b).latch = s.latch := rfl
@[simp] theorem setPort_stage : (s.setPort n p b).stage = s.stage := rfl
@[simp] theorem setPort_rdata : (s.setPort n p b).rdata = s.rdata := rfl
@[simp] theorem setPort_half : (s.setPort n p b).half = s.half := rfl
@[simp] theorem setPort_pending : (s.setPort n p b).pending = s.pending := rfl
end
theorem setPort_port (n p m x : Nat) (b : Bool) : (s.setPort n p b).port m x = if 256 * m + x = 256 * n + p then b else s.port m x := get_put _ _ _ _

/-! ### setMbu -/

section
variable (m : Nat) (v : Mbu)
@[simp] theorem setMbu_cycle : (s.setMbu m v).cycle = s.cycle := rfl
@[simp] theorem setMbu_sptr : (s.setMbu m v).sptr = s.sptr := rfl
@[simp] theorem setMbu_mode : (s.setMbu m v).mode = s.mode := rfl
@[simp] theorem setMbu_off : (s.setMbu m v).off = s.off := rfl
@[simp] theorem setMbu_pend : (s.setMbu m v).pend = s.pend := rfl
@[simp] theorem setMbu_pendCyc : (s.setMbu m v).pendCyc = s.pendCyc := rfl
@[simp] theorem setMbu_heldFrom : (s.setMbu m v).heldFrom = s.heldFrom := rfl
@[simp] theorem setMbu_holdSrc : (s.setMbu m v).holdSrc = s.holdSrc := rfl
@[simp] theorem setMbu_settled : (s.setMbu m v).settled = s.settled := rfl
@[simp] theorem setMbu_regs : (s.setMbu m v).regs = s.regs := rfl
@[simp] theorem setMbu_held : (s.setMbu m v).held = s.held := rfl
@[simp] theorem setMbu_ram : (s.setMbu m v).ram = s.ram := rfl
@[simp] theorem setMbu_chip : (s.setMbu m v).chip = s.chip := rfl
@[simp] theorem setMbu_ecc : (s.setMbu m v).ecc = s.ecc := rfl
@[simp] theorem setMbu_scrubs : (s.setMbu m v).scrubs = s.scrubs := rfl
@[simp] theorem setMbu_ver : (s.setMbu m v).ver = s.ver := rfl
@[simp] theorem setMbu_claims : (s.setMbu m v).claims = s.claims := rfl
@[simp] theorem setMbu_side : (s.setMbu m v).side = s.side := rfl
@[simp] theorem setMbu_ctxs : (s.setMbu m v).ctxs = s.ctxs := rfl
@[simp] theorem setMbu_commits : (s.setMbu m v).commits = s.commits := rfl
@[simp] theorem setMbu_threads : (s.setMbu m v).threads = s.threads := rfl
@[simp] theorem setMbu_cores : (s.setMbu m v).cores = s.cores := rfl
@[simp] theorem setMbu_lags : (s.setMbu m v).lags = s.lags := rfl
@[simp] theorem setMbu_posted : (s.setMbu m v).posted = s.posted := rfl
@[simp] theorem setMbu_bitOld : (s.setMbu m v).bitOld = s.bitOld := rfl
@[simp] theorem setMbu_portOld : (s.setMbu m v).portOld = s.portOld := rfl
@[simp] theorem setMbu_locks : (s.setMbu m v).locks = s.locks := rfl
@[simp] theorem setMbu_flags : (s.setMbu m v).flags = s.flags := rfl
@[simp] theorem setMbu_chans : (s.setMbu m v).chans = s.chans := rfl
@[simp] theorem setMbu_dlDone : (s.setMbu m v).dlDone = s.dlDone := rfl
@[simp] theorem setMbu_doms : (s.setMbu m v).doms = s.doms := rfl
@[simp] theorem setMbu_movers : (s.setMbu m v).movers = s.movers := rfl
@[simp] theorem setMbu_commons : (s.setMbu m v).commons = s.commons := rfl
@[simp] theorem setMbu_timers : (s.setMbu m v).timers = s.timers := rfl
@[simp] theorem setMbu_psqs : (s.setMbu m v).psqs = s.psqs := rfl
@[simp] theorem setMbu_lanes : (s.setMbu m v).lanes = s.lanes := rfl
@[simp] theorem setMbu_pins : (s.setMbu m v).pins = s.pins := rfl
@[simp] theorem setMbu_ports : (s.setMbu m v).ports = s.ports := rfl
@[simp] theorem setMbu_tdrPin : (s.setMbu m v).tdrPin = s.tdrPin := rfl
@[simp] theorem setMbu_heads : (s.setMbu m v).heads = s.heads := rfl
@[simp] theorem setMbu_gleaner : (s.setMbu m v).gleaner = s.gleaner := rfl
@[simp] theorem setMbu_reports : (s.setMbu m v).reports = s.reports := rfl
@[simp] theorem setMbu_log : (s.setMbu m v).log = s.log := rfl
@[simp] theorem setMbu_seq : (s.setMbu m v).seq = s.seq := rfl
@[simp] theorem setMbu_orders : (s.setMbu m v).orders = s.orders := rfl
@[simp] theorem setMbu_ordered : (s.setMbu m v).ordered = s.ordered := rfl
@[simp] theorem setMbu_holdReq : (s.setMbu m v).holdReq = s.holdReq := rfl
@[simp] theorem setMbu_supply : (s.setMbu m v).supply = s.supply := rfl
@[simp] theorem setMbu_latch : (s.setMbu m v).latch = s.latch := rfl
@[simp] theorem setMbu_stage : (s.setMbu m v).stage = s.stage := rfl
@[simp] theorem setMbu_rdata : (s.setMbu m v).rdata = s.rdata := rfl
@[simp] theorem setMbu_half : (s.setMbu m v).half = s.half := rfl
@[simp] theorem setMbu_pending : (s.setMbu m v).pending = s.pending := rfl
end
theorem setMbu_mbu (m x : Nat) (v : Mbu) : (s.setMbu m v).mbu x = if x = m then v else s.mbu x := get_put _ _ _ _

/-! ### setHead -/

section
variable (m j : Nat) (v : Option FqHead)
@[simp] theorem setHead_cycle : (s.setHead m j v).cycle = s.cycle := rfl
@[simp] theorem setHead_sptr : (s.setHead m j v).sptr = s.sptr := rfl
@[simp] theorem setHead_mode : (s.setHead m j v).mode = s.mode := rfl
@[simp] theorem setHead_off : (s.setHead m j v).off = s.off := rfl
@[simp] theorem setHead_pend : (s.setHead m j v).pend = s.pend := rfl
@[simp] theorem setHead_pendCyc : (s.setHead m j v).pendCyc = s.pendCyc := rfl
@[simp] theorem setHead_heldFrom : (s.setHead m j v).heldFrom = s.heldFrom := rfl
@[simp] theorem setHead_holdSrc : (s.setHead m j v).holdSrc = s.holdSrc := rfl
@[simp] theorem setHead_settled : (s.setHead m j v).settled = s.settled := rfl
@[simp] theorem setHead_regs : (s.setHead m j v).regs = s.regs := rfl
@[simp] theorem setHead_held : (s.setHead m j v).held = s.held := rfl
@[simp] theorem setHead_ram : (s.setHead m j v).ram = s.ram := rfl
@[simp] theorem setHead_chip : (s.setHead m j v).chip = s.chip := rfl
@[simp] theorem setHead_ecc : (s.setHead m j v).ecc = s.ecc := rfl
@[simp] theorem setHead_scrubs : (s.setHead m j v).scrubs = s.scrubs := rfl
@[simp] theorem setHead_ver : (s.setHead m j v).ver = s.ver := rfl
@[simp] theorem setHead_claims : (s.setHead m j v).claims = s.claims := rfl
@[simp] theorem setHead_side : (s.setHead m j v).side = s.side := rfl
@[simp] theorem setHead_ctxs : (s.setHead m j v).ctxs = s.ctxs := rfl
@[simp] theorem setHead_commits : (s.setHead m j v).commits = s.commits := rfl
@[simp] theorem setHead_threads : (s.setHead m j v).threads = s.threads := rfl
@[simp] theorem setHead_cores : (s.setHead m j v).cores = s.cores := rfl
@[simp] theorem setHead_lags : (s.setHead m j v).lags = s.lags := rfl
@[simp] theorem setHead_posted : (s.setHead m j v).posted = s.posted := rfl
@[simp] theorem setHead_bitOld : (s.setHead m j v).bitOld = s.bitOld := rfl
@[simp] theorem setHead_portOld : (s.setHead m j v).portOld = s.portOld := rfl
@[simp] theorem setHead_locks : (s.setHead m j v).locks = s.locks := rfl
@[simp] theorem setHead_flags : (s.setHead m j v).flags = s.flags := rfl
@[simp] theorem setHead_chans : (s.setHead m j v).chans = s.chans := rfl
@[simp] theorem setHead_dlDone : (s.setHead m j v).dlDone = s.dlDone := rfl
@[simp] theorem setHead_doms : (s.setHead m j v).doms = s.doms := rfl
@[simp] theorem setHead_movers : (s.setHead m j v).movers = s.movers := rfl
@[simp] theorem setHead_commons : (s.setHead m j v).commons = s.commons := rfl
@[simp] theorem setHead_timers : (s.setHead m j v).timers = s.timers := rfl
@[simp] theorem setHead_psqs : (s.setHead m j v).psqs = s.psqs := rfl
@[simp] theorem setHead_lanes : (s.setHead m j v).lanes = s.lanes := rfl
@[simp] theorem setHead_pins : (s.setHead m j v).pins = s.pins := rfl
@[simp] theorem setHead_ports : (s.setHead m j v).ports = s.ports := rfl
@[simp] theorem setHead_tdrPin : (s.setHead m j v).tdrPin = s.tdrPin := rfl
@[simp] theorem setHead_mbus : (s.setHead m j v).mbus = s.mbus := rfl
@[simp] theorem setHead_gleaner : (s.setHead m j v).gleaner = s.gleaner := rfl
@[simp] theorem setHead_reports : (s.setHead m j v).reports = s.reports := rfl
@[simp] theorem setHead_log : (s.setHead m j v).log = s.log := rfl
@[simp] theorem setHead_seq : (s.setHead m j v).seq = s.seq := rfl
@[simp] theorem setHead_orders : (s.setHead m j v).orders = s.orders := rfl
@[simp] theorem setHead_ordered : (s.setHead m j v).ordered = s.ordered := rfl
@[simp] theorem setHead_holdReq : (s.setHead m j v).holdReq = s.holdReq := rfl
@[simp] theorem setHead_supply : (s.setHead m j v).supply = s.supply := rfl
@[simp] theorem setHead_latch : (s.setHead m j v).latch = s.latch := rfl
@[simp] theorem setHead_stage : (s.setHead m j v).stage = s.stage := rfl
@[simp] theorem setHead_rdata : (s.setHead m j v).rdata = s.rdata := rfl
@[simp] theorem setHead_half : (s.setHead m j v).half = s.half := rfl
@[simp] theorem setHead_pending : (s.setHead m j v).pending = s.pending := rfl
end
theorem setHead_head (m j n k : Nat) (v : Option FqHead) : (s.setHead m j v).head n k = if 64 * n + k = 64 * m + j then v else s.head n k := get_put _ _ _ _

/-! ### setSup -/

section
variable (r : Nat) (v : Supply)
@[simp] theorem setSup_cycle : (s.setSup r v).cycle = s.cycle := rfl
@[simp] theorem setSup_sptr : (s.setSup r v).sptr = s.sptr := rfl
@[simp] theorem setSup_mode : (s.setSup r v).mode = s.mode := rfl
@[simp] theorem setSup_off : (s.setSup r v).off = s.off := rfl
@[simp] theorem setSup_pend : (s.setSup r v).pend = s.pend := rfl
@[simp] theorem setSup_pendCyc : (s.setSup r v).pendCyc = s.pendCyc := rfl
@[simp] theorem setSup_heldFrom : (s.setSup r v).heldFrom = s.heldFrom := rfl
@[simp] theorem setSup_holdSrc : (s.setSup r v).holdSrc = s.holdSrc := rfl
@[simp] theorem setSup_settled : (s.setSup r v).settled = s.settled := rfl
@[simp] theorem setSup_regs : (s.setSup r v).regs = s.regs := rfl
@[simp] theorem setSup_held : (s.setSup r v).held = s.held := rfl
@[simp] theorem setSup_ram : (s.setSup r v).ram = s.ram := rfl
@[simp] theorem setSup_chip : (s.setSup r v).chip = s.chip := rfl
@[simp] theorem setSup_ecc : (s.setSup r v).ecc = s.ecc := rfl
@[simp] theorem setSup_scrubs : (s.setSup r v).scrubs = s.scrubs := rfl
@[simp] theorem setSup_ver : (s.setSup r v).ver = s.ver := rfl
@[simp] theorem setSup_claims : (s.setSup r v).claims = s.claims := rfl
@[simp] theorem setSup_side : (s.setSup r v).side = s.side := rfl
@[simp] theorem setSup_ctxs : (s.setSup r v).ctxs = s.ctxs := rfl
@[simp] theorem setSup_commits : (s.setSup r v).commits = s.commits := rfl
@[simp] theorem setSup_threads : (s.setSup r v).threads = s.threads := rfl
@[simp] theorem setSup_cores : (s.setSup r v).cores = s.cores := rfl
@[simp] theorem setSup_lags : (s.setSup r v).lags = s.lags := rfl
@[simp] theorem setSup_posted : (s.setSup r v).posted = s.posted := rfl
@[simp] theorem setSup_bitOld : (s.setSup r v).bitOld = s.bitOld := rfl
@[simp] theorem setSup_portOld : (s.setSup r v).portOld = s.portOld := rfl
@[simp] theorem setSup_locks : (s.setSup r v).locks = s.locks := rfl
@[simp] theorem setSup_flags : (s.setSup r v).flags = s.flags := rfl
@[simp] theorem setSup_chans : (s.setSup r v).chans = s.chans := rfl
@[simp] theorem setSup_dlDone : (s.setSup r v).dlDone = s.dlDone := rfl
@[simp] theorem setSup_doms : (s.setSup r v).doms = s.doms := rfl
@[simp] theorem setSup_movers : (s.setSup r v).movers = s.movers := rfl
@[simp] theorem setSup_commons : (s.setSup r v).commons = s.commons := rfl
@[simp] theorem setSup_timers : (s.setSup r v).timers = s.timers := rfl
@[simp] theorem setSup_psqs : (s.setSup r v).psqs = s.psqs := rfl
@[simp] theorem setSup_lanes : (s.setSup r v).lanes = s.lanes := rfl
@[simp] theorem setSup_pins : (s.setSup r v).pins = s.pins := rfl
@[simp] theorem setSup_ports : (s.setSup r v).ports = s.ports := rfl
@[simp] theorem setSup_tdrPin : (s.setSup r v).tdrPin = s.tdrPin := rfl
@[simp] theorem setSup_mbus : (s.setSup r v).mbus = s.mbus := rfl
@[simp] theorem setSup_heads : (s.setSup r v).heads = s.heads := rfl
@[simp] theorem setSup_gleaner : (s.setSup r v).gleaner = s.gleaner := rfl
@[simp] theorem setSup_reports : (s.setSup r v).reports = s.reports := rfl
@[simp] theorem setSup_log : (s.setSup r v).log = s.log := rfl
@[simp] theorem setSup_seq : (s.setSup r v).seq = s.seq := rfl
@[simp] theorem setSup_orders : (s.setSup r v).orders = s.orders := rfl
@[simp] theorem setSup_ordered : (s.setSup r v).ordered = s.ordered := rfl
@[simp] theorem setSup_holdReq : (s.setSup r v).holdReq = s.holdReq := rfl
@[simp] theorem setSup_latch : (s.setSup r v).latch = s.latch := rfl
@[simp] theorem setSup_stage : (s.setSup r v).stage = s.stage := rfl
@[simp] theorem setSup_rdata : (s.setSup r v).rdata = s.rdata := rfl
@[simp] theorem setSup_half : (s.setSup r v).half = s.half := rfl
@[simp] theorem setSup_pending : (s.setSup r v).pending = s.pending := rfl
end
theorem setSup_sup (r x : Nat) (v : Supply) : (s.setSup r v).sup x = if x = r then v else s.sup x := get_put _ _ _ _

/-! ### setLock -/

section
variable (k : Nat) (v : Option Nat)
@[simp] theorem setLock_cycle : (s.setLock k v).cycle = s.cycle := rfl
@[simp] theorem setLock_sptr : (s.setLock k v).sptr = s.sptr := rfl
@[simp] theorem setLock_mode : (s.setLock k v).mode = s.mode := rfl
@[simp] theorem setLock_off : (s.setLock k v).off = s.off := rfl
@[simp] theorem setLock_pend : (s.setLock k v).pend = s.pend := rfl
@[simp] theorem setLock_pendCyc : (s.setLock k v).pendCyc = s.pendCyc := rfl
@[simp] theorem setLock_heldFrom : (s.setLock k v).heldFrom = s.heldFrom := rfl
@[simp] theorem setLock_holdSrc : (s.setLock k v).holdSrc = s.holdSrc := rfl
@[simp] theorem setLock_settled : (s.setLock k v).settled = s.settled := rfl
@[simp] theorem setLock_regs : (s.setLock k v).regs = s.regs := rfl
@[simp] theorem setLock_held : (s.setLock k v).held = s.held := rfl
@[simp] theorem setLock_ram : (s.setLock k v).ram = s.ram := rfl
@[simp] theorem setLock_chip : (s.setLock k v).chip = s.chip := rfl
@[simp] theorem setLock_ecc : (s.setLock k v).ecc = s.ecc := rfl
@[simp] theorem setLock_scrubs : (s.setLock k v).scrubs = s.scrubs := rfl
@[simp] theorem setLock_ver : (s.setLock k v).ver = s.ver := rfl
@[simp] theorem setLock_claims : (s.setLock k v).claims = s.claims := rfl
@[simp] theorem setLock_side : (s.setLock k v).side = s.side := rfl
@[simp] theorem setLock_ctxs : (s.setLock k v).ctxs = s.ctxs := rfl
@[simp] theorem setLock_commits : (s.setLock k v).commits = s.commits := rfl
@[simp] theorem setLock_threads : (s.setLock k v).threads = s.threads := rfl
@[simp] theorem setLock_cores : (s.setLock k v).cores = s.cores := rfl
@[simp] theorem setLock_lags : (s.setLock k v).lags = s.lags := rfl
@[simp] theorem setLock_posted : (s.setLock k v).posted = s.posted := rfl
@[simp] theorem setLock_bitOld : (s.setLock k v).bitOld = s.bitOld := rfl
@[simp] theorem setLock_portOld : (s.setLock k v).portOld = s.portOld := rfl
@[simp] theorem setLock_flags : (s.setLock k v).flags = s.flags := rfl
@[simp] theorem setLock_chans : (s.setLock k v).chans = s.chans := rfl
@[simp] theorem setLock_dlDone : (s.setLock k v).dlDone = s.dlDone := rfl
@[simp] theorem setLock_doms : (s.setLock k v).doms = s.doms := rfl
@[simp] theorem setLock_movers : (s.setLock k v).movers = s.movers := rfl
@[simp] theorem setLock_commons : (s.setLock k v).commons = s.commons := rfl
@[simp] theorem setLock_timers : (s.setLock k v).timers = s.timers := rfl
@[simp] theorem setLock_psqs : (s.setLock k v).psqs = s.psqs := rfl
@[simp] theorem setLock_lanes : (s.setLock k v).lanes = s.lanes := rfl
@[simp] theorem setLock_pins : (s.setLock k v).pins = s.pins := rfl
@[simp] theorem setLock_ports : (s.setLock k v).ports = s.ports := rfl
@[simp] theorem setLock_tdrPin : (s.setLock k v).tdrPin = s.tdrPin := rfl
@[simp] theorem setLock_mbus : (s.setLock k v).mbus = s.mbus := rfl
@[simp] theorem setLock_heads : (s.setLock k v).heads = s.heads := rfl
@[simp] theorem setLock_gleaner : (s.setLock k v).gleaner = s.gleaner := rfl
@[simp] theorem setLock_reports : (s.setLock k v).reports = s.reports := rfl
@[simp] theorem setLock_log : (s.setLock k v).log = s.log := rfl
@[simp] theorem setLock_seq : (s.setLock k v).seq = s.seq := rfl
@[simp] theorem setLock_orders : (s.setLock k v).orders = s.orders := rfl
@[simp] theorem setLock_ordered : (s.setLock k v).ordered = s.ordered := rfl
@[simp] theorem setLock_holdReq : (s.setLock k v).holdReq = s.holdReq := rfl
@[simp] theorem setLock_supply : (s.setLock k v).supply = s.supply := rfl
@[simp] theorem setLock_latch : (s.setLock k v).latch = s.latch := rfl
@[simp] theorem setLock_stage : (s.setLock k v).stage = s.stage := rfl
@[simp] theorem setLock_rdata : (s.setLock k v).rdata = s.rdata := rfl
@[simp] theorem setLock_half : (s.setLock k v).half = s.half := rfl
@[simp] theorem setLock_pending : (s.setLock k v).pending = s.pending := rfl
end
theorem setLock_lock (k x : Nat) (v : Option Nat) : (s.setLock k v).lock x = if x = k then v else s.lock x := get_put _ _ _ _

/-! ### setChan -/

section
variable (k : Nat) (v : Chan)
@[simp] theorem setChan_cycle : (s.setChan k v).cycle = s.cycle := rfl
@[simp] theorem setChan_sptr : (s.setChan k v).sptr = s.sptr := rfl
@[simp] theorem setChan_mode : (s.setChan k v).mode = s.mode := rfl
@[simp] theorem setChan_off : (s.setChan k v).off = s.off := rfl
@[simp] theorem setChan_pend : (s.setChan k v).pend = s.pend := rfl
@[simp] theorem setChan_pendCyc : (s.setChan k v).pendCyc = s.pendCyc := rfl
@[simp] theorem setChan_heldFrom : (s.setChan k v).heldFrom = s.heldFrom := rfl
@[simp] theorem setChan_holdSrc : (s.setChan k v).holdSrc = s.holdSrc := rfl
@[simp] theorem setChan_settled : (s.setChan k v).settled = s.settled := rfl
@[simp] theorem setChan_regs : (s.setChan k v).regs = s.regs := rfl
@[simp] theorem setChan_held : (s.setChan k v).held = s.held := rfl
@[simp] theorem setChan_ram : (s.setChan k v).ram = s.ram := rfl
@[simp] theorem setChan_chip : (s.setChan k v).chip = s.chip := rfl
@[simp] theorem setChan_ecc : (s.setChan k v).ecc = s.ecc := rfl
@[simp] theorem setChan_scrubs : (s.setChan k v).scrubs = s.scrubs := rfl
@[simp] theorem setChan_ver : (s.setChan k v).ver = s.ver := rfl
@[simp] theorem setChan_claims : (s.setChan k v).claims = s.claims := rfl
@[simp] theorem setChan_side : (s.setChan k v).side = s.side := rfl
@[simp] theorem setChan_ctxs : (s.setChan k v).ctxs = s.ctxs := rfl
@[simp] theorem setChan_commits : (s.setChan k v).commits = s.commits := rfl
@[simp] theorem setChan_threads : (s.setChan k v).threads = s.threads := rfl
@[simp] theorem setChan_cores : (s.setChan k v).cores = s.cores := rfl
@[simp] theorem setChan_lags : (s.setChan k v).lags = s.lags := rfl
@[simp] theorem setChan_posted : (s.setChan k v).posted = s.posted := rfl
@[simp] theorem setChan_bitOld : (s.setChan k v).bitOld = s.bitOld := rfl
@[simp] theorem setChan_portOld : (s.setChan k v).portOld = s.portOld := rfl
@[simp] theorem setChan_locks : (s.setChan k v).locks = s.locks := rfl
@[simp] theorem setChan_flags : (s.setChan k v).flags = s.flags := rfl
@[simp] theorem setChan_dlDone : (s.setChan k v).dlDone = s.dlDone := rfl
@[simp] theorem setChan_doms : (s.setChan k v).doms = s.doms := rfl
@[simp] theorem setChan_movers : (s.setChan k v).movers = s.movers := rfl
@[simp] theorem setChan_commons : (s.setChan k v).commons = s.commons := rfl
@[simp] theorem setChan_timers : (s.setChan k v).timers = s.timers := rfl
@[simp] theorem setChan_psqs : (s.setChan k v).psqs = s.psqs := rfl
@[simp] theorem setChan_lanes : (s.setChan k v).lanes = s.lanes := rfl
@[simp] theorem setChan_pins : (s.setChan k v).pins = s.pins := rfl
@[simp] theorem setChan_ports : (s.setChan k v).ports = s.ports := rfl
@[simp] theorem setChan_tdrPin : (s.setChan k v).tdrPin = s.tdrPin := rfl
@[simp] theorem setChan_mbus : (s.setChan k v).mbus = s.mbus := rfl
@[simp] theorem setChan_heads : (s.setChan k v).heads = s.heads := rfl
@[simp] theorem setChan_gleaner : (s.setChan k v).gleaner = s.gleaner := rfl
@[simp] theorem setChan_reports : (s.setChan k v).reports = s.reports := rfl
@[simp] theorem setChan_log : (s.setChan k v).log = s.log := rfl
@[simp] theorem setChan_seq : (s.setChan k v).seq = s.seq := rfl
@[simp] theorem setChan_orders : (s.setChan k v).orders = s.orders := rfl
@[simp] theorem setChan_ordered : (s.setChan k v).ordered = s.ordered := rfl
@[simp] theorem setChan_holdReq : (s.setChan k v).holdReq = s.holdReq := rfl
@[simp] theorem setChan_supply : (s.setChan k v).supply = s.supply := rfl
@[simp] theorem setChan_latch : (s.setChan k v).latch = s.latch := rfl
@[simp] theorem setChan_stage : (s.setChan k v).stage = s.stage := rfl
@[simp] theorem setChan_rdata : (s.setChan k v).rdata = s.rdata := rfl
@[simp] theorem setChan_half : (s.setChan k v).half = s.half := rfl
@[simp] theorem setChan_pending : (s.setChan k v).pending = s.pending := rfl
end
theorem setChan_chan (k x : Nat) (v : Chan) : (s.setChan k v).chan x = if x = k then v else s.chan x := get_put _ _ _ _

/-! ### setLive -/

section
variable (l : Nat) (b : Bool)
@[simp] theorem setLive_cycle : (s.setLive l b).cycle = s.cycle := rfl
@[simp] theorem setLive_sptr : (s.setLive l b).sptr = s.sptr := rfl
@[simp] theorem setLive_mode : (s.setLive l b).mode = s.mode := rfl
@[simp] theorem setLive_off : (s.setLive l b).off = s.off := rfl
@[simp] theorem setLive_pend : (s.setLive l b).pend = s.pend := rfl
@[simp] theorem setLive_pendCyc : (s.setLive l b).pendCyc = s.pendCyc := rfl
@[simp] theorem setLive_heldFrom : (s.setLive l b).heldFrom = s.heldFrom := rfl
@[simp] theorem setLive_holdSrc : (s.setLive l b).holdSrc = s.holdSrc := rfl
@[simp] theorem setLive_settled : (s.setLive l b).settled = s.settled := rfl
@[simp] theorem setLive_regs : (s.setLive l b).regs = s.regs := rfl
@[simp] theorem setLive_held : (s.setLive l b).held = s.held := rfl
@[simp] theorem setLive_ram : (s.setLive l b).ram = s.ram := rfl
@[simp] theorem setLive_chip : (s.setLive l b).chip = s.chip := rfl
@[simp] theorem setLive_ecc : (s.setLive l b).ecc = s.ecc := rfl
@[simp] theorem setLive_scrubs : (s.setLive l b).scrubs = s.scrubs := rfl
@[simp] theorem setLive_claims : (s.setLive l b).claims = s.claims := rfl
@[simp] theorem setLive_side : (s.setLive l b).side = s.side := rfl
@[simp] theorem setLive_ctxs : (s.setLive l b).ctxs = s.ctxs := rfl
@[simp] theorem setLive_commits : (s.setLive l b).commits = s.commits := rfl
@[simp] theorem setLive_threads : (s.setLive l b).threads = s.threads := rfl
@[simp] theorem setLive_cores : (s.setLive l b).cores = s.cores := rfl
@[simp] theorem setLive_lags : (s.setLive l b).lags = s.lags := rfl
@[simp] theorem setLive_posted : (s.setLive l b).posted = s.posted := rfl
@[simp] theorem setLive_bitOld : (s.setLive l b).bitOld = s.bitOld := rfl
@[simp] theorem setLive_portOld : (s.setLive l b).portOld = s.portOld := rfl
@[simp] theorem setLive_locks : (s.setLive l b).locks = s.locks := rfl
@[simp] theorem setLive_flags : (s.setLive l b).flags = s.flags := rfl
@[simp] theorem setLive_chans : (s.setLive l b).chans = s.chans := rfl
@[simp] theorem setLive_dlDone : (s.setLive l b).dlDone = s.dlDone := rfl
@[simp] theorem setLive_doms : (s.setLive l b).doms = s.doms := rfl
@[simp] theorem setLive_movers : (s.setLive l b).movers = s.movers := rfl
@[simp] theorem setLive_commons : (s.setLive l b).commons = s.commons := rfl
@[simp] theorem setLive_timers : (s.setLive l b).timers = s.timers := rfl
@[simp] theorem setLive_psqs : (s.setLive l b).psqs = s.psqs := rfl
@[simp] theorem setLive_lanes : (s.setLive l b).lanes = s.lanes := rfl
@[simp] theorem setLive_pins : (s.setLive l b).pins = s.pins := rfl
@[simp] theorem setLive_ports : (s.setLive l b).ports = s.ports := rfl
@[simp] theorem setLive_tdrPin : (s.setLive l b).tdrPin = s.tdrPin := rfl
@[simp] theorem setLive_mbus : (s.setLive l b).mbus = s.mbus := rfl
@[simp] theorem setLive_heads : (s.setLive l b).heads = s.heads := rfl
@[simp] theorem setLive_gleaner : (s.setLive l b).gleaner = s.gleaner := rfl
@[simp] theorem setLive_reports : (s.setLive l b).reports = s.reports := rfl
@[simp] theorem setLive_log : (s.setLive l b).log = s.log := rfl
@[simp] theorem setLive_seq : (s.setLive l b).seq = s.seq := rfl
@[simp] theorem setLive_orders : (s.setLive l b).orders = s.orders := rfl
@[simp] theorem setLive_ordered : (s.setLive l b).ordered = s.ordered := rfl
@[simp] theorem setLive_holdReq : (s.setLive l b).holdReq = s.holdReq := rfl
@[simp] theorem setLive_supply : (s.setLive l b).supply = s.supply := rfl
@[simp] theorem setLive_latch : (s.setLive l b).latch = s.latch := rfl
@[simp] theorem setLive_stage : (s.setLive l b).stage = s.stage := rfl
@[simp] theorem setLive_rdata : (s.setLive l b).rdata = s.rdata := rfl
@[simp] theorem setLive_half : (s.setLive l b).half = s.half := rfl
@[simp] theorem setLive_pending : (s.setLive l b).pending = s.pending := rfl
end
theorem setLive_live (l x : Nat) (b : Bool) : (s.setLive l b).live x = if x = l then b else s.live x := get_put _ _ _ _

/-! ### setClaim -/

section
variable (l : Nat) (v : Option Nat)
@[simp] theorem setClaim_cycle : (s.setClaim l v).cycle = s.cycle := rfl
@[simp] theorem setClaim_sptr : (s.setClaim l v).sptr = s.sptr := rfl
@[simp] theorem setClaim_mode : (s.setClaim l v).mode = s.mode := rfl
@[simp] theorem setClaim_off : (s.setClaim l v).off = s.off := rfl
@[simp] theorem setClaim_pend : (s.setClaim l v).pend = s.pend := rfl
@[simp] theorem setClaim_pendCyc : (s.setClaim l v).pendCyc = s.pendCyc := rfl
@[simp] theorem setClaim_heldFrom : (s.setClaim l v).heldFrom = s.heldFrom := rfl
@[simp] theorem setClaim_holdSrc : (s.setClaim l v).holdSrc = s.holdSrc := rfl
@[simp] theorem setClaim_settled : (s.setClaim l v).settled = s.settled := rfl
@[simp] theorem setClaim_regs : (s.setClaim l v).regs = s.regs := rfl
@[simp] theorem setClaim_held : (s.setClaim l v).held = s.held := rfl
@[simp] theorem setClaim_ram : (s.setClaim l v).ram = s.ram := rfl
@[simp] theorem setClaim_chip : (s.setClaim l v).chip = s.chip := rfl
@[simp] theorem setClaim_ecc : (s.setClaim l v).ecc = s.ecc := rfl
@[simp] theorem setClaim_scrubs : (s.setClaim l v).scrubs = s.scrubs := rfl
@[simp] theorem setClaim_ver : (s.setClaim l v).ver = s.ver := rfl
@[simp] theorem setClaim_side : (s.setClaim l v).side = s.side := rfl
@[simp] theorem setClaim_ctxs : (s.setClaim l v).ctxs = s.ctxs := rfl
@[simp] theorem setClaim_commits : (s.setClaim l v).commits = s.commits := rfl
@[simp] theorem setClaim_threads : (s.setClaim l v).threads = s.threads := rfl
@[simp] theorem setClaim_cores : (s.setClaim l v).cores = s.cores := rfl
@[simp] theorem setClaim_lags : (s.setClaim l v).lags = s.lags := rfl
@[simp] theorem setClaim_posted : (s.setClaim l v).posted = s.posted := rfl
@[simp] theorem setClaim_bitOld : (s.setClaim l v).bitOld = s.bitOld := rfl
@[simp] theorem setClaim_portOld : (s.setClaim l v).portOld = s.portOld := rfl
@[simp] theorem setClaim_locks : (s.setClaim l v).locks = s.locks := rfl
@[simp] theorem setClaim_flags : (s.setClaim l v).flags = s.flags := rfl
@[simp] theorem setClaim_chans : (s.setClaim l v).chans = s.chans := rfl
@[simp] theorem setClaim_dlDone : (s.setClaim l v).dlDone = s.dlDone := rfl
@[simp] theorem setClaim_doms : (s.setClaim l v).doms = s.doms := rfl
@[simp] theorem setClaim_movers : (s.setClaim l v).movers = s.movers := rfl
@[simp] theorem setClaim_commons : (s.setClaim l v).commons = s.commons := rfl
@[simp] theorem setClaim_timers : (s.setClaim l v).timers = s.timers := rfl
@[simp] theorem setClaim_psqs : (s.setClaim l v).psqs = s.psqs := rfl
@[simp] theorem setClaim_lanes : (s.setClaim l v).lanes = s.lanes := rfl
@[simp] theorem setClaim_pins : (s.setClaim l v).pins = s.pins := rfl
@[simp] theorem setClaim_ports : (s.setClaim l v).ports = s.ports := rfl
@[simp] theorem setClaim_tdrPin : (s.setClaim l v).tdrPin = s.tdrPin := rfl
@[simp] theorem setClaim_mbus : (s.setClaim l v).mbus = s.mbus := rfl
@[simp] theorem setClaim_heads : (s.setClaim l v).heads = s.heads := rfl
@[simp] theorem setClaim_gleaner : (s.setClaim l v).gleaner = s.gleaner := rfl
@[simp] theorem setClaim_reports : (s.setClaim l v).reports = s.reports := rfl
@[simp] theorem setClaim_log : (s.setClaim l v).log = s.log := rfl
@[simp] theorem setClaim_seq : (s.setClaim l v).seq = s.seq := rfl
@[simp] theorem setClaim_orders : (s.setClaim l v).orders = s.orders := rfl
@[simp] theorem setClaim_ordered : (s.setClaim l v).ordered = s.ordered := rfl
@[simp] theorem setClaim_holdReq : (s.setClaim l v).holdReq = s.holdReq := rfl
@[simp] theorem setClaim_supply : (s.setClaim l v).supply = s.supply := rfl
@[simp] theorem setClaim_latch : (s.setClaim l v).latch = s.latch := rfl
@[simp] theorem setClaim_stage : (s.setClaim l v).stage = s.stage := rfl
@[simp] theorem setClaim_rdata : (s.setClaim l v).rdata = s.rdata := rfl
@[simp] theorem setClaim_half : (s.setClaim l v).half = s.half := rfl
@[simp] theorem setClaim_pending : (s.setClaim l v).pending = s.pending := rfl
end
theorem setClaim_claim (l x : Nat) (v : Option Nat) : (s.setClaim l v).claim x = if x = l then v else s.claim x := get_put _ _ _ _

/-! ### setSide -/

section
variable (e : Nat) (v : Option (Nat × Nat))
@[simp] theorem setSide_cycle : (s.setSide e v).cycle = s.cycle := rfl
@[simp] theorem setSide_sptr : (s.setSide e v).sptr = s.sptr := rfl
@[simp] theorem setSide_mode : (s.setSide e v).mode = s.mode := rfl
@[simp] theorem setSide_off : (s.setSide e v).off = s.off := rfl
@[simp] theorem setSide_pend : (s.setSide e v).pend = s.pend := rfl
@[simp] theorem setSide_pendCyc : (s.setSide e v).pendCyc = s.pendCyc := rfl
@[simp] theorem setSide_heldFrom : (s.setSide e v).heldFrom = s.heldFrom := rfl
@[simp] theorem setSide_holdSrc : (s.setSide e v).holdSrc = s.holdSrc := rfl
@[simp] theorem setSide_settled : (s.setSide e v).settled = s.settled := rfl
@[simp] theorem setSide_regs : (s.setSide e v).regs = s.regs := rfl
@[simp] theorem setSide_held : (s.setSide e v).held = s.held := rfl
@[simp] theorem setSide_ram : (s.setSide e v).ram = s.ram := rfl
@[simp] theorem setSide_chip : (s.setSide e v).chip = s.chip := rfl
@[simp] theorem setSide_ecc : (s.setSide e v).ecc = s.ecc := rfl
@[simp] theorem setSide_scrubs : (s.setSide e v).scrubs = s.scrubs := rfl
@[simp] theorem setSide_ver : (s.setSide e v).ver = s.ver := rfl
@[simp] theorem setSide_claims : (s.setSide e v).claims = s.claims := rfl
@[simp] theorem setSide_ctxs : (s.setSide e v).ctxs = s.ctxs := rfl
@[simp] theorem setSide_commits : (s.setSide e v).commits = s.commits := rfl
@[simp] theorem setSide_threads : (s.setSide e v).threads = s.threads := rfl
@[simp] theorem setSide_cores : (s.setSide e v).cores = s.cores := rfl
@[simp] theorem setSide_lags : (s.setSide e v).lags = s.lags := rfl
@[simp] theorem setSide_posted : (s.setSide e v).posted = s.posted := rfl
@[simp] theorem setSide_bitOld : (s.setSide e v).bitOld = s.bitOld := rfl
@[simp] theorem setSide_portOld : (s.setSide e v).portOld = s.portOld := rfl
@[simp] theorem setSide_locks : (s.setSide e v).locks = s.locks := rfl
@[simp] theorem setSide_flags : (s.setSide e v).flags = s.flags := rfl
@[simp] theorem setSide_chans : (s.setSide e v).chans = s.chans := rfl
@[simp] theorem setSide_dlDone : (s.setSide e v).dlDone = s.dlDone := rfl
@[simp] theorem setSide_doms : (s.setSide e v).doms = s.doms := rfl
@[simp] theorem setSide_movers : (s.setSide e v).movers = s.movers := rfl
@[simp] theorem setSide_commons : (s.setSide e v).commons = s.commons := rfl
@[simp] theorem setSide_timers : (s.setSide e v).timers = s.timers := rfl
@[simp] theorem setSide_psqs : (s.setSide e v).psqs = s.psqs := rfl
@[simp] theorem setSide_lanes : (s.setSide e v).lanes = s.lanes := rfl
@[simp] theorem setSide_pins : (s.setSide e v).pins = s.pins := rfl
@[simp] theorem setSide_ports : (s.setSide e v).ports = s.ports := rfl
@[simp] theorem setSide_tdrPin : (s.setSide e v).tdrPin = s.tdrPin := rfl
@[simp] theorem setSide_mbus : (s.setSide e v).mbus = s.mbus := rfl
@[simp] theorem setSide_heads : (s.setSide e v).heads = s.heads := rfl
@[simp] theorem setSide_gleaner : (s.setSide e v).gleaner = s.gleaner := rfl
@[simp] theorem setSide_reports : (s.setSide e v).reports = s.reports := rfl
@[simp] theorem setSide_log : (s.setSide e v).log = s.log := rfl
@[simp] theorem setSide_seq : (s.setSide e v).seq = s.seq := rfl
@[simp] theorem setSide_orders : (s.setSide e v).orders = s.orders := rfl
@[simp] theorem setSide_ordered : (s.setSide e v).ordered = s.ordered := rfl
@[simp] theorem setSide_holdReq : (s.setSide e v).holdReq = s.holdReq := rfl
@[simp] theorem setSide_supply : (s.setSide e v).supply = s.supply := rfl
@[simp] theorem setSide_latch : (s.setSide e v).latch = s.latch := rfl
@[simp] theorem setSide_stage : (s.setSide e v).stage = s.stage := rfl
@[simp] theorem setSide_rdata : (s.setSide e v).rdata = s.rdata := rfl
@[simp] theorem setSide_half : (s.setSide e v).half = s.half := rfl
@[simp] theorem setSide_pending : (s.setSide e v).pending = s.pending := rfl
end
theorem setSide_sideEnt (e x : Nat) (v : Option (Nat × Nat)) : (s.setSide e v).sideEnt x = if x = e then v else s.sideEnt x := get_put _ _ _ _

/-! ### setLatch -/

section
variable (k : Nat) (v : Word)
@[simp] theorem setLatch_cycle : (s.setLatch k v).cycle = s.cycle := rfl
@[simp] theorem setLatch_sptr : (s.setLatch k v).sptr = s.sptr := rfl
@[simp] theorem setLatch_mode : (s.setLatch k v).mode = s.mode := rfl
@[simp] theorem setLatch_off : (s.setLatch k v).off = s.off := rfl
@[simp] theorem setLatch_pend : (s.setLatch k v).pend = s.pend := rfl
@[simp] theorem setLatch_pendCyc : (s.setLatch k v).pendCyc = s.pendCyc := rfl
@[simp] theorem setLatch_heldFrom : (s.setLatch k v).heldFrom = s.heldFrom := rfl
@[simp] theorem setLatch_holdSrc : (s.setLatch k v).holdSrc = s.holdSrc := rfl
@[simp] theorem setLatch_settled : (s.setLatch k v).settled = s.settled := rfl
@[simp] theorem setLatch_regs : (s.setLatch k v).regs = s.regs := rfl
@[simp] theorem setLatch_held : (s.setLatch k v).held = s.held := rfl
@[simp] theorem setLatch_ram : (s.setLatch k v).ram = s.ram := rfl
@[simp] theorem setLatch_chip : (s.setLatch k v).chip = s.chip := rfl
@[simp] theorem setLatch_ecc : (s.setLatch k v).ecc = s.ecc := rfl
@[simp] theorem setLatch_scrubs : (s.setLatch k v).scrubs = s.scrubs := rfl
@[simp] theorem setLatch_ver : (s.setLatch k v).ver = s.ver := rfl
@[simp] theorem setLatch_claims : (s.setLatch k v).claims = s.claims := rfl
@[simp] theorem setLatch_side : (s.setLatch k v).side = s.side := rfl
@[simp] theorem setLatch_ctxs : (s.setLatch k v).ctxs = s.ctxs := rfl
@[simp] theorem setLatch_commits : (s.setLatch k v).commits = s.commits := rfl
@[simp] theorem setLatch_threads : (s.setLatch k v).threads = s.threads := rfl
@[simp] theorem setLatch_cores : (s.setLatch k v).cores = s.cores := rfl
@[simp] theorem setLatch_lags : (s.setLatch k v).lags = s.lags := rfl
@[simp] theorem setLatch_posted : (s.setLatch k v).posted = s.posted := rfl
@[simp] theorem setLatch_bitOld : (s.setLatch k v).bitOld = s.bitOld := rfl
@[simp] theorem setLatch_portOld : (s.setLatch k v).portOld = s.portOld := rfl
@[simp] theorem setLatch_locks : (s.setLatch k v).locks = s.locks := rfl
@[simp] theorem setLatch_flags : (s.setLatch k v).flags = s.flags := rfl
@[simp] theorem setLatch_chans : (s.setLatch k v).chans = s.chans := rfl
@[simp] theorem setLatch_dlDone : (s.setLatch k v).dlDone = s.dlDone := rfl
@[simp] theorem setLatch_doms : (s.setLatch k v).doms = s.doms := rfl
@[simp] theorem setLatch_movers : (s.setLatch k v).movers = s.movers := rfl
@[simp] theorem setLatch_commons : (s.setLatch k v).commons = s.commons := rfl
@[simp] theorem setLatch_timers : (s.setLatch k v).timers = s.timers := rfl
@[simp] theorem setLatch_psqs : (s.setLatch k v).psqs = s.psqs := rfl
@[simp] theorem setLatch_lanes : (s.setLatch k v).lanes = s.lanes := rfl
@[simp] theorem setLatch_pins : (s.setLatch k v).pins = s.pins := rfl
@[simp] theorem setLatch_ports : (s.setLatch k v).ports = s.ports := rfl
@[simp] theorem setLatch_tdrPin : (s.setLatch k v).tdrPin = s.tdrPin := rfl
@[simp] theorem setLatch_mbus : (s.setLatch k v).mbus = s.mbus := rfl
@[simp] theorem setLatch_heads : (s.setLatch k v).heads = s.heads := rfl
@[simp] theorem setLatch_gleaner : (s.setLatch k v).gleaner = s.gleaner := rfl
@[simp] theorem setLatch_reports : (s.setLatch k v).reports = s.reports := rfl
@[simp] theorem setLatch_log : (s.setLatch k v).log = s.log := rfl
@[simp] theorem setLatch_seq : (s.setLatch k v).seq = s.seq := rfl
@[simp] theorem setLatch_orders : (s.setLatch k v).orders = s.orders := rfl
@[simp] theorem setLatch_ordered : (s.setLatch k v).ordered = s.ordered := rfl
@[simp] theorem setLatch_holdReq : (s.setLatch k v).holdReq = s.holdReq := rfl
@[simp] theorem setLatch_supply : (s.setLatch k v).supply = s.supply := rfl
@[simp] theorem setLatch_stage : (s.setLatch k v).stage = s.stage := rfl
@[simp] theorem setLatch_rdata : (s.setLatch k v).rdata = s.rdata := rfl
@[simp] theorem setLatch_half : (s.setLatch k v).half = s.half := rfl
@[simp] theorem setLatch_pending : (s.setLatch k v).pending = s.pending := rfl
end
theorem setLatch_latchAt (k x : Nat) (v : Word) : (s.setLatch k v).latchAt x = if x = k then v else s.latchAt x := get_put _ _ _ _

/-! ### setStage -/

section
variable (k : Nat) (v : Word)
@[simp] theorem setStage_cycle : (s.setStage k v).cycle = s.cycle := rfl
@[simp] theorem setStage_sptr : (s.setStage k v).sptr = s.sptr := rfl
@[simp] theorem setStage_mode : (s.setStage k v).mode = s.mode := rfl
@[simp] theorem setStage_off : (s.setStage k v).off = s.off := rfl
@[simp] theorem setStage_pend : (s.setStage k v).pend = s.pend := rfl
@[simp] theorem setStage_pendCyc : (s.setStage k v).pendCyc = s.pendCyc := rfl
@[simp] theorem setStage_heldFrom : (s.setStage k v).heldFrom = s.heldFrom := rfl
@[simp] theorem setStage_holdSrc : (s.setStage k v).holdSrc = s.holdSrc := rfl
@[simp] theorem setStage_settled : (s.setStage k v).settled = s.settled := rfl
@[simp] theorem setStage_regs : (s.setStage k v).regs = s.regs := rfl
@[simp] theorem setStage_held : (s.setStage k v).held = s.held := rfl
@[simp] theorem setStage_ram : (s.setStage k v).ram = s.ram := rfl
@[simp] theorem setStage_chip : (s.setStage k v).chip = s.chip := rfl
@[simp] theorem setStage_ecc : (s.setStage k v).ecc = s.ecc := rfl
@[simp] theorem setStage_scrubs : (s.setStage k v).scrubs = s.scrubs := rfl
@[simp] theorem setStage_ver : (s.setStage k v).ver = s.ver := rfl
@[simp] theorem setStage_claims : (s.setStage k v).claims = s.claims := rfl
@[simp] theorem setStage_side : (s.setStage k v).side = s.side := rfl
@[simp] theorem setStage_ctxs : (s.setStage k v).ctxs = s.ctxs := rfl
@[simp] theorem setStage_commits : (s.setStage k v).commits = s.commits := rfl
@[simp] theorem setStage_threads : (s.setStage k v).threads = s.threads := rfl
@[simp] theorem setStage_cores : (s.setStage k v).cores = s.cores := rfl
@[simp] theorem setStage_lags : (s.setStage k v).lags = s.lags := rfl
@[simp] theorem setStage_posted : (s.setStage k v).posted = s.posted := rfl
@[simp] theorem setStage_bitOld : (s.setStage k v).bitOld = s.bitOld := rfl
@[simp] theorem setStage_portOld : (s.setStage k v).portOld = s.portOld := rfl
@[simp] theorem setStage_locks : (s.setStage k v).locks = s.locks := rfl
@[simp] theorem setStage_flags : (s.setStage k v).flags = s.flags := rfl
@[simp] theorem setStage_chans : (s.setStage k v).chans = s.chans := rfl
@[simp] theorem setStage_dlDone : (s.setStage k v).dlDone = s.dlDone := rfl
@[simp] theorem setStage_doms : (s.setStage k v).doms = s.doms := rfl
@[simp] theorem setStage_movers : (s.setStage k v).movers = s.movers := rfl
@[simp] theorem setStage_commons : (s.setStage k v).commons = s.commons := rfl
@[simp] theorem setStage_timers : (s.setStage k v).timers = s.timers := rfl
@[simp] theorem setStage_psqs : (s.setStage k v).psqs = s.psqs := rfl
@[simp] theorem setStage_lanes : (s.setStage k v).lanes = s.lanes := rfl
@[simp] theorem setStage_pins : (s.setStage k v).pins = s.pins := rfl
@[simp] theorem setStage_ports : (s.setStage k v).ports = s.ports := rfl
@[simp] theorem setStage_tdrPin : (s.setStage k v).tdrPin = s.tdrPin := rfl
@[simp] theorem setStage_mbus : (s.setStage k v).mbus = s.mbus := rfl
@[simp] theorem setStage_heads : (s.setStage k v).heads = s.heads := rfl
@[simp] theorem setStage_gleaner : (s.setStage k v).gleaner = s.gleaner := rfl
@[simp] theorem setStage_reports : (s.setStage k v).reports = s.reports := rfl
@[simp] theorem setStage_log : (s.setStage k v).log = s.log := rfl
@[simp] theorem setStage_seq : (s.setStage k v).seq = s.seq := rfl
@[simp] theorem setStage_orders : (s.setStage k v).orders = s.orders := rfl
@[simp] theorem setStage_ordered : (s.setStage k v).ordered = s.ordered := rfl
@[simp] theorem setStage_holdReq : (s.setStage k v).holdReq = s.holdReq := rfl
@[simp] theorem setStage_supply : (s.setStage k v).supply = s.supply := rfl
@[simp] theorem setStage_latch : (s.setStage k v).latch = s.latch := rfl
@[simp] theorem setStage_rdata : (s.setStage k v).rdata = s.rdata := rfl
@[simp] theorem setStage_half : (s.setStage k v).half = s.half := rfl
@[simp] theorem setStage_pending : (s.setStage k v).pending = s.pending := rfl
end
theorem setStage_stageAt (k x : Nat) (v : Word) : (s.setStage k v).stageAt x = if x = k then v else s.stageAt x := get_put _ _ _ _

/-! ### setRead -/

section
variable (p : Path) (v : DWord)
@[simp] theorem setRead_cycle : (s.setRead p v).cycle = s.cycle := rfl
@[simp] theorem setRead_sptr : (s.setRead p v).sptr = s.sptr := rfl
@[simp] theorem setRead_mode : (s.setRead p v).mode = s.mode := rfl
@[simp] theorem setRead_off : (s.setRead p v).off = s.off := rfl
@[simp] theorem setRead_pend : (s.setRead p v).pend = s.pend := rfl
@[simp] theorem setRead_pendCyc : (s.setRead p v).pendCyc = s.pendCyc := rfl
@[simp] theorem setRead_heldFrom : (s.setRead p v).heldFrom = s.heldFrom := rfl
@[simp] theorem setRead_holdSrc : (s.setRead p v).holdSrc = s.holdSrc := rfl
@[simp] theorem setRead_settled : (s.setRead p v).settled = s.settled := rfl
@[simp] theorem setRead_regs : (s.setRead p v).regs = s.regs := rfl
@[simp] theorem setRead_held : (s.setRead p v).held = s.held := rfl
@[simp] theorem setRead_ram : (s.setRead p v).ram = s.ram := rfl
@[simp] theorem setRead_chip : (s.setRead p v).chip = s.chip := rfl
@[simp] theorem setRead_ecc : (s.setRead p v).ecc = s.ecc := rfl
@[simp] theorem setRead_scrubs : (s.setRead p v).scrubs = s.scrubs := rfl
@[simp] theorem setRead_ver : (s.setRead p v).ver = s.ver := rfl
@[simp] theorem setRead_claims : (s.setRead p v).claims = s.claims := rfl
@[simp] theorem setRead_side : (s.setRead p v).side = s.side := rfl
@[simp] theorem setRead_ctxs : (s.setRead p v).ctxs = s.ctxs := rfl
@[simp] theorem setRead_commits : (s.setRead p v).commits = s.commits := rfl
@[simp] theorem setRead_threads : (s.setRead p v).threads = s.threads := rfl
@[simp] theorem setRead_cores : (s.setRead p v).cores = s.cores := rfl
@[simp] theorem setRead_lags : (s.setRead p v).lags = s.lags := rfl
@[simp] theorem setRead_posted : (s.setRead p v).posted = s.posted := rfl
@[simp] theorem setRead_bitOld : (s.setRead p v).bitOld = s.bitOld := rfl
@[simp] theorem setRead_portOld : (s.setRead p v).portOld = s.portOld := rfl
@[simp] theorem setRead_locks : (s.setRead p v).locks = s.locks := rfl
@[simp] theorem setRead_flags : (s.setRead p v).flags = s.flags := rfl
@[simp] theorem setRead_chans : (s.setRead p v).chans = s.chans := rfl
@[simp] theorem setRead_dlDone : (s.setRead p v).dlDone = s.dlDone := rfl
@[simp] theorem setRead_doms : (s.setRead p v).doms = s.doms := rfl
@[simp] theorem setRead_movers : (s.setRead p v).movers = s.movers := rfl
@[simp] theorem setRead_commons : (s.setRead p v).commons = s.commons := rfl
@[simp] theorem setRead_timers : (s.setRead p v).timers = s.timers := rfl
@[simp] theorem setRead_psqs : (s.setRead p v).psqs = s.psqs := rfl
@[simp] theorem setRead_lanes : (s.setRead p v).lanes = s.lanes := rfl
@[simp] theorem setRead_pins : (s.setRead p v).pins = s.pins := rfl
@[simp] theorem setRead_ports : (s.setRead p v).ports = s.ports := rfl
@[simp] theorem setRead_tdrPin : (s.setRead p v).tdrPin = s.tdrPin := rfl
@[simp] theorem setRead_mbus : (s.setRead p v).mbus = s.mbus := rfl
@[simp] theorem setRead_heads : (s.setRead p v).heads = s.heads := rfl
@[simp] theorem setRead_gleaner : (s.setRead p v).gleaner = s.gleaner := rfl
@[simp] theorem setRead_reports : (s.setRead p v).reports = s.reports := rfl
@[simp] theorem setRead_log : (s.setRead p v).log = s.log := rfl
@[simp] theorem setRead_seq : (s.setRead p v).seq = s.seq := rfl
@[simp] theorem setRead_orders : (s.setRead p v).orders = s.orders := rfl
@[simp] theorem setRead_ordered : (s.setRead p v).ordered = s.ordered := rfl
@[simp] theorem setRead_holdReq : (s.setRead p v).holdReq = s.holdReq := rfl
@[simp] theorem setRead_supply : (s.setRead p v).supply = s.supply := rfl
@[simp] theorem setRead_latch : (s.setRead p v).latch = s.latch := rfl
@[simp] theorem setRead_stage : (s.setRead p v).stage = s.stage := rfl
@[simp] theorem setRead_half : (s.setRead p v).half = s.half := rfl
@[simp] theorem setRead_pending : (s.setRead p v).pending = s.pending := rfl
end
@[simp] theorem setRead_readData (p : Path) (v : DWord) : (s.setRead p v).readData p = v := get_put_same _ _ _

/-! ### setReg -/

section
variable (r : Reg) (v : Word)
@[simp] theorem setReg_cycle : (s.setReg r v).cycle = s.cycle := rfl
@[simp] theorem setReg_sptr : (s.setReg r v).sptr = s.sptr := rfl
@[simp] theorem setReg_mode : (s.setReg r v).mode = s.mode := rfl
@[simp] theorem setReg_off : (s.setReg r v).off = s.off := rfl
@[simp] theorem setReg_pend : (s.setReg r v).pend = s.pend := rfl
@[simp] theorem setReg_pendCyc : (s.setReg r v).pendCyc = s.pendCyc := rfl
@[simp] theorem setReg_heldFrom : (s.setReg r v).heldFrom = s.heldFrom := rfl
@[simp] theorem setReg_holdSrc : (s.setReg r v).holdSrc = s.holdSrc := rfl
@[simp] theorem setReg_settled : (s.setReg r v).settled = s.settled := rfl
@[simp] theorem setReg_held : (s.setReg r v).held = s.held := rfl
@[simp] theorem setReg_ram : (s.setReg r v).ram = s.ram := rfl
@[simp] theorem setReg_chip : (s.setReg r v).chip = s.chip := rfl
@[simp] theorem setReg_ecc : (s.setReg r v).ecc = s.ecc := rfl
@[simp] theorem setReg_scrubs : (s.setReg r v).scrubs = s.scrubs := rfl
@[simp] theorem setReg_ver : (s.setReg r v).ver = s.ver := rfl
@[simp] theorem setReg_claims : (s.setReg r v).claims = s.claims := rfl
@[simp] theorem setReg_side : (s.setReg r v).side = s.side := rfl
@[simp] theorem setReg_ctxs : (s.setReg r v).ctxs = s.ctxs := rfl
@[simp] theorem setReg_commits : (s.setReg r v).commits = s.commits := rfl
@[simp] theorem setReg_threads : (s.setReg r v).threads = s.threads := rfl
@[simp] theorem setReg_cores : (s.setReg r v).cores = s.cores := rfl
@[simp] theorem setReg_lags : (s.setReg r v).lags = s.lags := rfl
@[simp] theorem setReg_posted : (s.setReg r v).posted = s.posted := rfl
@[simp] theorem setReg_bitOld : (s.setReg r v).bitOld = s.bitOld := rfl
@[simp] theorem setReg_portOld : (s.setReg r v).portOld = s.portOld := rfl
@[simp] theorem setReg_locks : (s.setReg r v).locks = s.locks := rfl
@[simp] theorem setReg_flags : (s.setReg r v).flags = s.flags := rfl
@[simp] theorem setReg_chans : (s.setReg r v).chans = s.chans := rfl
@[simp] theorem setReg_dlDone : (s.setReg r v).dlDone = s.dlDone := rfl
@[simp] theorem setReg_doms : (s.setReg r v).doms = s.doms := rfl
@[simp] theorem setReg_movers : (s.setReg r v).movers = s.movers := rfl
@[simp] theorem setReg_commons : (s.setReg r v).commons = s.commons := rfl
@[simp] theorem setReg_timers : (s.setReg r v).timers = s.timers := rfl
@[simp] theorem setReg_psqs : (s.setReg r v).psqs = s.psqs := rfl
@[simp] theorem setReg_lanes : (s.setReg r v).lanes = s.lanes := rfl
@[simp] theorem setReg_pins : (s.setReg r v).pins = s.pins := rfl
@[simp] theorem setReg_ports : (s.setReg r v).ports = s.ports := rfl
@[simp] theorem setReg_tdrPin : (s.setReg r v).tdrPin = s.tdrPin := rfl
@[simp] theorem setReg_mbus : (s.setReg r v).mbus = s.mbus := rfl
@[simp] theorem setReg_heads : (s.setReg r v).heads = s.heads := rfl
@[simp] theorem setReg_gleaner : (s.setReg r v).gleaner = s.gleaner := rfl
@[simp] theorem setReg_reports : (s.setReg r v).reports = s.reports := rfl
@[simp] theorem setReg_log : (s.setReg r v).log = s.log := rfl
@[simp] theorem setReg_seq : (s.setReg r v).seq = s.seq := rfl
@[simp] theorem setReg_orders : (s.setReg r v).orders = s.orders := rfl
@[simp] theorem setReg_ordered : (s.setReg r v).ordered = s.ordered := rfl
@[simp] theorem setReg_holdReq : (s.setReg r v).holdReq = s.holdReq := rfl
@[simp] theorem setReg_supply : (s.setReg r v).supply = s.supply := rfl
@[simp] theorem setReg_latch : (s.setReg r v).latch = s.latch := rfl
@[simp] theorem setReg_stage : (s.setReg r v).stage = s.stage := rfl
@[simp] theorem setReg_rdata : (s.setReg r v).rdata = s.rdata := rfl
@[simp] theorem setReg_half : (s.setReg r v).half = s.half := rfl
@[simp] theorem setReg_pending : (s.setReg r v).pending = s.pending := rfl
end
theorem setReg_reg (r x : Reg) (v : Word) : (s.setReg r v).reg x = if x.off = r.off then v else s.reg x := get_put _ _ _ _

/-! ### setHeld -/

section
variable (r : Reg) (v : Option Held)
@[simp] theorem setHeld_cycle : (s.setHeld r v).cycle = s.cycle := rfl
@[simp] theorem setHeld_sptr : (s.setHeld r v).sptr = s.sptr := rfl
@[simp] theorem setHeld_mode : (s.setHeld r v).mode = s.mode := rfl
@[simp] theorem setHeld_off : (s.setHeld r v).off = s.off := rfl
@[simp] theorem setHeld_pend : (s.setHeld r v).pend = s.pend := rfl
@[simp] theorem setHeld_pendCyc : (s.setHeld r v).pendCyc = s.pendCyc := rfl
@[simp] theorem setHeld_heldFrom : (s.setHeld r v).heldFrom = s.heldFrom := rfl
@[simp] theorem setHeld_holdSrc : (s.setHeld r v).holdSrc = s.holdSrc := rfl
@[simp] theorem setHeld_settled : (s.setHeld r v).settled = s.settled := rfl
@[simp] theorem setHeld_regs : (s.setHeld r v).regs = s.regs := rfl
@[simp] theorem setHeld_ram : (s.setHeld r v).ram = s.ram := rfl
@[simp] theorem setHeld_chip : (s.setHeld r v).chip = s.chip := rfl
@[simp] theorem setHeld_ecc : (s.setHeld r v).ecc = s.ecc := rfl
@[simp] theorem setHeld_scrubs : (s.setHeld r v).scrubs = s.scrubs := rfl
@[simp] theorem setHeld_ver : (s.setHeld r v).ver = s.ver := rfl
@[simp] theorem setHeld_claims : (s.setHeld r v).claims = s.claims := rfl
@[simp] theorem setHeld_side : (s.setHeld r v).side = s.side := rfl
@[simp] theorem setHeld_ctxs : (s.setHeld r v).ctxs = s.ctxs := rfl
@[simp] theorem setHeld_commits : (s.setHeld r v).commits = s.commits := rfl
@[simp] theorem setHeld_threads : (s.setHeld r v).threads = s.threads := rfl
@[simp] theorem setHeld_cores : (s.setHeld r v).cores = s.cores := rfl
@[simp] theorem setHeld_lags : (s.setHeld r v).lags = s.lags := rfl
@[simp] theorem setHeld_posted : (s.setHeld r v).posted = s.posted := rfl
@[simp] theorem setHeld_bitOld : (s.setHeld r v).bitOld = s.bitOld := rfl
@[simp] theorem setHeld_portOld : (s.setHeld r v).portOld = s.portOld := rfl
@[simp] theorem setHeld_locks : (s.setHeld r v).locks = s.locks := rfl
@[simp] theorem setHeld_flags : (s.setHeld r v).flags = s.flags := rfl
@[simp] theorem setHeld_chans : (s.setHeld r v).chans = s.chans := rfl
@[simp] theorem setHeld_dlDone : (s.setHeld r v).dlDone = s.dlDone := rfl
@[simp] theorem setHeld_doms : (s.setHeld r v).doms = s.doms := rfl
@[simp] theorem setHeld_movers : (s.setHeld r v).movers = s.movers := rfl
@[simp] theorem setHeld_commons : (s.setHeld r v).commons = s.commons := rfl
@[simp] theorem setHeld_timers : (s.setHeld r v).timers = s.timers := rfl
@[simp] theorem setHeld_psqs : (s.setHeld r v).psqs = s.psqs := rfl
@[simp] theorem setHeld_lanes : (s.setHeld r v).lanes = s.lanes := rfl
@[simp] theorem setHeld_pins : (s.setHeld r v).pins = s.pins := rfl
@[simp] theorem setHeld_ports : (s.setHeld r v).ports = s.ports := rfl
@[simp] theorem setHeld_tdrPin : (s.setHeld r v).tdrPin = s.tdrPin := rfl
@[simp] theorem setHeld_mbus : (s.setHeld r v).mbus = s.mbus := rfl
@[simp] theorem setHeld_heads : (s.setHeld r v).heads = s.heads := rfl
@[simp] theorem setHeld_gleaner : (s.setHeld r v).gleaner = s.gleaner := rfl
@[simp] theorem setHeld_reports : (s.setHeld r v).reports = s.reports := rfl
@[simp] theorem setHeld_log : (s.setHeld r v).log = s.log := rfl
@[simp] theorem setHeld_seq : (s.setHeld r v).seq = s.seq := rfl
@[simp] theorem setHeld_orders : (s.setHeld r v).orders = s.orders := rfl
@[simp] theorem setHeld_ordered : (s.setHeld r v).ordered = s.ordered := rfl
@[simp] theorem setHeld_holdReq : (s.setHeld r v).holdReq = s.holdReq := rfl
@[simp] theorem setHeld_supply : (s.setHeld r v).supply = s.supply := rfl
@[simp] theorem setHeld_latch : (s.setHeld r v).latch = s.latch := rfl
@[simp] theorem setHeld_stage : (s.setHeld r v).stage = s.stage := rfl
@[simp] theorem setHeld_rdata : (s.setHeld r v).rdata = s.rdata := rfl
@[simp] theorem setHeld_half : (s.setHeld r v).half = s.half := rfl
@[simp] theorem setHeld_pending : (s.setHeld r v).pending = s.pending := rfl
end
theorem setHeld_heldAt (r x : Reg) (v : Option Held) : (s.setHeld r v).heldAt x = if x.off = r.off then v else s.heldAt x := get_put _ _ _ _

/-! ### putFlag -/

section
variable (c f : Nat) (v : EFlag)
@[simp] theorem putFlag_cycle : (s.putFlag c f v).cycle = s.cycle := rfl
@[simp] theorem putFlag_sptr : (s.putFlag c f v).sptr = s.sptr := rfl
@[simp] theorem putFlag_mode : (s.putFlag c f v).mode = s.mode := rfl
@[simp] theorem putFlag_off : (s.putFlag c f v).off = s.off := rfl
@[simp] theorem putFlag_pend : (s.putFlag c f v).pend = s.pend := rfl
@[simp] theorem putFlag_pendCyc : (s.putFlag c f v).pendCyc = s.pendCyc := rfl
@[simp] theorem putFlag_heldFrom : (s.putFlag c f v).heldFrom = s.heldFrom := rfl
@[simp] theorem putFlag_holdSrc : (s.putFlag c f v).holdSrc = s.holdSrc := rfl
@[simp] theorem putFlag_settled : (s.putFlag c f v).settled = s.settled := rfl
@[simp] theorem putFlag_regs : (s.putFlag c f v).regs = s.regs := rfl
@[simp] theorem putFlag_held : (s.putFlag c f v).held = s.held := rfl
@[simp] theorem putFlag_ram : (s.putFlag c f v).ram = s.ram := rfl
@[simp] theorem putFlag_chip : (s.putFlag c f v).chip = s.chip := rfl
@[simp] theorem putFlag_ecc : (s.putFlag c f v).ecc = s.ecc := rfl
@[simp] theorem putFlag_scrubs : (s.putFlag c f v).scrubs = s.scrubs := rfl
@[simp] theorem putFlag_ver : (s.putFlag c f v).ver = s.ver := rfl
@[simp] theorem putFlag_claims : (s.putFlag c f v).claims = s.claims := rfl
@[simp] theorem putFlag_side : (s.putFlag c f v).side = s.side := rfl
@[simp] theorem putFlag_ctxs : (s.putFlag c f v).ctxs = s.ctxs := rfl
@[simp] theorem putFlag_commits : (s.putFlag c f v).commits = s.commits := rfl
@[simp] theorem putFlag_threads : (s.putFlag c f v).threads = s.threads := rfl
@[simp] theorem putFlag_cores : (s.putFlag c f v).cores = s.cores := rfl
@[simp] theorem putFlag_lags : (s.putFlag c f v).lags = s.lags := rfl
@[simp] theorem putFlag_posted : (s.putFlag c f v).posted = s.posted := rfl
@[simp] theorem putFlag_bitOld : (s.putFlag c f v).bitOld = s.bitOld := rfl
@[simp] theorem putFlag_portOld : (s.putFlag c f v).portOld = s.portOld := rfl
@[simp] theorem putFlag_locks : (s.putFlag c f v).locks = s.locks := rfl
@[simp] theorem putFlag_chans : (s.putFlag c f v).chans = s.chans := rfl
@[simp] theorem putFlag_dlDone : (s.putFlag c f v).dlDone = s.dlDone := rfl
@[simp] theorem putFlag_doms : (s.putFlag c f v).doms = s.doms := rfl
@[simp] theorem putFlag_movers : (s.putFlag c f v).movers = s.movers := rfl
@[simp] theorem putFlag_commons : (s.putFlag c f v).commons = s.commons := rfl
@[simp] theorem putFlag_timers : (s.putFlag c f v).timers = s.timers := rfl
@[simp] theorem putFlag_psqs : (s.putFlag c f v).psqs = s.psqs := rfl
@[simp] theorem putFlag_lanes : (s.putFlag c f v).lanes = s.lanes := rfl
@[simp] theorem putFlag_pins : (s.putFlag c f v).pins = s.pins := rfl
@[simp] theorem putFlag_ports : (s.putFlag c f v).ports = s.ports := rfl
@[simp] theorem putFlag_tdrPin : (s.putFlag c f v).tdrPin = s.tdrPin := rfl
@[simp] theorem putFlag_mbus : (s.putFlag c f v).mbus = s.mbus := rfl
@[simp] theorem putFlag_heads : (s.putFlag c f v).heads = s.heads := rfl
@[simp] theorem putFlag_gleaner : (s.putFlag c f v).gleaner = s.gleaner := rfl
@[simp] theorem putFlag_reports : (s.putFlag c f v).reports = s.reports := rfl
@[simp] theorem putFlag_log : (s.putFlag c f v).log = s.log := rfl
@[simp] theorem putFlag_seq : (s.putFlag c f v).seq = s.seq := rfl
@[simp] theorem putFlag_orders : (s.putFlag c f v).orders = s.orders := rfl
@[simp] theorem putFlag_ordered : (s.putFlag c f v).ordered = s.ordered := rfl
@[simp] theorem putFlag_holdReq : (s.putFlag c f v).holdReq = s.holdReq := rfl
@[simp] theorem putFlag_supply : (s.putFlag c f v).supply = s.supply := rfl
@[simp] theorem putFlag_latch : (s.putFlag c f v).latch = s.latch := rfl
@[simp] theorem putFlag_stage : (s.putFlag c f v).stage = s.stage := rfl
@[simp] theorem putFlag_rdata : (s.putFlag c f v).rdata = s.rdata := rfl
@[simp] theorem putFlag_half : (s.putFlag c f v).half = s.half := rfl
@[simp] theorem putFlag_pending : (s.putFlag c f v).pending = s.pending := rfl
end
theorem putFlag_flag (c f d e : Nat) (v : EFlag) : (s.putFlag c f v).flag d e = if 256 * d + e = 256 * c + f then v else s.flag d e := get_put _ _ _ _

/-! ### setCell -/

section
variable (k : Nat) (b : Byte)
@[simp] theorem setCell_cycle : (s.setCell k b).cycle = s.cycle := rfl
@[simp] theorem setCell_sptr : (s.setCell k b).sptr = s.sptr := rfl
@[simp] theorem setCell_mode : (s.setCell k b).mode = s.mode := rfl
@[simp] theorem setCell_off : (s.setCell k b).off = s.off := rfl
@[simp] theorem setCell_pend : (s.setCell k b).pend = s.pend := rfl
@[simp] theorem setCell_pendCyc : (s.setCell k b).pendCyc = s.pendCyc := rfl
@[simp] theorem setCell_heldFrom : (s.setCell k b).heldFrom = s.heldFrom := rfl
@[simp] theorem setCell_holdSrc : (s.setCell k b).holdSrc = s.holdSrc := rfl
@[simp] theorem setCell_settled : (s.setCell k b).settled = s.settled := rfl
@[simp] theorem setCell_regs : (s.setCell k b).regs = s.regs := rfl
@[simp] theorem setCell_held : (s.setCell k b).held = s.held := rfl
@[simp] theorem setCell_chip : (s.setCell k b).chip = s.chip := rfl
@[simp] theorem setCell_ecc : (s.setCell k b).ecc = s.ecc := rfl
@[simp] theorem setCell_scrubs : (s.setCell k b).scrubs = s.scrubs := rfl
@[simp] theorem setCell_ver : (s.setCell k b).ver = s.ver := rfl
@[simp] theorem setCell_claims : (s.setCell k b).claims = s.claims := rfl
@[simp] theorem setCell_side : (s.setCell k b).side = s.side := rfl
@[simp] theorem setCell_ctxs : (s.setCell k b).ctxs = s.ctxs := rfl
@[simp] theorem setCell_commits : (s.setCell k b).commits = s.commits := rfl
@[simp] theorem setCell_threads : (s.setCell k b).threads = s.threads := rfl
@[simp] theorem setCell_cores : (s.setCell k b).cores = s.cores := rfl
@[simp] theorem setCell_lags : (s.setCell k b).lags = s.lags := rfl
@[simp] theorem setCell_posted : (s.setCell k b).posted = s.posted := rfl
@[simp] theorem setCell_bitOld : (s.setCell k b).bitOld = s.bitOld := rfl
@[simp] theorem setCell_portOld : (s.setCell k b).portOld = s.portOld := rfl
@[simp] theorem setCell_locks : (s.setCell k b).locks = s.locks := rfl
@[simp] theorem setCell_flags : (s.setCell k b).flags = s.flags := rfl
@[simp] theorem setCell_chans : (s.setCell k b).chans = s.chans := rfl
@[simp] theorem setCell_dlDone : (s.setCell k b).dlDone = s.dlDone := rfl
@[simp] theorem setCell_doms : (s.setCell k b).doms = s.doms := rfl
@[simp] theorem setCell_movers : (s.setCell k b).movers = s.movers := rfl
@[simp] theorem setCell_commons : (s.setCell k b).commons = s.commons := rfl
@[simp] theorem setCell_timers : (s.setCell k b).timers = s.timers := rfl
@[simp] theorem setCell_psqs : (s.setCell k b).psqs = s.psqs := rfl
@[simp] theorem setCell_lanes : (s.setCell k b).lanes = s.lanes := rfl
@[simp] theorem setCell_pins : (s.setCell k b).pins = s.pins := rfl
@[simp] theorem setCell_ports : (s.setCell k b).ports = s.ports := rfl
@[simp] theorem setCell_tdrPin : (s.setCell k b).tdrPin = s.tdrPin := rfl
@[simp] theorem setCell_mbus : (s.setCell k b).mbus = s.mbus := rfl
@[simp] theorem setCell_heads : (s.setCell k b).heads = s.heads := rfl
@[simp] theorem setCell_gleaner : (s.setCell k b).gleaner = s.gleaner := rfl
@[simp] theorem setCell_reports : (s.setCell k b).reports = s.reports := rfl
@[simp] theorem setCell_log : (s.setCell k b).log = s.log := rfl
@[simp] theorem setCell_seq : (s.setCell k b).seq = s.seq := rfl
@[simp] theorem setCell_orders : (s.setCell k b).orders = s.orders := rfl
@[simp] theorem setCell_ordered : (s.setCell k b).ordered = s.ordered := rfl
@[simp] theorem setCell_holdReq : (s.setCell k b).holdReq = s.holdReq := rfl
@[simp] theorem setCell_supply : (s.setCell k b).supply = s.supply := rfl
@[simp] theorem setCell_latch : (s.setCell k b).latch = s.latch := rfl
@[simp] theorem setCell_stage : (s.setCell k b).stage = s.stage := rfl
@[simp] theorem setCell_rdata : (s.setCell k b).rdata = s.rdata := rfl
@[simp] theorem setCell_half : (s.setCell k b).half = s.half := rfl
@[simp] theorem setCell_pending : (s.setCell k b).pending = s.pending := rfl
end
theorem setCell_cell (k x : Nat) (b : Byte) : (s.setCell k b).cell x = if x = k then b else s.cell x := get_put _ _ _ _

/-! ### setChip -/

section
variable (a : Nat) (b : Byte)
@[simp] theorem setChip_cycle : (s.setChip a b).cycle = s.cycle := rfl
@[simp] theorem setChip_sptr : (s.setChip a b).sptr = s.sptr := rfl
@[simp] theorem setChip_mode : (s.setChip a b).mode = s.mode := rfl
@[simp] theorem setChip_off : (s.setChip a b).off = s.off := rfl
@[simp] theorem setChip_pend : (s.setChip a b).pend = s.pend := rfl
@[simp] theorem setChip_pendCyc : (s.setChip a b).pendCyc = s.pendCyc := rfl
@[simp] theorem setChip_heldFrom : (s.setChip a b).heldFrom = s.heldFrom := rfl
@[simp] theorem setChip_holdSrc : (s.setChip a b).holdSrc = s.holdSrc := rfl
@[simp] theorem setChip_settled : (s.setChip a b).settled = s.settled := rfl
@[simp] theorem setChip_regs : (s.setChip a b).regs = s.regs := rfl
@[simp] theorem setChip_held : (s.setChip a b).held = s.held := rfl
@[simp] theorem setChip_ram : (s.setChip a b).ram = s.ram := rfl
@[simp] theorem setChip_ecc : (s.setChip a b).ecc = s.ecc := rfl
@[simp] theorem setChip_scrubs : (s.setChip a b).scrubs = s.scrubs := rfl
@[simp] theorem setChip_ver : (s.setChip a b).ver = s.ver := rfl
@[simp] theorem setChip_claims : (s.setChip a b).claims = s.claims := rfl
@[simp] theorem setChip_side : (s.setChip a b).side = s.side := rfl
@[simp] theorem setChip_ctxs : (s.setChip a b).ctxs = s.ctxs := rfl
@[simp] theorem setChip_commits : (s.setChip a b).commits = s.commits := rfl
@[simp] theorem setChip_threads : (s.setChip a b).threads = s.threads := rfl
@[simp] theorem setChip_cores : (s.setChip a b).cores = s.cores := rfl
@[simp] theorem setChip_lags : (s.setChip a b).lags = s.lags := rfl
@[simp] theorem setChip_posted : (s.setChip a b).posted = s.posted := rfl
@[simp] theorem setChip_bitOld : (s.setChip a b).bitOld = s.bitOld := rfl
@[simp] theorem setChip_portOld : (s.setChip a b).portOld = s.portOld := rfl
@[simp] theorem setChip_locks : (s.setChip a b).locks = s.locks := rfl
@[simp] theorem setChip_flags : (s.setChip a b).flags = s.flags := rfl
@[simp] theorem setChip_chans : (s.setChip a b).chans = s.chans := rfl
@[simp] theorem setChip_dlDone : (s.setChip a b).dlDone = s.dlDone := rfl
@[simp] theorem setChip_doms : (s.setChip a b).doms = s.doms := rfl
@[simp] theorem setChip_movers : (s.setChip a b).movers = s.movers := rfl
@[simp] theorem setChip_commons : (s.setChip a b).commons = s.commons := rfl
@[simp] theorem setChip_timers : (s.setChip a b).timers = s.timers := rfl
@[simp] theorem setChip_psqs : (s.setChip a b).psqs = s.psqs := rfl
@[simp] theorem setChip_lanes : (s.setChip a b).lanes = s.lanes := rfl
@[simp] theorem setChip_pins : (s.setChip a b).pins = s.pins := rfl
@[simp] theorem setChip_ports : (s.setChip a b).ports = s.ports := rfl
@[simp] theorem setChip_tdrPin : (s.setChip a b).tdrPin = s.tdrPin := rfl
@[simp] theorem setChip_mbus : (s.setChip a b).mbus = s.mbus := rfl
@[simp] theorem setChip_heads : (s.setChip a b).heads = s.heads := rfl
@[simp] theorem setChip_gleaner : (s.setChip a b).gleaner = s.gleaner := rfl
@[simp] theorem setChip_reports : (s.setChip a b).reports = s.reports := rfl
@[simp] theorem setChip_log : (s.setChip a b).log = s.log := rfl
@[simp] theorem setChip_seq : (s.setChip a b).seq = s.seq := rfl
@[simp] theorem setChip_orders : (s.setChip a b).orders = s.orders := rfl
@[simp] theorem setChip_ordered : (s.setChip a b).ordered = s.ordered := rfl
@[simp] theorem setChip_holdReq : (s.setChip a b).holdReq = s.holdReq := rfl
@[simp] theorem setChip_supply : (s.setChip a b).supply = s.supply := rfl
@[simp] theorem setChip_latch : (s.setChip a b).latch = s.latch := rfl
@[simp] theorem setChip_stage : (s.setChip a b).stage = s.stage := rfl
@[simp] theorem setChip_rdata : (s.setChip a b).rdata = s.rdata := rfl
@[simp] theorem setChip_half : (s.setChip a b).half = s.half := rfl
@[simp] theorem setChip_pending : (s.setChip a b).pending = s.pending := rfl
end
theorem setChip_chipByte (a x : Nat) (b : Byte) : (s.setChip a b).chipByte x = if x = a then b else s.chipByte x := get_put _ _ _ _

/-! ### setMark -/

section
variable (g : Nat) (m : EccMark)
@[simp] theorem setMark_cycle : (s.setMark g m).cycle = s.cycle := rfl
@[simp] theorem setMark_sptr : (s.setMark g m).sptr = s.sptr := rfl
@[simp] theorem setMark_mode : (s.setMark g m).mode = s.mode := rfl
@[simp] theorem setMark_off : (s.setMark g m).off = s.off := rfl
@[simp] theorem setMark_pend : (s.setMark g m).pend = s.pend := rfl
@[simp] theorem setMark_pendCyc : (s.setMark g m).pendCyc = s.pendCyc := rfl
@[simp] theorem setMark_heldFrom : (s.setMark g m).heldFrom = s.heldFrom := rfl
@[simp] theorem setMark_holdSrc : (s.setMark g m).holdSrc = s.holdSrc := rfl
@[simp] theorem setMark_settled : (s.setMark g m).settled = s.settled := rfl
@[simp] theorem setMark_regs : (s.setMark g m).regs = s.regs := rfl
@[simp] theorem setMark_held : (s.setMark g m).held = s.held := rfl
@[simp] theorem setMark_ram : (s.setMark g m).ram = s.ram := rfl
@[simp] theorem setMark_chip : (s.setMark g m).chip = s.chip := rfl
@[simp] theorem setMark_scrubs : (s.setMark g m).scrubs = s.scrubs := rfl
@[simp] theorem setMark_ver : (s.setMark g m).ver = s.ver := rfl
@[simp] theorem setMark_claims : (s.setMark g m).claims = s.claims := rfl
@[simp] theorem setMark_side : (s.setMark g m).side = s.side := rfl
@[simp] theorem setMark_ctxs : (s.setMark g m).ctxs = s.ctxs := rfl
@[simp] theorem setMark_commits : (s.setMark g m).commits = s.commits := rfl
@[simp] theorem setMark_threads : (s.setMark g m).threads = s.threads := rfl
@[simp] theorem setMark_cores : (s.setMark g m).cores = s.cores := rfl
@[simp] theorem setMark_lags : (s.setMark g m).lags = s.lags := rfl
@[simp] theorem setMark_posted : (s.setMark g m).posted = s.posted := rfl
@[simp] theorem setMark_bitOld : (s.setMark g m).bitOld = s.bitOld := rfl
@[simp] theorem setMark_portOld : (s.setMark g m).portOld = s.portOld := rfl
@[simp] theorem setMark_locks : (s.setMark g m).locks = s.locks := rfl
@[simp] theorem setMark_flags : (s.setMark g m).flags = s.flags := rfl
@[simp] theorem setMark_chans : (s.setMark g m).chans = s.chans := rfl
@[simp] theorem setMark_dlDone : (s.setMark g m).dlDone = s.dlDone := rfl
@[simp] theorem setMark_doms : (s.setMark g m).doms = s.doms := rfl
@[simp] theorem setMark_movers : (s.setMark g m).movers = s.movers := rfl
@[simp] theorem setMark_commons : (s.setMark g m).commons = s.commons := rfl
@[simp] theorem setMark_timers : (s.setMark g m).timers = s.timers := rfl
@[simp] theorem setMark_psqs : (s.setMark g m).psqs = s.psqs := rfl
@[simp] theorem setMark_lanes : (s.setMark g m).lanes = s.lanes := rfl
@[simp] theorem setMark_pins : (s.setMark g m).pins = s.pins := rfl
@[simp] theorem setMark_ports : (s.setMark g m).ports = s.ports := rfl
@[simp] theorem setMark_tdrPin : (s.setMark g m).tdrPin = s.tdrPin := rfl
@[simp] theorem setMark_mbus : (s.setMark g m).mbus = s.mbus := rfl
@[simp] theorem setMark_heads : (s.setMark g m).heads = s.heads := rfl
@[simp] theorem setMark_gleaner : (s.setMark g m).gleaner = s.gleaner := rfl
@[simp] theorem setMark_reports : (s.setMark g m).reports = s.reports := rfl
@[simp] theorem setMark_log : (s.setMark g m).log = s.log := rfl
@[simp] theorem setMark_seq : (s.setMark g m).seq = s.seq := rfl
@[simp] theorem setMark_orders : (s.setMark g m).orders = s.orders := rfl
@[simp] theorem setMark_ordered : (s.setMark g m).ordered = s.ordered := rfl
@[simp] theorem setMark_holdReq : (s.setMark g m).holdReq = s.holdReq := rfl
@[simp] theorem setMark_supply : (s.setMark g m).supply = s.supply := rfl
@[simp] theorem setMark_latch : (s.setMark g m).latch = s.latch := rfl
@[simp] theorem setMark_stage : (s.setMark g m).stage = s.stage := rfl
@[simp] theorem setMark_rdata : (s.setMark g m).rdata = s.rdata := rfl
@[simp] theorem setMark_half : (s.setMark g m).half = s.half := rfl
@[simp] theorem setMark_pending : (s.setMark g m).pending = s.pending := rfl
end
theorem setMark_mark (g x : Nat) (m : EccMark) : (s.setMark g m).mark x = if x = g then m else s.mark x := get_put _ _ _ _

end Sys2Proof.Laws
end

section
/-! SUPPORT. Bit fields and comparisons: the bits that a field write leaves, the bits that the access codes of a register's
fields leave (R7), and comparisons modulo the width (R6). -/
namespace Sys2Proof.Proofs
open Sys2Proof.Machine Sys2Proof.Laws

/-! ### Fields of a word -/

theorem testBit_fld (w : Word) (hi lo j : Nat) : (fld w hi lo).testBit j = (decide (j < hi + 1 - lo) && bit w (lo + j)) := by
  simp [fld, natFld, bit, Nat.testBit_mod_two_pow, Nat.testBit_shiftRight, BitVec.testBit_toNat]

theorem bit_fldMask {hi lo i : Nat} (hi32 : i < 32) : bit (fldMask hi lo) i = (decide (lo ≤ i) && decide (i ≤ hi)) := by
  rw [bit, fldMask, BitVec.getLsbD_ofNat, Nat.testBit_shiftLeft, Nat.testBit_two_pow_sub_one, decide_eq_true hi32,
    Bool.true_and, ← Bool.decide_and, ← Bool.decide_and]
  exact decide_eq_decide.mpr (by omega)

theorem bit_setFld {w : Word} {hi lo v i : Nat} (hi32 : i < 32) :
    bit (setFld w hi lo v) i = if lo ≤ i ∧ i ≤ hi then v.testBit (i - lo) else bit w i := by
  have hm := bit_fldMask (hi := hi) (lo := lo) hi32
  simp only [bit] at hm
  simp only [setFld, bit, BitVec.getLsbD_or, BitVec.getLsbD_and, BitVec.getLsbD_not, hm, BitVec.getLsbD_ofNat,
    Nat.testBit_shiftLeft, hi32, decide_true, Bool.true_and, ge_iff_le]
  by_cases h1 : lo ≤ i <;> by_cases h2 : i ≤ hi <;> simp [h1, h2]

/-! ### Access codes (Table 3) -/

/-- What one field makes of the register's word when `v` is written. -/
def takeField (v w : Word) (f : Fld) : Word :=
  match f.acc with
  | .rw => setFld w f.hi f.lo (fld v f.hi f.lo)
  | .w1c => w &&& ~~~ (v &&& fldMask f.hi f.lo)
  | .w1s => w ||| (v &&& fldMask f.hi f.lo)
  | .ro => w
  | .wo => w

/-- What a field of an access code makes of one of its bits: `c` the bit held, `b` the bit written. -/
def accessBit (a : Access) (c b : Bool) : Bool :=
  match a with
  | .rw => b
  | .w1c => c && !b
  | .w1s => c || b
  | .ro => c
  | .wo => c

theorem applyFields_cons (f : Fld) (fs : List Fld) (cur v : Word) :
    applyFields (f :: fs) cur v = applyFields fs (takeField v cur f) v := by
  unfold applyFields takeField
  rw [List.foldl_cons]
  cases f.acc <;> rfl

theorem bit_takeField {v w : Word} {f : Fld} {i : Nat} (hi32 : i < 32) :
    bit (takeField v w f) i = if f.lo ≤ i ∧ i ≤ f.hi then accessBit f.acc (bit w i) (bit v i) else bit w i := by
  have hm := bit_fldMask (hi := f.hi) (lo := f.lo) hi32
  unfold takeField accessBit
  simp only [bit] at hm ⊢
  cases f.acc with
  | rw =>
    refine (bit_setFld hi32).trans ?_
    by_cases h : f.lo ≤ i ∧ i ≤ f.hi
    · simp [h, testBit_fld, bit, show i - f.lo < f.hi + 1 - f.lo by omega]
    · simp [h, bit]
  | w1c =>
    rw [BitVec.getLsbD_and, BitVec.getLsbD_not, BitVec.getLsbD_and, hm]
    by_cases h1 : f.lo ≤ i <;> by_cases h2 : i ≤ f.hi <;> simp [h1, h2, hi32]
  | w1s =>
    rw [BitVec.getLsbD_or, BitVec.getLsbD_and, hm]
    by_cases h1 : f.lo ≤ i <;> by_cases h2 : i ≤ f.hi <;> simp [h1, h2]
  | ro => simp
  | wo => simp

theorem bit_applyFields_outside {fs : List Fld} {cur v : Word} {i : Nat} (hi32 : i < 32)
    (h : ∀ f ∈ fs, i < f.lo ∨ f.hi < i) : bit (applyFields fs cur v) i = bit cur i := by
  induction fs generalizing cur with
  | nil => rfl
  | cons f fs ih =>
    have hf := h f List.mem_cons_self
    rw [applyFields_cons, ih fun g hg => h g (List.mem_cons_of_mem f hg), bit_takeField hi32, if_neg (by omega)]

/-- Two fields of one register: they share no bit, or neither can be written. -/
def apart (f g : Fld) : Bool := decide (f.hi < g.lo) || decide (g.hi < f.lo) || (f.acc == .ro && g.acc == .ro)

theorem apart_iff (f g : Fld) : apart f g = true ↔ f.hi < g.lo ∨ g.hi < f.lo ∨ (f.acc = .ro ∧ g.acc = .ro) := by
  simp [apart, or_assoc]

theorem bit_applyFields_ro {fs : List Fld} {cur v : Word} {i : Nat} (hi32 : i < 32)
    (h : ∀ f ∈ fs, (i < f.lo ∨ f.hi < i) ∨ f.acc = .ro) : bit (applyFields fs cur v) i = bit cur i := by
  induction fs generalizing cur with
  | nil => rfl
  | cons f fs ih =>
    rw [applyFields_cons, ih fun g hg => h g (List.mem_cons_of_mem f hg), bit_takeField hi32]
    split
    · rcases h f List.mem_cons_self with hf | hf
      · omega
      · rw [hf]; rfl
    · rfl

theorem bit_applyFields {fs : List Fld} {cur v : Word} {i : Nat} (hi32 : i < 32)
    (ha : fs.Pairwise fun f g => apart f g = true) {f : Fld}
    (hf : f ∈ fs) (h1 : f.lo ≤ i) (h2 : i ≤ f.hi) : bit (applyFields fs cur v) i = accessBit f.acc (bit cur i) (bit v i) := by
  induction fs generalizing cur with
  | nil => cases hf
  | cons g fs ih =>
    obtain ⟨hg, ha'⟩ := List.pairwise_cons.mp ha
    rw [applyFields_cons]
    rcases List.mem_cons.mp hf with rfl | hmem
    · have rest : ∀ x ∈ fs, (i < x.lo ∨ x.hi < i) ∨ (x.acc = .ro ∧ f.acc = .ro) := by
        intro x hx
        rcases (apart_iff _ _).mp (hg x hx) with h | h | h
        · exact .inl (by omega)
        · exact .inl (by omega)
        · exact .inr ⟨h.2, h.1⟩
      rw [bit_applyFields_ro hi32 fun x hx => (rest x hx).imp_right And.left, bit_takeField hi32, if_pos ⟨h1, h2⟩]
    · rw [ih ha' hmem, bit_takeField hi32]
      split
      · rcases (apart_iff _ _).mp (hg f hmem) with h | h | h
        · omega
        · omega
        · rw [h.1, h.2]; rfl
      · rfl

theorem fields_apart (r : Reg) : r.fields.Pairwise fun f g => apart f g = true := by
  cases r <;> simp only [Reg.fields] <;> decide

/-! ### Comparisons (R6) -/

/-- The highest bit of a difference tells whether it lies in the upper half of the range. -/
theorem atOrAfter_iff {n : Nat} (a b : BitVec n) : atOrAfter a b = true ↔ (a - b).toNat < 2 ^ (n - 1) := by
  rw [atOrAfter, Bool.not_eq_true', BitVec.msb_eq_false_iff_two_mul_lt]
  cases n with
  | zero => simp [BitVec.of_length_zero]
  | succ n => rw [Nat.add_sub_cancel, Nat.pow_succ]; omega

theorem after_iff {n : Nat} (a b : BitVec n) : after a b = true ↔ atOrAfter a b = true ∧ a ≠ b := by
  rw [after, Bool.and_eq_true, bne_iff_ne]

/-- Settles O36: the highest bit of the difference is what the comparison looks at. -/
theorem comparisonsAreModuloTheWidth : Obligations.ComparisonsAreModuloTheWidth := by
  intro n a b _
  refine ⟨?_, after_iff a b⟩
  rw [atOrAfter_iff, BitVec.toNat_sub, Nat.add_comm]

end Sys2Proof.Proofs
end

section
/-! SUPPORT. The block's memory: which key serves an access (R194), what a write of bytes leaves at each byte, and that no
handling of error marks touches the bytes (R189 to R191). -/
namespace Sys2Proof.Proofs
open Sys2Proof.Machine Sys2Proof.Laws

/-! ### What the handling of marks leaves -/

/-- The store key that serves an access to `k` while the Gleaner is as `g` says (R194). -/
def servedAt (g : Gleaner) (k : Nat) : Nat :=
  let base := (regionSpan g.reg).1 + 256 * g.win
  if (g.ph = .test ∨ g.ph = .restore) ∧ (decide (base ≤ k) && decide (k < base + 256)) then gshadowKey (k - base) else k

theorem phys_eq_servedAt (s : State) (k : Nat) : s.phys k = servedAt s.gleaner k := rfl

theorem phys_of_gleaner {s t : State} (h : t.gleaner = s.gleaner) (k : Nat) : t.phys k = s.phys k := by
  rw [phys_eq_servedAt, phys_eq_servedAt, h]

/-- The stored bytes, chip memory, and the place that serves each key are the same. -/
structure SameStore (s t : State) : Prop where
  ram : t.ram = s.ram
  chip : t.chip = s.chip
  phys : ∀ k, t.phys k = s.phys k
  base : t.gleanBase = s.gleanBase

theorem SameStore.refl (s : State) : SameStore s s := ⟨rfl, rfl, fun _ => rfl, rfl⟩

theorem SameStore.trans {a b c : State} (h : SameStore a b) (k : SameStore b c) : SameStore a c :=
  ⟨k.ram.trans h.ram, k.chip.trans h.chip, fun x => (k.phys x).trans (h.phys x), k.base.trans h.base⟩

theorem SameStore.byteAt {s t : State} (h : SameStore s t) (k : Nat) : t.byteAt k = s.byteAt k := by
  unfold State.byteAt State.cell
  rw [h.phys, h.ram]

theorem ite_sameStore {p : Prop} [Decidable p] {s a b : State} (ha : SameStore s a) (hb : SameStore s b) :
    SameStore s (if p then a else b) := by
  split
  · exact ha
  · exact hb

theorem foldl_sameStore {α : Type} {f : State → α → State} (hf : ∀ s x, SameStore s (f s x)) (l : List α) (s : State) :
    SameStore s (l.foldl f s) := by
  induction l generalizing s with
  | nil => exact .refl s
  | cons x l ih => exact (hf s x).trans (ih _)

theorem setReg_sameStore (s : State) (r : Reg) (v : Word) : SameStore s (s.setReg r v) := ⟨rfl, rfl, fun _ => rfl, rfl⟩

theorem setMark_sameStore (s : State) (g : Nat) (m : EccMark) : SameStore s (s.setMark g m) := ⟨rfl, rfl, fun _ => rfl, rfl⟩

/-- The end of a test leaves the shadow in use until the restore is over. -/
theorem yield_sameStore (s : State) (k n : Nat) : SameStore s (s.yield k n) := by
  unfold State.yield
  split
  · rename_i h
    refine ⟨rfl, rfl, fun j => ?_, rfl⟩
    have hph : ∀ g : Gleaner, g.ph = .test → servedAt { g with ph := .restore, yielded := true } j = servedAt g j := by
      intro g hg
      simp [servedAt, hg]
    exact hph s.gleaner h.1
  · exact .refl s

theorem scrubs_sameStore (s : State) (l : List Nat) : SameStore s { s with scrubs := l } := ⟨rfl, rfl, fun _ => rfl, rfl⟩

theorem bump_sameStore (s : State) (r : Reg) (k : Nat) : SameStore s (s.bump r k) := setReg_sameStore s r _

theorem writeMarks_sameStore (s : State) (k n : Nat) : SameStore s (s.writeMarks k n) := by
  refine foldl_sameStore (fun s g => ?_) _ s
  have counted : SameStore s (if s.mark g = .fixable ∧ partGran k n g then
      (s.bump (.cpxEccnt ((regionOf g).elim 7 Prod.fst)) 1).noteCe else s) := by
    split
    · exact (bump_sameStore s _ _).trans (bump_sameStore _ _ _)
    · exact .refl s
  refine counted.trans ?_
  generalize (if s.mark g = .fixable ∧ partGran k n g then _ else s) = u
  have marked := (setMark_sameStore u g (if u.mark g = .bad ∧ partGran k n g then .bad else .clean)).trans
    (scrubs_sameStore _ (u.scrubs.filter (· != g)))
  exact marked.trans (ite_sameStore ((setMark_sameStore _ g _).trans (setReg_sameStore _ .cpxEinj _)) (.refl _))

/-! ### The key that serves an access -/

theorem phys_eq_iff {s : State} (hw : WindowFits s) {j k : Nat} (hj : j < 0x1010000) (hk : k < 0x1010000) :
    s.phys j = s.phys k ↔ j = k := by
  unfold State.phys State.inWindow gshadowKey
  have fits : s.gleanBase + 256 ≤ 0x1010000 := hw
  simp only [Bool.and_eq_true, decide_eq_true_eq]
  by_cases ht : s.gleaner.ph = .test ∨ s.gleaner.ph = .restore
  · simp only [ht, true_and]
    split <;> split <;> omega
  · simp only [ht, false_and, if_false]

theorem phys_of_copy {s : State} (h : s.gleaner.ph = .copy) (k : Nat) : s.phys k = k := by
  simp [State.phys, h]

/-! ### Stores -/

theorem putByte_gleaner (s : State) (k : Nat) (b : Byte) : (s.putByte k b).gleaner = s.gleaner := by
  unfold State.putByte
  dsimp only
  split <;> rfl

theorem putByte_chip (s : State) (k : Nat) (b : Byte) : (s.putByte k b).chip = s.chip := by
  unfold State.putByte
  dsimp only
  split <;> rfl

theorem windowFits_of_base {s t : State} (h : t.gleanBase = s.gleanBase) (hw : WindowFits s) : WindowFits t := by
  unfold WindowFits at *
  rwa [h]

/-- A byte stored is what an access to its key reads; the copy that R194 asks for lies in the shadow and hides no other. -/
theorem putByte_byteAt {s : State} (hw : WindowFits s) {j k : Nat} (hj : j < 0x1010000) (hk : k < 0x1010000) (b : Byte) :
    (s.putByte k b).byteAt j = if j = k then b else s.byteAt j := by
  unfold State.byteAt
  rw [phys_of_gleaner (putByte_gleaner s k b)]
  unfold State.putByte
  dsimp only
  split
  · rename_i h
    have hs : j ≠ gshadowKey (k - s.gleanBase) := by unfold gshadowKey; omega
    rw [phys_of_copy h.1, phys_of_copy h.1, setCell_cell, setCell_cell, if_neg hs]
  · rw [setCell_cell]
    exact if_congr (phys_eq_iff hw hj hk) rfl rfl

theorem putBytes_byteAt {s : State} (hw : WindowFits s) {j k : Nat} {bs : List Byte} (hj : j < 0x1010000)
    (hk : k + bs.length ≤ 0x1010000) :
    (s.putBytes k bs).byteAt j = if k ≤ j ∧ j < k + bs.length then bs.getD (j - k) 0 else s.byteAt j := by
  induction bs generalizing s k with
  | nil => rw [if_neg (by simp)]; rfl
  | cons b bs ih =>
    rw [List.length_cons] at hk
    have hw' : WindowFits (s.putByte k b) :=
      windowFits_of_base (by simp only [State.gleanBase, putByte_gleaner]) hw
    rw [State.putBytes, ih hw' (by omega), putByte_byteAt hw hj (by omega), List.length_cons]
    rcases Nat.lt_trichotomy j k with h | rfl | h
    · rw [if_neg (by omega), if_neg (by omega), if_neg (by omega)]
    · rw [if_neg (by omega), if_pos rfl, if_pos (by omega), Nat.sub_self, List.getD_cons_zero]
    · obtain ⟨i, rfl⟩ : ∃ i, j = k + 1 + i := ⟨j - (k + 1), by omega⟩
      rw [if_neg (by omega : k + 1 + i ≠ k), show k + 1 + i - k = i + 1 by omega, List.getD_cons_succ,
        show k + 1 + i - (k + 1) = i by omega]
      exact if_congr (by omega) rfl rfl

theorem putBytes_chip (s : State) (k : Nat) (bs : List Byte) : (s.putBytes k bs).chip = s.chip := by
  induction bs generalizing s k with
  | nil => rfl
  | cons b bs ih => rw [State.putBytes, ih, putByte_chip]

theorem marked_sameStore (s : State) (k n : Nat) : SameStore s ((s.yield k n).writeMarks k n) :=
  (yield_sameStore s k n).trans (writeMarks_sameStore _ k n)

theorem memWrite_byteAt {s : State} (hw : WindowFits s) {j k : Nat} {bs : List Byte} (hj : j < 0x1010000)
    (hk : k + bs.length ≤ 0x1010000) :
    (s.memWrite k bs).byteAt j = if k ≤ j ∧ j < k + bs.length then bs.getD (j - k) 0 else s.byteAt j := by
  have hm := marked_sameStore s k bs.length
  rw [State.memWrite, putBytes_byteAt (windowFits_of_base hm.base hw) hj hk, hm.byteAt]

theorem memWrite_chip (s : State) (k : Nat) (bs : List Byte) : (s.memWrite k bs).chip = s.chip := by
  rw [State.memWrite, putBytes_chip, (marked_sameStore s k bs.length).chip]

/-! ### Words (R3) -/

theorem toBytes_length (n v : Nat) : (toBytes n v).length = n := by
  induction n generalizing v with
  | zero => rfl
  | succ n ih => rw [toBytes, List.length_cons, ih]

theorem ofBytes_toBytes (n v : Nat) : ofBytes (toBytes n v) = v % 256 ^ n := by
  induction n generalizing v with
  | zero => simp [toBytes, ofBytes, Nat.mod_one]
  | succ n ih =>
    rw [toBytes, ofBytes, ih, BitVec.toNat_ofNat, Nat.shiftRight_eq_div_pow]
    change v % 256 + 256 * (v / 256 % 256 ^ n) = v % 256 ^ (n + 1)
    rw [Nat.pow_succ', Nat.mod_mul]

theorem bytesAt_eq {s : State} {k : Nat} {bs : List Byte} (h : ∀ i, i < bs.length → s.byteAt (k + i) = bs.getD i 0) :
    s.bytesAt k bs.length = bs := by
  unfold State.bytesAt upto
  refine List.ext_getElem (by simp) fun i h1 h2 => ?_
  rw [List.getElem_map, List.getElem_range, h i h2, List.getD_eq_getElem _ _ h2]

theorem setWord_word {s : State} (hw : WindowFits s) {k : Nat} (hk : k + 4 ≤ 0x1010000) (w : Word) :
    (s.setWord k w).word k = w := by
  have hl : (toBytes 4 w.toNat).length = 4 := toBytes_length 4 w.toNat
  have hb : (s.setWord k w).bytesAt k 4 = toBytes 4 w.toNat := by
    rw [← hl, State.setWord]
    refine bytesAt_eq fun i hi => ?_
    rw [memWrite_byteAt hw (by omega) (by omega), if_pos ⟨by omega, by omega⟩, Nat.add_sub_cancel_left]
  rw [State.word, hb, ofBytes_toBytes]
  exact BitVec.eq_of_toNat_eq (by simp [Nat.mod_eq_of_lt w.isLt])

/-- Settles O25: each byte of a write is stored where an access to it is served, and nothing else is. -/
theorem memoryReadsBackWhatIsWritten : Obligations.MemoryReadsBackWhatIsWritten :=
  ⟨fun _ _ _ _ hw hk hj => memWrite_byteAt hw hj hk,
   fun s k bs => ⟨(memWrite_still k bs (Still.refl s)).ram, memWrite_chip s k bs⟩,
   fun _ _ w hw hk => setWord_word hw hk w,
   fun s a b x => ⟨setChip_chipByte s a b x, fun h => wf_put a x h⟩⟩

end Sys2Proof.Proofs
end

section
/-! SUPPORT. Two claims that fail on a register store that lists a register's default: the write of a command register stores
the register's word again, and so drops the entry. -/
namespace Sys2Proof.Proofs
open Sys2Proof.Machine Sys2Proof.Laws

/-- The register store that a command leaves. -/
def regsAfter (c : Instr) (s : State) : Tab Word :=
  match exec c s with
  | .next t => t.regs
  | _ => s.regs

theorem regsAfter_of_next {c : Instr} {s t : State} (h : exec c s = .next t) : regsAfter c s = t.regs := by
  unfold regsAfter
  rw [h]

/-- The reset state, but its store lists `r` at the word that an unlisted register holds (the canonical form lists no such pair). -/
def listsDefault (r : Reg) : State := { State.reset with regs := [(r.off, 0)] }

/-- Refutes O43: where the store lists CLK_EVSET of word 0 at its default, EVENT_FLAG_SET_HOST writes the register's word again
and the entry goes, though the claim says that nothing but the flags changes: it lacks the hypothesis that the store is canonical. -/
theorem not_hostFlagAndChannelCommandsAct : ¬ Obligations.HostFlagAndChannelCommandsAct := by
  intro h
  let s := listsDefault (.clkEvset 0 0)
  obtain ⟨t, he, ht, -⟩ := h.1 ⟨.host, false⟩ 0 0 0 0 0 s ⟨by decide, by decide, by decide⟩
  have kept : t.regs = s.regs := by rw [ht]
  have gone : regsAfter (.eventFlagSetHost ⟨.host, false⟩ 0 0 0) s = [] := by decide
  rw [← regsAfter_of_next he, gone] at kept
  exact absurd kept (by decide)

/-- Refutes O52: where the store lists TMR_TRIG of channel 0 at its default, TIMER_TRIGGER_GO of a channel that is not live writes
the register's word again and the entry goes, though the claim says that nothing changes: it lacks the hypothesis that the store is
canonical. -/
theorem not_timerWritesConfigureTheChannel : ¬ Obligations.TimerWritesConfigureTheChannel := by
  intro h
  obtain ⟨-, -, -, -, -, -, -, idle, -⟩ := h
  let s := listsDefault (.tmrTrig 0)
  have he := idle ⟨.host, false⟩ 0 s ⟨by decide, by decide⟩ (.inl (by decide))
  have gone : regsAfter (.timerTriggerGo ⟨.host, false⟩ 0) s = [] := by decide
  rw [regsAfter_of_next he] at gone
  exact absurd gone (by decide)

end Sys2Proof.Proofs
end

section
/-! SUPPORT. The register map: on every page of the window, the register at a register's own offset is that register. -/
namespace Sys2Proof.Proofs
open Sys2Proof.Machine Sys2Proof.Laws

/-- The pages of the register window (Tables 13 and 14). -/
inductive Page where
  | cpx | swd | cmn | flt | pwr | hdg | shf | glk | mbu | core | psq | clk
deriving DecidableEq

/-- The page that a register stands on. -/
def pageOf : Reg → Page
  | .fastLast _ | .cpxCtl | .cpxStat | .cpxId | .cpxAwin _ | .cpxEccnt _ | .cpxUerec | .cpxGctl | .cpxGstat | .cpxGyield
  | .cpxGfail | .cpxEinj | .cpxSwipe | .cpxTdrctl | .cpxTdrres | .cpxGchsel | .cpxGchdata => .cpx
  | .swdCtl _ | .swdPeriod _ | .swdStart _ _ | .swdNumbase _ | .swdNum _ | .swdBtime _ _ | .swdStat _ | .ldgMbud _
  | .ldgLstat _ | .ldgLswn _ | .ldgLatecnt _ | .ldgGracecnt _ | .ldgSkipcnt _ | .ldgWorst _ | .ldgWorstt _ | .ldgTabid _
  | .ldgLmap _ _ | .ldgTbud _ => .swd
  | .cmnTime _ | .cmnEra | .cmnLera | .cmnIncf | .cmnInci | .cmnRadj | .cmnSlew | .cmnSlewper | .cmnStep | .cmnSteplim
  | .cmnStat | .cmnSync | .cmnSrv | .cmnStepcnt | .tmrCtl _ | .tmrStat _ | .tmrCmp _ _ | .tmrIvl _ _ | .tmrLast _ _
  | .tmrCap _ _ | .tmrTrig _ | .tmrFires _ => .cmn
  | .fltStat | .fltRec0 | .fltRda | .fltRdb | .fltRtime _ | .fltRseq | .fltPop | .fltCfgrej | .fltCfgadr | .fltCnt _ | .sorPend
  | .sorCtl _ | .sorSrc _ | .sorAct _ | .sorPmov _ | .sorPins _ _ | .sorStat _ | .sorXtime _ _ => .flt
  | .pwrDzcfg _ | .pwrDzstat _ | .pwrDzcnt _ _ | .pwrSmcfg _ | .pwrSmthr _ | .pwrSmval _ | .pwrSmext _ => .pwr
  | .hdgCfg _ | .hdgSlot _ _ | .hdgIo _ => .hdg
  | .shfCtx _ | .shfCst _ | .shfCres _ | .shfStat | .shfCnt _ | .shfWsweep => .shf
  | .glkDlstat | .glkDlcnt | .glkLkrel | .glkChcmd | .glkDlmap _ | .glkChstat _ | .glkWgmap _ _ | .glkLock _ => .glk
  | .mbuCtl _ | .mbuLink _ | .mbuRxcfg _ | .mbuRxbase _ | .mbuRxhead _ | .mbuIlat _ | .mbuElat _ | .mbuAsym _ | .mbuSdlat _
  | .mbuFwd _ | .mbuAn _ | .mbuLp _ | .mbuTdrctl _ | .mbuTdrres _ | .mbuCnt _ _ | .mbuSplCtl _ _ | .mbuSplAddr _ _
  | .mbuSplMval _ _ | .mbuSplMmask _ _ | .mbuFqcfg _ _ | .mbuFqst _ _ => .mbu
  | .coreStat _ | .coreIcbase _ | .coreEmpty _ | .coreSpillcnt _ | .coreTcmd _ | .coreSlot _ _ | .coreTctl _ _ | .coreTstat _ _
  | .corePc _ _ | .coreWin _ _ | .coreEvv _ _ | .coreEvsel _ _ | .coreEvcfg _ _ | .coreTfault _ _ | .coreTfpc _ _
  | .coreTissue _ _ | .coreTsbstall _ _ | .coreDbgcmd _ | .coreDsr _ | .coreDsrd _ _ | .coreBpc _ _ | .coreBpa _ _
  | .coreHcause _ _ => .core
  | .psqCtl _ | .psqCmd _ | .psqStat _ | .psqPc _ | .psqFlt _ | .psqTrig _ | .psqPaddr _ | .psqPdata _ | .psqActLo _
  | .psqActHi _ | .psqAst _ | .psqAcnt _ | .psqAexec _ | .psqEcc _ | .psqRfx _ _ | .psqCnt _ _ | .psqCntv _ | .psqV _ _
  | .psqShcfg _ _ | .psqSh _ _ _ | .psqLcfg _ _ | .psqCap _ _ _ | .psqCapst _ _ => .psq
  | .clkEvf _ _ | .clkEvset _ _ | .clkEvclr _ _ | .clkEvthr _ _ | .clkLkrel _ | .clkChcmd _ | .clkChstat _ _ | .clkLock _ _
  | .clkChdata _ _ _ => .clk

/-- The codes that FLT_CNT counts are below 0x80. -/
theorem lt_of_fltCounted {k : Nat} (h : fltCounted.contains k = true) : k < 0x80 := by
  have all : ∀ k ∈ fltCounted, k < 0x80 := by decide
  exact all k (List.contains_iff_mem.mp h)

theorem regAt_cpx {o : Nat} (hi : o < 0x1000) : regAt o = cpxReg o := by
  unfold regAt
  exact if_pos hi

theorem regAt_swd {o : Nat} (lo : 0x1000 ≤ o) (hi : o < 0x2000) : regAt o = swdReg o := by
  unfold regAt
  repeat refine (if_neg (by omega)).trans ?_
  exact if_pos hi

theorem regAt_cmn {o : Nat} (lo : 0x2000 ≤ o) (hi : o < 0x3000) : regAt o = cmnReg o := by
  unfold regAt
  repeat refine (if_neg (by omega)).trans ?_
  exact if_pos hi

theorem regAt_flt {o : Nat} (lo : 0x3000 ≤ o) (hi : o < 0x4000) : regAt o = fltReg o := by
  unfold regAt
  repeat refine (if_neg (by omega)).trans ?_
  exact if_pos hi

theorem regAt_pwr {o : Nat} (lo : 0x4000 ≤ o) (hi : o < 0x5000) : regAt o = pwrReg o := by
  unfold regAt
  repeat refine (if_neg (by omega)).trans ?_
  exact if_pos hi

theorem regAt_hdg {o : Nat} (lo : 0x5000 ≤ o) (hi : o < 0x6000) : regAt o = hdgReg o := by
  unfold regAt
  repeat refine (if_neg (by omega)).trans ?_
  exact if_pos hi

theorem regAt_shf {o : Nat} (lo : 0x6000 ≤ o) (hi : o < 0x7000) : regAt o = shfReg o := by
  unfold regAt
  repeat refine (if_neg (by omega)).trans ?_
  exact if_pos hi

theorem regAt_glk {o : Nat} (lo : 0x7000 ≤ o) (hi : o < 0x8000) : regAt o = glkReg o := by
  unfold regAt
  repeat refine (if_neg (by omega)).trans ?_
  exact if_pos hi

theorem regAt_mbu {m o : Nat} (hm : m < 16) (lo : mbuBase m ≤ o) (hi : o < mbuBase m + 0x1000) :
    regAt o = mbuReg m (o - mbuBase m) := by
  unfold mbuBase at *
  have hq : (o - 0x10000) / 0x1000 = m := by omega
  have hr : o % 0x1000 = o - (0x10000 + 0x1000 * m) := by omega
  unfold regAt
  repeat refine (if_neg (by omega)).trans ?_
  rw [if_pos (by omega), hq, hr]

theorem regAt_core {n o : Nat} (hn : n < 32) (lo : coreBase n ≤ o) (hi : o < coreBase n + 0x1000) :
    regAt o = coreReg n (o - coreBase n) := by
  unfold coreBase at *
  have hq : 4 * ((o - 0x20000) / 0x10000) + o % 0x10000 / 0x1000 = n := by omega
  have hr : o % 0x10000 % 0x1000 = o - (0x20000 + 0x10000 * (n / 4) + 0x1000 * (n % 4)) := by omega
  unfold regAt
  repeat refine (if_neg (by omega)).trans ?_
  rw [if_pos (by omega)]
  dsimp only
  rw [if_pos (by omega), hq, hr]

theorem regAt_psq {q o : Nat} (hq : q < 64) (lo : psqBase q ≤ o) (hi : o < psqBase q + 0x400) :
    regAt o = psqReg q (o - psqBase q) := by
  unfold psqBase at *
  have hn : 8 * ((o - 0x20000) / 0x10000) + (o % 0x10000 - 0x8000) / 0x400 = q := by omega
  have hr : o % 0x10000 % 0x400 = o - (0x28000 + 0x10000 * (q / 8) + 0x400 * (q % 8)) := by omega
  unfold regAt
  repeat refine (if_neg (by omega)).trans ?_
  rw [if_pos (by omega)]
  dsimp only
  rw [if_neg (by omega), if_pos (by omega), hn, hr]

theorem regAt_clk {c o : Nat} (hc : c < 8) (lo : clkBase c ≤ o) (hi : o < clkBase c + 0x1000) :
    regAt o = clkReg c (o - clkBase c) := by
  unfold clkBase at *
  have hn : (o - 0x20000) / 0x10000 = c := by omega
  have hr : o % 0x10000 % 0x1000 = o - (0x2C000 + 0x10000 * c) := by omega
  unfold regAt
  repeat refine (if_neg (by omega)).trans ?_
  rw [if_pos (by omega)]
  dsimp only
  rw [if_neg (by omega), if_neg (by omega), if_pos (by omega), hn, hr]

theorem regAt_off_cpx {r : Reg} {o : Nat} (hp : pageOf r = .cpx) (hr : r.inRange = true) (ho : r.off = o) (h : 0x100 ≤ o) :
    regAt o = some r := by
  cases r <;> cases hp
  all_goals simp only [Reg.off] at ho
  all_goals simp only [Reg.inRange, decide_eq_true_eq] at hr
  case fastLast d => omega
  all_goals rw [regAt_cpx (by omega)]; unfold cpxReg
  all_goals repeat refine (if_neg (by omega)).trans ?_
  all_goals refine (if_pos (by omega)).trans ?_
  all_goals congr <;> omega

theorem regAt_off_swd {r : Reg} {o : Nat} (hp : pageOf r = .swd) (hr : r.inRange = true) (ho : r.off = o) :
    regAt o = some r := by
  cases r <;> cases hp
  all_goals simp only [Reg.off] at ho
  all_goals simp only [Reg.inRange, Bool.and_eq_true, decide_eq_true_eq] at hr
  all_goals rw [regAt_swd (by omega) (by omega)]; unfold swdReg
  all_goals repeat refine (if_neg (by omega)).trans ?_
  all_goals refine (if_pos (by omega)).trans ?_
  all_goals congr <;> omega

theorem regAt_off_cmn {r : Reg} {o : Nat} (hp : pageOf r = .cmn) (hr : r.inRange = true) (ho : r.off = o) :
    regAt o = some r := by
  cases r <;> cases hp
  all_goals simp only [Reg.off] at ho
  all_goals simp only [Reg.inRange, Bool.and_eq_true, decide_eq_true_eq] at hr
  all_goals rw [regAt_cmn (by omega) (by omega)]; unfold cmnReg
  all_goals repeat refine (if_neg (by omega)).trans ?_
  all_goals refine (if_pos (by omega)).trans ?_
  all_goals congr <;> omega

theorem regAt_off_flt {r : Reg} {o : Nat} (hp : pageOf r = .flt) (hr : r.inRange = true) (ho : r.off = o) :
    regAt o = some r := by
  cases r <;> cases hp
  all_goals simp only [Reg.off] at ho
  case fltCnt k =>
    have hk := lt_of_fltCounted hr
    rw [regAt_flt (by omega) (by omega)]
    unfold fltReg
    repeat refine (if_neg (by omega)).trans ?_
    have hd : (o - 0x3100) / 0x4 = k := by omega
    rw [hd, if_pos ⟨by omega, by omega, by omega, hr⟩]
  all_goals simp only [Reg.inRange, Bool.and_eq_true, decide_eq_true_eq] at hr
  all_goals rw [regAt_flt (by omega) (by omega)]; unfold fltReg
  all_goals repeat refine (if_neg (by omega)).trans ?_
  all_goals refine (if_pos (by omega)).trans ?_
  all_goals congr <;> omega

theorem regAt_off_pwr {r : Reg} {o : Nat} (hp : pageOf r = .pwr) (hr : r.inRange = true) (ho : r.off = o) :
    regAt o = some r := by
  cases r <;> cases hp
  all_goals simp only [Reg.off] at ho
  all_goals simp only [Reg.inRange, Bool.and_eq_true, decide_eq_true_eq] at hr
  all_goals rw [regAt_pwr (by omega) (by omega)]; unfold pwrReg
  all_goals repeat refine (if_neg (by omega)).trans ?_
  all_goals refine (if_pos (by omega)).trans ?_
  all_goals congr <;> omega

theorem regAt_off_hdg {r : Reg} {o : Nat} (hp : pageOf r = .hdg) (hr : r.inRange = true) (ho : r.off = o) :
    regAt o = some r := by
  cases r <;> cases hp
  all_goals simp only [Reg.off] at ho
  all_goals simp only [Reg.inRange, Bool.and_eq_true, decide_eq_true_eq] at hr
  all_goals rw [regAt_hdg (by omega) (by omega)]; unfold hdgReg
  all_goals repeat refine (if_neg (by omega)).trans ?_
  all_goals refine (if_pos (by omega)).trans ?_
  all_goals congr <;> omega

theorem regAt_off_shf {r : Reg} {o : Nat} (hp : pageOf r = .shf) (hr : r.inRange = true) (ho : r.off = o) :
    regAt o = some r := by
  cases r <;> cases hp
  all_goals simp only [Reg.off] at ho
  all_goals simp only [Reg.inRange, decide_eq_true_eq] at hr
  all_goals rw [regAt_shf (by omega) (by omega)]; unfold shfReg
  all_goals repeat refine (if_neg (by omega)).trans ?_
  all_goals refine (if_pos (by omega)).trans ?_
  all_goals congr <;> omega

theorem regAt_off_glk {r : Reg} {o : Nat} (hp : pageOf r = .glk) (hr : r.inRange = true) (ho : r.off = o) :
    regAt o = some r := by
  cases r <;> cases hp
  all_goals simp only [Reg.off] at ho
  all_goals simp only [Reg.inRange, Bool.and_eq_true, decide_eq_true_eq] at hr
  all_goals rw [regAt_glk (by omega) (by omega)]; unfold glkReg
  all_goals repeat refine (if_neg (by omega)).trans ?_
  all_goals refine (if_pos (by omega)).trans ?_
  all_goals congr <;> omega

theorem regAt_off_mbu {r : Reg} {o : Nat} (hp : pageOf r = .mbu) (hr : r.inRange = true) (ho : r.off = o) :
    regAt o = some r := by
  cases r <;> cases hp
  all_goals simp only [Reg.off] at ho
  all_goals replace hr := And.intro hr trivial
  all_goals simp only [Reg.inRange, Bool.and_eq_true, decide_eq_true_eq, and_assoc] at hr
  all_goals obtain ⟨hn, hr⟩ := hr
  all_goals rw [regAt_mbu hn (by omega) (by omega)]; unfold mbuReg
  all_goals repeat refine (if_neg (by omega)).trans ?_
  all_goals refine (if_pos (by omega)).trans ?_
  all_goals congr <;> omega

theorem regAt_off_core {r : Reg} {o : Nat} (hp : pageOf r = .core) (hr : r.inRange = true) (ho : r.off = o) :
    regAt o = some r := by
  cases r <;> cases hp
  all_goals simp only [Reg.off] at ho
  all_goals replace hr := And.intro hr trivial
  all_goals simp only [Reg.inRange, Bool.and_eq_true, decide_eq_true_eq, and_assoc] at hr
  all_goals obtain ⟨hn, hr⟩ := hr
  all_goals rw [regAt_core hn (by omega) (by omega)]; unfold coreReg
  all_goals repeat refine (if_neg (by omega)).trans ?_
  all_goals refine (if_pos (by omega)).trans ?_
  all_goals congr <;> omega

theorem regAt_off_psq {r : Reg} {o : Nat} (hp : pageOf r = .psq) (hr : r.inRange = true) (ho : r.off = o) :
    regAt o = some r := by
  cases r <;> cases hp
  all_goals simp only [Reg.off] at ho
  all_goals replace hr := And.intro hr trivial
  all_goals simp only [Reg.inRange, Bool.and_eq_true, decide_eq_true_eq, and_assoc] at hr
  all_goals obtain ⟨hn, hr⟩ := hr
  all_goals rw [regAt_psq hn (by omega) (by omega)]; unfold psqReg
  all_goals repeat refine (if_neg (by omega)).trans ?_
  all_goals refine (if_pos (by omega)).trans ?_
  all_goals congr <;> omega

theorem regAt_off_clk {r : Reg} {o : Nat} (hp : pageOf r = .clk) (hr : r.inRange = true) (ho : r.off = o) :
    regAt o = some r := by
  cases r <;> cases hp
  all_goals simp only [Reg.off] at ho
  all_goals replace hr := And.intro hr trivial
  all_goals simp only [Reg.inRange, Bool.and_eq_true, decide_eq_true_eq, and_assoc] at hr
  all_goals obtain ⟨hn, hr⟩ := hr
  all_goals rw [regAt_clk hn (by omega) (by omega)]; unfold clkReg
  all_goals repeat refine (if_neg (by omega)).trans ?_
  all_goals refine (if_pos (by omega)).trans ?_
  all_goals congr <;> omega

/-- Every register of the block stands at its own offset (R27). -/
theorem regAt_off {r : Reg} (hr : r.inRange = true) (h : 0x100 ≤ r.off) : regAt r.off = some r := by
  cases hp : pageOf r with
  | cpx => exact regAt_off_cpx hp hr rfl h
  | swd => exact regAt_off_swd hp hr rfl
  | cmn => exact regAt_off_cmn hp hr rfl
  | flt => exact regAt_off_flt hp hr rfl
  | pwr => exact regAt_off_pwr hp hr rfl
  | hdg => exact regAt_off_hdg hp hr rfl
  | shf => exact regAt_off_shf hp hr rfl
  | glk => exact regAt_off_glk hp hr rfl
  | mbu => exact regAt_off_mbu hp hr rfl
  | core => exact regAt_off_core hp hr rfl
  | psq => exact regAt_off_psq hp hr rfl
  | clk => exact regAt_off_clk hp hr rfl

theorem lt_of_regAt {o : Nat} {r : Reg} (h : regAt o = some r) : o < 0xA0000 := by
  by_contra hge
  have none_there : regAt o = none := by
    unfold regAt
    repeat refine (if_neg (by omega)).trans ?_
    rfl
  rw [none_there] at h
  cases h

theorem off_lt {r : Reg} (hr : r.inRange = true) (h : 0x100 ≤ r.off) : r.off < 0xA0000 := lt_of_regAt (regAt_off hr h)

end Sys2Proof.Proofs
end

section
/-! SUPPORT. The register window as its commands reach it (R25, R27): what a write of a named register does on an open path,
what a register that starts nothing does, and what no write changes. -/
namespace Sys2Proof.Proofs
open Sys2Proof.Machine Sys2Proof.Laws

/-! ### Access on an open path -/

theorem pathSidx_open {s : State} {acc : Acc} (h : Open s acc) : s.pathSidx acc.path = 0 := by
  obtain ⟨hp, -, -⟩ := h
  unfold State.pathSidx
  cases hq : acc.path with
  | mailbox => exact absurd hq hp
  | host => rfl
  | camin => rfl

theorem report_open {s : State} {acc : Acc} (h : Open s acc) (code k i : Nat) (a b : Word) (reh : Bool) :
    s.report code k i a b reh = { s with reports := s.reports ++ [⟨s.cycle + 1, code, k, i, a, b, reh⟩] } := by
  obtain ⟨-, ho, hr⟩ := h
  unfold State.report
  rw [if_neg]
  rintro (hm | ⟨hm, -⟩)
  · exact ho hm
  · exact hr hm

theorem refuse_open {s : State} {acc : Acc} (h : Open s acc) (code off : Nat) :
    s.refuse acc code off = (refusal s acc code off, code) := by
  rw [State.refuse, pathSidx_open h, report_open h]
  rfl

theorem reaches_open {s : State} {acc : Acc} (h : Open s acc) (o : Nat) : s.reaches acc.path o = true := by
  rw [State.reaches, bne_iff_ne.mpr h.1, Bool.true_or]

theorem busWrite_open {s : State} {acc : Acc} (h : Open s acc) (size : Size) (o : Nat) (v : DWord) :
    s.busWrite acc size o v = match size with
      | .b32 => (s.write32 acc o (lo32 v) o).1
      | .b64 => if o % 8 = 0 then (s.write64 acc o v).1 else refusal s acc 0x04 o
      | _ => refusal s acc 0x04 o := by
  have answered : ¬ (s.mode = .off ∨ s.reaches acc.path o = false) := by
    rw [reaches_open h]
    simp [h.2.1]
  have refused : (s.refuse acc 0x04 o).1 = refusal s acc 0x04 o := congrArg Prod.fst (refuse_open h 0x04 o)
  unfold State.busWrite
  refine (if_neg answered).trans ?_
  cases size with
  | b8 => exact refused
  | b16 => exact refused
  | b32 => exact rfl
  | b64 => exact if_congr Iff.rfl rfl refused

theorem write32_open {s : State} {acc : Acc} (h : Open s acc) {r : Reg} (hr : r.inRange = true) (ho : 0x100 ≤ r.off) (v : Word)
    (da : Nat) : s.write32 acc r.off v da = s.writeReg acc r v da := by
  unfold State.write32
  rw [if_neg (fun hm => h.2.2 hm.1), if_neg (by omega), regAt_off hr ho]

theorem put_open {s : State} {acc : Acc} (h : Open s acc) {r : Reg} (hr : r.inRange = true) (ho : 0x100 ≤ r.off) (v : Nat) :
    s.put acc r v = (s.writeReg acc r (BitVec.ofNat 32 v) r.off).1 := by
  have low : lo32 (BitVec.ofNat 64 v) = BitVec.ofNat 32 v := by
    simp [lo32]
  rw [State.put, busWrite_open h, write32_open h hr ho, low]

theorem toNat_off {r : Reg} {off : BitVec 20} (hr : r.inRange = true) (ho : 0x100 ≤ r.off) (e : off = BitVec.ofNat 20 r.off) :
    off.toNat = r.off := by
  have := off_lt hr ho
  rw [e, BitVec.toNat_ofNat, Nat.mod_eq_of_lt (by omega)]

theorem registerWrite_open {s : State} {acc : Acc} (h : Open s acc) {r : Reg} {off : BitVec 20} (hr : r.inRange = true)
    (ho : 0x100 ≤ r.off) (e : off = BitVec.ofNat 20 r.off) (v : DWord) :
    exec (.registerWrite acc .b32 off v) s = .next (s.writeReg acc r (lo32 v) r.off).1 := by
  rw [← write32_open h hr ho, ← toNat_off hr ho e]
  exact congrArg Host.Outcome.next (busWrite_open h .b32 off.toNat v)

/-! ### Refusals of a register -/

theorem writeReg_caminOnly {s : State} {acc : Acc} (h : Open s acc) {r : Reg} {v : Word} (hc : r.caminOnly = true ∨ r.caminCmd v = true)
    (hp : acc.path ≠ .camin) (da : Nat) : s.writeReg acc r v da = (refusal s acc 0x05 da, 0x05) := by
  unfold State.writeReg
  rw [if_pos ⟨hc, hp⟩, refuse_open h]

/-! ### Registers that start nothing -/

theorem plain_caminCmd {r : Reg} (h : plain r = true) (v : Word) : r.caminCmd v = false := by
  cases r <;> simp only [plain, reduceCtorEq] at h <;> rfl

theorem plain_ticks {r : Reg} (h : plain r = true) : r.ticks = false := by
  cases r <;> simp only [plain, reduceCtorEq] at h <;> rfl

theorem plain_wrote {r : Reg} (h : plain r = true) (s : State) (old v : Word) : s.wrote r old v = s := by
  cases r <;> simp only [plain, reduceCtorEq] at h <;> rfl

theorem plain_stoppedBars {r : Reg} (h : plain r = true) (s : State) (v : Word) :
    s.stoppedBars r v = (changesStopped r.fields (s.reg r) v && !s.stoppedFor r) := by
  cases r <;> simp only [plain, reduceCtorEq] at h <;> rfl

theorem writeReg_plain {s : State} {acc : Acc} {r : Reg} {v : Word} (h : plain r = true) (hc : r.caminOnly = true → acc.path = .camin)
    (hs : s.secureBars acc r v = false) (da : Nat) : s.writeReg acc r v da = s.putFields acc r v da := by
  have camin : ¬ ((r.caminOnly ∨ r.caminCmd v) ∧ acc.path ≠ .camin) := by
    rintro ⟨ho | hk, hp⟩
    · exact hp (hc ho)
    · rw [plain_caminCmd h] at hk
      cases hk
  unfold State.writeReg
  rw [if_neg camin, hs, if_neg Bool.false_ne_true]
  cases r <;> simp only [plain, reduceCtorEq] at h <;> rfl

theorem putFields_refused {s : State} {acc : Acc} (ho : Open s acc) {r : Reg} {v : Word} {code : Nat} (h : s.judge r v = some code)
    (da : Nat) : s.putFields acc r v da = (refusal s acc code da, code) := by
  unfold State.putFields
  rw [h]
  exact refuse_open ho code da

theorem putFields_accepted {s : State} {acc : Acc} {r : Reg} {v : Word} (h : s.judge r v = none) (ht : r.ticks = false) (da : Nat) :
    s.putFields acc r v da = ((s.setReg r (applyFields r.fields (s.reg r) v)).wrote r (s.reg r) v, 0) := by
  unfold State.putFields
  rw [h, ht]
  rfl

/-- A class-S field that would change while its unit runs (R9). -/
theorem changesStopped_iff (fs : List Fld) (cur v : Word) :
    changesStopped fs cur v = true ↔ ∃ f ∈ fs, f.cls = .stopped ∧ fld cur f.hi f.lo ≠ fld v f.hi f.lo := by
  simp [changesStopped, List.any_eq_true]

theorem judge_reserved {s : State} {r : Reg} {v : Word} (h : s.reservedIn r v = true) : s.judge r v = some 0x60 := if_pos h

theorem judge_stopped {s : State} {r : Reg} {v : Word} (h : s.stoppedBars r v = true) : s.judge r v = some 0x60 := by
  unfold State.judge
  rw [if_pos h, ite_self]

/-! ### The mode after a write -/

/-- What entry to HOLD does to the threads, sequencers and other units, once the mode is HOLD (R21). -/
def holdUnits (s : State) : State :=
  let s := s.each s.threadList fun s g => (s.setThr g { s.thr g with step := false }).haltThread g 4
  let s := s.each s.psqList State.psqHold
  s.gleanStop.gateAll

theorem holdUnits_still (s : State) : Still s (holdUnits s) :=
  gateAll_still (gleanStop_still (each_still
    (each_still (Still.refl s) fun _ g hk => haltThread_still g 4 (setThr_still g _ hk)) fun _ q hk => psqHold_still q hk))

theorem enterHold_mode (s : State) (src : HoldSrc) : (s.enterHold src).mode = .hold := by
  unfold State.enterHold
  extract_lets u v w c x
  exact (holdUnits_still x).mode

/-- A mode request keeps the mode, or the block enters HOLD at once (R18). -/
theorem modeRequest_mode (s : State) (p : Path) (code : Nat) :
    (s.modeRequest p code).1.mode = s.mode ∨ (s.modeRequest p code).1.mode = .hold := by
  unfold State.modeRequest
  cases modeOf code with
  | none => exact .inl rfl
  | some m =>
    dsimp only
    split
    · exact .inr ((setRf_still .cpxCtl 2 0 code (Still.refl _)).mode.trans (enterHold_mode s _))
    split
    · exact .inl rfl
    split
    · exact .inl (setRf_still .cpxCtl 2 0 code (Still.refl _)).mode
    cases Mode.later s.mode m s.heldFrom with
    | none => exact .inl rfl
    | some d0 =>
      dsimp only
      split
      · exact .inl rfl
      · exact .inl rfl

theorem command_mode {s : State} (acc : Acc) (da : Nat) {x : State × Bool} (h : x.1.mode = s.mode ∨ x.1.mode = .hold) :
    (s.command acc da x).1.mode = s.mode ∨ (s.command acc da x).1.mode = .hold := by
  unfold State.command
  split
  · exact h
  · exact .inl (refuse_still acc _ _ (Still.refl s)).mode

theorem command_still {s s0 : State} (acc : Acc) (da : Nat) {x : State × Bool} (hs : Still s0 s) (hx : Still s0 x.1) :
    Still s0 (s.command acc da x).1 := by
  unfold State.command
  split
  · exact hx
  · exact refuse_still acc _ _ hs

theorem writeReg_still {s : State} {acc : Acc} {r : Reg} (hr : r ≠ .cpxCtl) (v : Word) (da : Nat) : Still s (s.writeReg acc r v da).1 := by
  have hs := Still.refl s
  unfold State.writeReg
  split
  · exact refuse_still acc _ _ hs
  split
  · exact refuse_still acc _ _ hs
  dsimp only
  split
  · exact absurd rfl hr
  · exact setStage_still _ _ hs
  · exact commitTime_still acc _ _ hs
  · split
    · exact upd_commons_still _ hs
    split
    · exact hs
    · exact refuse_still acc _ _ hs
  · split
    · exact refuse_still acc _ _ hs
    split
    · exact still_fst ‹_› (requestStep_still _ _ hs)
    · exact still_fst ‹_› (requestStep_still _ _ hs)
  · exact setStage_still _ _ hs
  · exact tmrSetCmp_still _ _ hs
  · exact setStage_still _ _ hs
  · exact commitIvl_still acc _ _ _ hs
  · exact command_still acc da hs (tcmdCmd_still _ _ _ hs)
  · exact command_still acc da hs (debugCmd_still _ _ _ hs)
  · exact setCore_still _ _ hs
  · exact commitDsrd_still acc _ _ _ hs
  · split
    · exact refuse_still acc _ _ hs
    · exact writePc_still _ _ hs
  · exact command_still acc da hs (psqCommand_still _ _ hs)
  · exact writeProg_still acc _ _ hs
  · exact setPsq_still _ _ hs
  · exact offerAction_still acc _ _ _ hs
  · exact setTrig_still _ _ hs
  · exact vwrite_still _ _ _ _ hs
  · exact putFields_still acc _ _ _ hs

theorem writeReg_cpxCtl_mode (s : State) (acc : Acc) (v : Word) (da : Nat) :
    (s.writeReg acc .cpxCtl v da).1.mode = s.mode ∨ (s.writeReg acc .cpxCtl v da).1.mode = .hold := by
  unfold State.writeReg
  split
  · exact .inl (refuse_still acc _ _ (Still.refl s)).mode
  split
  · exact .inl (refuse_still acc _ _ (Still.refl s)).mode
  · exact command_mode acc da (modeRequest_mode s acc.path _)

/-- A 32-bit write leaves the mode, but for a HOLD request, which takes effect at once (R18). -/
theorem write32_mode (s : State) (acc : Acc) (o : Nat) (v : Word) (da : Nat) :
    (s.write32 acc o v da).1.mode = s.mode ∨ (s.write32 acc o v da).1.mode = .hold := by
  have refused (code off : Nat) : (s.refuse acc code off).1.mode = s.mode := (refuse_still acc code off (Still.refl s)).mode
  unfold State.write32
  split
  · exact .inl (refused _ _)
  split
  · exact .inl (refused _ _)
  cases regAt o with
  | none => exact .inl (refused _ _)
  | some r =>
    by_cases hr : r = .cpxCtl
    · subst hr
      exact writeReg_cpxCtl_mode s acc v da
    · exact .inl (writeReg_still hr v da).mode

end Sys2Proof.Proofs
end

section
/-! SUPPORT. Register writes: the accepted and the refused write of a register that starts nothing, and the 64-bit write as two
32-bit writes (R7, R9, R13, R27). -/
namespace Sys2Proof.Proofs
open Sys2Proof.Machine Sys2Proof.Laws

/-! ### One write -/

theorem plainWrite_accepted {acc : Acc} {off : BitVec 20} {val : DWord} {r : Reg} {s : State} (ho : Open s acc) (hp : plain r = true)
    (hr : r.inRange = true) (h1 : 0x100 ≤ r.off) (hc : r.caminOnly = true → acc.path = .camin)
    (hs : s.secureBars acc r (lo32 val) = false) (hj : s.judge r (lo32 val) = none) (he : off = BitVec.ofNat 20 r.off) :
    exec (.registerWrite acc .b32 off val) s = .next (s.setReg r (applyFields r.fields (s.reg r) (lo32 val))) := by
  rw [registerWrite_open ho hr h1 he, writeReg_plain hp hc hs, putFields_accepted hj (plain_ticks hp), plain_wrote hp]

theorem plainWrite_refused {acc : Acc} {off : BitVec 20} {val : DWord} {r : Reg} {s : State} (ho : Open s acc) (hp : plain r = true)
    (hr : r.inRange = true) (h1 : 0x100 ≤ r.off) (hc : r.caminOnly = true → acc.path = .camin)
    (hs : s.secureBars acc r (lo32 val) = false) (he : off = BitVec.ofNat 20 r.off)
    (h : s.reservedIn r (lo32 val) = true ∨
      (s.stoppedFor r = false ∧ ∃ f ∈ r.fields, f.cls = .stopped ∧ fld (s.reg r) f.hi f.lo ≠ fld (lo32 val) f.hi f.lo)) :
    exec (.registerWrite acc .b32 off val) s = .next (refusal s acc 0x60 r.off) := by
  have hj : s.judge r (lo32 val) = some 0x60 := by
    rcases h with hres | ⟨hrun, hch⟩
    · exact judge_reserved hres
    · refine judge_stopped ?_
      rw [plain_stoppedBars hp, (changesStopped_iff _ _ _).mpr hch, hrun]
      rfl
  rw [registerWrite_open ho hr h1 he, writeReg_plain hp hc hs, putFields_refused ho hj]

theorem write32_noRegister {s : State} {acc : Acc} (h : Open s acc) {o : Nat} (hn : o < 0x100 ∨ regAt o = none) (v : Word) (da : Nat) :
    s.write32 acc o v da = (refusal s acc 0x04 o, 0x04) := by
  unfold State.write32
  rw [if_neg (fun hm => h.2.2 hm.1), refuse_open h]
  rcases hn with hlt | hnone
  · rw [if_pos hlt]
  · rw [hnone, ite_self]

/-- An offset without a register and an access of 8 or 16 bits are refused with OFFSET (R27). -/
theorem badWrite_refused {acc : Acc} {size : Size} {off : BitVec 20} {val : DWord} {s : State} (ho : Open s acc)
    (h : off.toNat < 0x100 ∨ regAt off.toNat = none ∨ size = .b8 ∨ size = .b16) (hs : size ≠ .b64) :
    exec (.registerWrite acc size off val) s = .next (refusal s acc 0x04 off.toNat) := by
  refine congrArg Host.Outcome.next ((busWrite_open ho size off.toNat val).trans ?_)
  cases size with
  | b8 => rfl
  | b16 => rfl
  | b64 => exact absurd rfl hs
  | b32 =>
    have hn : off.toNat < 0x100 ∨ regAt off.toNat = none := by simpa using h
    exact congrArg Prod.fst (write32_noRegister ho hn (lo32 val) off.toNat)

theorem unalignedWrite_refused {acc : Acc} {off : BitVec 20} {val : DWord} {s : State} (ho : Open s acc) (h : off.toNat % 8 ≠ 0) :
    exec (.registerWrite acc .b64 off val) s = .next (refusal s acc 0x04 off.toNat) :=
  congrArg Host.Outcome.next ((busWrite_open ho .b64 off.toNat val).trans (if_neg h))

theorem registerWrite_caminOnly {acc : Acc} {off : BitVec 20} {val : DWord} {r : Reg} {s : State} (ho : Open s acc)
    (hr : r.inRange = true) (h1 : 0x100 ≤ r.off) (hc : r.caminOnly = true) (hp : acc.path ≠ .camin)
    (he : off = BitVec.ofNat 20 r.off) :
    exec (.registerWrite acc .b32 off val) s = .next (refusal s acc 0x05 r.off) := by
  rw [registerWrite_open ho hr h1 he, writeReg_caminOnly ho (.inl hc) hp]

/-! ### No answer (R25) -/

theorem busWrite_unanswered {s : State} {acc : Acc} {o : Nat} (h : s.mode = .off ∨ s.reaches acc.path o = false) (size : Size)
    (v : DWord) : s.busWrite acc size o v = s := if_pos h

/-- In RETAIN a refusal of the register window is not reported (R353). -/
theorem refuse_retain {s : State} (h : s.mode = .retain) (acc : Acc) (o : Nat) : (s.refuse acc 0x04 o).1 = s :=
  if_pos (.inr ⟨h, by decide, by decide⟩)

theorem busWrite_retainClosed {s : State} {acc : Acc} {o : Nat} (h : s.mode = .retain) (hc : retainOpen o = false) (v : DWord) :
    s.busWrite acc .b32 o v = s := by
  have closed : (s.write32 acc o (lo32 v) o).1 = s := by
    unfold State.write32
    rw [if_pos ⟨h, hc⟩, refuse_retain h]
  unfold State.busWrite
  split
  · rfl
  · exact closed

theorem registerWrite_idle {acc : Acc} {size : Size} {off : BitVec 20} {val : DWord} {s : State}
    (h : s.mode = .off ∨ (s.mode = .retain ∧ acc.path = .mailbox) ∨
      (s.mode = .retain ∧ size = .b32 ∧ retainOpen off.toNat = false)) : Idle (.registerWrite acc size off val) s := by
  refine congrArg Host.Outcome.next ?_
  rcases h with hoff | ⟨hret, hp⟩ | ⟨hret, rfl, hc⟩
  · exact busWrite_unanswered (.inl hoff) size val
  · refine busWrite_unanswered (.inr ?_) size val
    simp [State.reaches, hp, hret]
  · exact busWrite_retainClosed hret hc val

/-! ### Two halves (R13) -/

theorem busWrite_b32 {s : State} {acc : Acc} {o : Nat} (hm : s.mode ≠ .off) (hr : s.reaches acc.path o = true) (v : DWord) :
    s.busWrite acc .b32 o v = (s.write32 acc o (lo32 v) o).1 := by
  unfold State.busWrite
  rw [if_neg (by simp [hm, hr])]

theorem busWrite_b64 {s : State} {acc : Acc} {o : Nat} (hm : s.mode ≠ .off) (hr : s.reaches acc.path o = true) (h8 : o % 8 = 0)
    (v : DWord) :
    s.busWrite acc .b64 o v = ((s.write32 acc o (lo32 v) o).1.write32 acc (o + 4) (hi32 v) (wideDa o)).1 := by
  unfold State.busWrite
  rw [if_neg (by simp [hm, hr])]
  exact if_pos h8

theorem wideDa_of_noAction {o : Nat} (h : ∀ q, regAt (o + 4) ≠ some (.psqActHi q)) : wideDa o = o + 4 := by
  unfold wideDa
  split
  · exact absurd ‹_› (h _)
  · rfl

theorem reaches_upper (s : State) (p : Path) {o : Nat} (h8 : o % 8 = 0) : s.reaches p (o + 4) = s.reaches p o := by
  have page : (decide (0x2000 ≤ o + 4) && decide (o + 4 < 0x3000)) = (decide (0x2000 ≤ o) && decide (o < 0x3000)) := by
    rw [← Bool.decide_and, ← Bool.decide_and]
    exact decide_eq_decide.mpr (by omega)
  unfold State.reaches
  rw [page]

theorem reaches_of_mode {s t : State} {p : Path} {o : Nat} (hm : t.mode = s.mode ∨ t.mode = .hold) (h : s.reaches p o = true) :
    t.reaches p o = true := by
  unfold State.reaches at *
  rcases hm with hm | hm
  · rw [hm, h]
  · cases p with
    | mailbox =>
      simp only [Bool.and_eq_true, bne_self_eq_false, Bool.false_or] at h
      simp [hm, h.1.1, h.1.2]
    | host => rfl
    | camin => rfl

theorem lo32_extended (v : DWord) : lo32 ((v.setWidth 32).setWidth 64) = lo32 v := by
  simp [lo32]

/-- A 64-bit write is two 32-bit writes, the lower address first (R13). -/
theorem registerWrite_halves {acc : Acc} {off : BitVec 20} {val : DWord} {s t : State} (h8 : off.toNat % 8 = 0)
    (hq : ∀ q, regAt (off.toNat + 4) ≠ some (.psqActHi q))
    (h : exec (.registerWrite acc .b32 off ((val.setWidth 32).setWidth 64)) s = .next t) :
    exec (.registerWrite acc .b64 off val) s = exec (.registerWrite acc .b32 (off + 4) (val >>> 32)) t := by
  have ht : s.busWrite acc .b32 off.toNat ((val.setWidth 32).setWidth 64) = t := Host.Outcome.next.inj h
  have upper : (off + 4).toNat = off.toNat + 4 := by
    have := off.isLt
    rw [BitVec.toNat_add, show (4 : BitVec 20).toNat = 4 from rfl, Nat.mod_eq_of_lt (by omega)]
  refine congrArg Host.Outcome.next ?_
  rw [upper]
  by_cases ha : s.mode = .off ∨ s.reaches acc.path off.toNat = false
  · rw [busWrite_unanswered ha] at ht ⊢
    rw [← ht, busWrite_unanswered (ha.imp_right fun hr => (reaches_upper s acc.path h8).trans hr)]
  · obtain ⟨hm, hr⟩ := not_or.mp ha
    replace hr : s.reaches acc.path off.toNat = true := by simpa using hr
    rw [busWrite_b32 hm hr, lo32_extended] at ht
    have hmode := write32_mode s acc off.toNat (lo32 val) off.toNat
    rw [ht] at hmode
    have hoff : t.mode ≠ .off := by
      rcases hmode with h | h
      · rwa [h]
      · rw [h]
        decide
    rw [busWrite_b64 hm hr h8, ht, wideDa_of_noAction hq,
      busWrite_b32 hoff (reaches_of_mode hmode ((reaches_upper s acc.path h8).trans hr))]
    rfl

/-- Settles O23: an accepted write goes through the fields' access codes, every other is refused whole. -/
theorem registerWritesSetTheirFields : Obligations.RegisterWritesSetTheirFields := by
  refine ⟨?_, ?_, ?_, fun _ _ _ _ _ ho h hs => badWrite_refused ho h hs, ?_, fun _ _ _ _ _ h8 hq h => registerWrite_halves h8 hq h,
    fun _ _ _ _ _ h => registerWrite_idle h, ?_⟩
  · rintro acc _ off val r s ho hp hr h1 hc hs hj he rfl
    exact plainWrite_accepted ho hp hr h1 hc hs hj he
  · rintro acc _ off val r s ho hp hr h1 hc hs he rfl h
    exact plainWrite_refused ho hp hr h1 hc hs he h
  · rintro acc _ off val r s ho hr h1 hc hp he rfl
    exact registerWrite_caminOnly ho hr h1 hc hp he
  · rintro acc _ off val s ho rfl h
    exact unalignedWrite_refused ho h
  · intro r cur v i hr hi
    refine ⟨fun f hf h1 h2 => ?_, bit_applyFields_outside hi⟩
    rw [bit_applyFields hi (fields_apart r) hf h1 h2]
    cases f.acc <;> rfl

end Sys2Proof.Proofs
end

section
/-! SUPPORT. Swath domains: what a write of SWD_CTL does (R32, R36), and the first boundary time after a given time (R6, R32). -/
namespace Sys2Proof.Proofs
open Sys2Proof.Machine Sys2Proof.Laws

/-! ### Registers beside the one written -/

theorem setReg_reg_self (s : State) (r : Reg) (v : Word) : (s.setReg r v).reg r = v := (setReg_reg s r r v).trans (if_pos rfl)

theorem setReg_reg_other (s : State) {r x : Reg} (v : Word) (h : x.off ≠ r.off) : (s.setReg r v).reg x = s.reg x :=
  (setReg_reg s r x v).trans (if_neg h)

theorem setReg_regsBut (s : State) (r : Reg) (v : Word) : RegsBut [r] s (s.setReg r v) := by
  intro x hx
  exact setReg_reg_other s v (by simpa using hx)

theorem bit_setBit {w : Word} {i j : Nat} (b : Bool) (hj : j < 32) : bit (setBit w i b) j = if j = i then b else bit w j := by
  rw [setBit, bit_setFld hj]
  by_cases h : j = i
  · rw [if_pos h, if_pos ⟨h.ge, h.le⟩, h, Nat.sub_self]
    cases b <;> rfl
  · rw [if_neg h, if_neg (by omega)]

/-! ### The first boundary -/

theorem after_toNat (a b : DWord) : after a b = true ↔ 0 < (a - b).toNat ∧ (a - b).toNat < 2 ^ 63 := by
  have zero : (a - b).toNat = 0 ↔ a = b := by
    rw [← sub_eq_zero (a := a), ← BitVec.toNat_inj]
    rfl
  rw [after_iff, atOrAfter_iff, Ne, ← zero]
  omega

/-- How far `m` units beyond `a` lie beyond `b`, modulo 2^64, when `b` lies `d` beyond `a`. -/
theorem toNat_beyond (a b : DWord) (m : Nat) :
    (a + BitVec.ofNat 64 m - b).toNat = (2 ^ 64 - (b - a).toNat + m) % 2 ^ 64 := by
  have e : a + BitVec.ofNat 64 m - b = BitVec.ofNat 64 m - (b - a) := by abel
  rw [e, BitVec.toNat_sub, BitVec.toNat_ofNat, Nat.add_mod_mod]

theorem not_after_le {a b : DWord} (h : after a b = false) : (b - a).toNat ≤ 2 ^ 63 := by
  have h' := mt (after_toNat a b).mpr (by simp [h])
  have e := toNat_beyond a b 0
  rw [BitVec.add_zero] at e
  have := (b - a).isLt
  omega

/-- The least count of periods that leads beyond `t` (R32), and that no lower count does. -/
theorem firstPeriod_after {a t : DWord} {p k : Nat} (h0 : 0 < p) (hp : p < 2 ^ 63)
    (hk : k = if after a t then 0 else (t - a).toNat / p + 1) :
    after (a + BitVec.ofNat 64 (k * p)) t = true ∧ ∀ j, j < k → after (a + BitVec.ofNat 64 (j * p)) t = false := by
  cases h : after a t with
  | true =>
    rw [h, if_pos rfl] at hk
    subst hk
    refine ⟨?_, fun j hj => absurd hj (Nat.not_lt_zero j)⟩
    rwa [Nat.zero_mul, BitVec.add_zero]
  | false =>
    have hd := not_after_le h
    rw [h, if_neg Bool.false_ne_true] at hk
    have hq := Nat.div_add_mod (t - a).toNat p
    have hm := Nat.mod_lt (t - a).toNat h0
    rw [Nat.mul_comm] at hq
    refine ⟨?_, fun j hj => ?_⟩
    · rw [after_toNat, toNat_beyond]
      rw [hk, Nat.add_mul, Nat.one_mul]
      omega
    · have hjp : j * p ≤ (t - a).toNat / p * p := Nat.mul_le_mul_right p (by omega)
      rw [Bool.eq_false_iff, Ne, after_toNat, toNat_beyond]
      omega

/-! ### SWD_CTL -/

theorem writeReg_swdCtl (s : State) (acc : Acc) (d : Nat) (v : Word) (da : Nat) :
    s.writeReg acc (.swdCtl d) v da = s.putFields acc (.swdCtl d) v da := by
  have hs : s.secureBars acc (.swdCtl d) v = false := Bool.and_false _
  unfold State.writeReg
  rw [if_neg (fun h => h.1.elim Bool.false_ne_true Bool.false_ne_true), hs, if_neg Bool.false_ne_true]

theorem put_swdCtl {s : State} {acc : Acc} (h : Open s acc) (d : BitVec 2) (v : Nat) :
    s.put acc (.swdCtl d.toNat) v = (s.putFields acc (.swdCtl d.toNat) (BitVec.ofNat 32 v) (Reg.swdCtl d.toNat).off).1 := by
  have hr : (Reg.swdCtl d.toNat).inRange = true := decide_eq_true d.isLt
  rw [put_open h hr (by simp only [Reg.off]; omega), writeReg_swdCtl]

/-- The word that SWD_CTL takes. -/
def swdWord (s : State) (d : Nat) (v : Word) : Word := applyFields (Reg.swdCtl d).fields (s.reg (.swdCtl d)) v

theorem bit_swdWord (s : State) (d : Nat) (v : Word) {i : Nat} (hi : i < 2) : bit (swdWord s d v) i = bit v i := by
  have hf : ⟨i, i, .rw, .live, 0⟩ ∈ (Reg.swdCtl d).fields := by
    rcases (by omega : i = 0 ∨ i = 1) with rfl | rfl
    · exact .tail _ (.head _)
    · exact .head _
  exact bit_applyFields (by omega) (fields_apart _) hf le_rfl le_rfl

/-- The written words of DOMAIN_ENABLE and DOMAIN_DISABLE. -/
theorem bit_enableWord (en grace : Bool) :
    bit (BitVec.ofNat 32 (2 * b2n grace + b2n en)) 0 = en ∧ bit (BitVec.ofNat 32 (2 * b2n grace + b2n en)) 1 = grace := by
  revert en grace
  decide

theorem judge_swdCtl (s : State) (d : Nat) (v : Word) :
    s.judge (.swdCtl d) v = if (s.domEn d && !bit v 0 && s.mode != .configure) = true then some 0x60 else none := rfl

/-- What an accepted write of SWD_CTL leaves: its word, and the change of EN (R32, R36). -/
theorem putFields_swdCtl {s : State} {acc : Acc} {d : Nat} {v : Word} (h : (s.domEn d && !bit v 0 && s.mode != .configure) = false)
    (da : Nat) :
    s.putFields acc (.swdCtl d) v da =
      (if (!s.domEn d && bit v 0) = true then (s.setReg (.swdCtl d) (swdWord s d v)).enableDom d
        else if (s.domEn d && !bit v 0) = true then (s.setReg (.swdCtl d) (swdWord s d v)).disableDom d
        else s.setReg (.swdCtl d) (swdWord s d v), 0) := by
  have hj : s.judge (.swdCtl d) v = none := by
    rw [judge_swdCtl, h, if_neg Bool.false_ne_true]
  exact putFields_accepted hj rfl da

section
variable (s : State) (d : Nat) (v : Word)

theorem swdSet_domEn : (s.setReg (.swdCtl d) (swdWord s d v)).domEn d = bit v 0 := by
  rw [State.domEn, State.rb, setReg_reg_self, bit_swdWord s d v (by omega)]

theorem swdSet_grace : (s.setReg (.swdCtl d) (swdWord s d v)).rb (.swdCtl d) 1 = bit v 1 := by
  rw [State.rb, setReg_reg_self, bit_swdWord s d v (by omega)]

/-- The domain that EN brings up, from a state whose SWD_CTL has just been written. -/
theorem enableDom_eq (w : Word) :
    ∃ k, k = (if after (s.reg64 (.swdStart d)) s.nextTime then 0
        else (s.nextTime - s.reg64 (.swdStart d)).toNat / (16 * s.rf (.swdPeriod d) 24 0) + 1) ∧
      (s.setReg (.swdCtl d) w).enableDom d = (s.setReg (.swdCtl d) w).setDom d
        { s.dom d with next := firstBoundary s d k, nextNum := s.reg (.swdNumbase d) + BitVec.ofNat 32 k } := by
  have start (h : Nat) : (s.setReg (.swdCtl d) w).reg (.swdStart d h) = s.reg (.swdStart d h) :=
    setReg_reg_other s w (by simp only [Reg.off]; omega)
  have period : (s.setReg (.swdCtl d) w).reg (.swdPeriod d) = s.reg (.swdPeriod d) :=
    setReg_reg_other s w (by simp only [Reg.off]; omega)
  have base : (s.setReg (.swdCtl d) w).reg (.swdNumbase d) = s.reg (.swdNumbase d) :=
    setReg_reg_other s w (by simp only [Reg.off]; omega)
  have next : (s.setReg (.swdCtl d) w).nextTime = s.nextTime := rfl
  refine ⟨_, rfl, ?_⟩
  rw [State.enableDom, State.reg64, State.rf, start, start, period, base, next]
  rfl

end

/-! ### The commands -/

theorem domainEnable_rise {acc : Acc} {d : BitVec 2} (grace : Bool) {s : State} (ho : Open s acc) (he : s.domEn d.toNat = false)
    (hp : 2000 ≤ s.rf (.swdPeriod d.toNat) 24 0) :
    Leads (.domainEnable acc d grace) s fun t =>
      t = { s with regs := t.regs, doms := t.doms } ∧ RegsBut [.swdCtl d.toNat] s t ∧ OnlyAt d.toNat s.dom t.dom ∧
      t.domEn d.toNat = true ∧ t.rb (.swdCtl d.toNat) 1 = grace ∧ (t.dom d.toNat).bcyc = (s.dom d.toNat).bcyc ∧
      ∃ k, (t.dom d.toNat).next = firstBoundary s d.toNat k ∧
        (t.dom d.toNat).nextNum = s.reg (.swdNumbase d.toNat) + BitVec.ofNat 32 k ∧
        after (firstBoundary s d.toNat k) s.nextTime = true ∧
        ∀ j, j < k → after (firstBoundary s d.toNat j) s.nextTime = false := by
  obtain ⟨en, gr⟩ := bit_enableWord true grace
  have done := put_swdCtl ho d (2 * b2n grace + b2n true)
  generalize BitVec.ofNat 32 (2 * b2n grace + b2n true) = v at done en gr
  rw [putFields_swdCtl (by rw [he]; rfl), if_pos (by rw [he, en]; rfl)] at done
  obtain ⟨k, hk, up⟩ := enableDom_eq s d.toNat (swdWord s d.toNat v)
  have hlt : s.rf (.swdPeriod d.toNat) 24 0 < 2 ^ 25 := Nat.mod_lt _ (by omega)
  obtain ⟨first, least⟩ := firstPeriod_after (by omega) (by omega) hk
  have dom (j : Nat) := setDom_dom (s := s.setReg (.swdCtl d.toNat) (swdWord s d.toNat v)) d.toNat j
    { s.dom d.toNat with next := firstBoundary s d.toNat k, nextNum := s.reg (.swdNumbase d.toNat) + BitVec.ofNat 32 k }
  refine ⟨_, congrArg Host.Outcome.next (done.trans up), rfl, setReg_regsBut s _ _, fun j hj => (dom j).trans (if_neg hj), ?_, ?_,
    ?_, k, ?_, ?_, first, least⟩
  · exact (swdSet_domEn s d.toNat v).trans en
  · exact (swdSet_grace s d.toNat v).trans gr
  all_goals rw [dom, if_pos rfl]

theorem domainEnable_again {acc : Acc} {d : BitVec 2} (grace : Bool) {s : State} (ho : Open s acc) (he : s.domEn d.toNat = true) :
    Leads (.domainEnable acc d grace) s fun t => t = { s with regs := t.regs } ∧ RegsBut [.swdCtl d.toNat] s t ∧
      t.domEn d.toNat = true ∧ t.rb (.swdCtl d.toNat) 1 = grace := by
  obtain ⟨en, gr⟩ := bit_enableWord true grace
  have done := put_swdCtl ho d (2 * b2n grace + b2n true)
  generalize BitVec.ofNat 32 (2 * b2n grace + b2n true) = v at done en gr
  rw [putFields_swdCtl (by rw [he, en]; rfl), if_neg (by simp [he]), if_neg (by simp [en])] at done
  exact ⟨_, congrArg Host.Outcome.next done, rfl, setReg_regsBut s _ _, (swdSet_domEn s d.toNat v).trans en,
    (swdSet_grace s d.toNat v).trans gr⟩

theorem domainDisable_refused {acc : Acc} {d : BitVec 2} (grace : Bool) {s : State} (ho : Open s acc) (he : s.domEn d.toNat = true)
    (hm : s.mode ≠ .configure) : exec (.domainDisable acc d grace) s = .next (refusal s acc 0x60 (Reg.swdCtl d.toNat).off) := by
  obtain ⟨en, -⟩ := bit_enableWord false grace
  have done := put_swdCtl ho d (2 * b2n grace + b2n false)
  generalize BitVec.ofNat 32 (2 * b2n grace + b2n false) = v at done en
  have running : (s.domEn d.toNat && !bit v 0 && s.mode != .configure) = true := by
    rw [he, en, bne_iff_ne.mpr hm]
    rfl
  rw [putFields_refused ho (by rw [judge_swdCtl, if_pos running])] at done
  exact congrArg Host.Outcome.next done

theorem disableDom_frame (s : State) (d : Nat) : ∃ a b, s.disableDom d = { s with regs := a, held := b } := ⟨_, _, rfl⟩

/-- A domain that goes down: TICKING ends and the written PERIOD is in force (R36). -/
theorem disableDom_spec (s : State) (d : Nat) (w : Word) :
    (s.setReg (.swdCtl d) w).disableDom d =
      { s with regs := ((s.setReg (.swdCtl d) w).disableDom d).regs, held := ((s.setReg (.swdCtl d) w).disableDom d).held } ∧
    RegsBut [.swdCtl d, .swdStat d] s ((s.setReg (.swdCtl d) w).disableDom d) ∧
    ((s.setReg (.swdCtl d) w).disableDom d).reg (.swdCtl d) = w ∧
    ((s.setReg (.swdCtl d) w).disableDom d).rb (.swdStat d) 0 = false ∧
    ((s.setReg (.swdCtl d) w).disableDom d).inForce (.swdPeriod d) = s.reg (.swdPeriod d) := by
  have regs (x : Reg) : ((s.setReg (.swdCtl d) w).disableDom d).reg x =
      if x.off = (Reg.swdStat d).off then setBit ((s.setReg (.swdCtl d) w).reg (.swdStat d)) 0 false
        else if x.off = (Reg.swdCtl d).off then w else s.reg x :=
    (setReg_reg _ _ _ _).trans (if_congr Iff.rfl rfl (setReg_reg _ _ _ _))
  refine ⟨?_, fun x hx => ?_, ?_, ?_, ?_⟩
  · obtain ⟨a, b, e⟩ := disableDom_frame (s.setReg (.swdCtl d) w) d
    rw [e]
    rfl
  · obtain ⟨h1, h2⟩ : x.off ≠ (Reg.swdCtl d).off ∧ x.off ≠ (Reg.swdStat d).off := by simpa using hx
    rw [regs, if_neg h2, if_neg h1]
  · rw [regs, if_neg (by simp only [Reg.off]; omega), if_pos rfl]
  · rw [State.rb, regs, if_pos rfl, bit_setBit _ (by omega), if_pos rfl]
  · have none_held : ((s.setReg (.swdCtl d) w).disableDom d).heldAt (.swdPeriod d) = none :=
      (setHeld_heldAt _ _ _ none).trans (if_pos rfl)
    have now : ((s.setReg (.swdCtl d) w).disableDom d).inForce (.swdPeriod d) =
        ((s.setReg (.swdCtl d) w).disableDom d).reg (.swdPeriod d) := by
      unfold State.inForce
      rw [show Tab.get _ _ _ = none from none_held]
    rw [now, regs, if_neg (by simp only [Reg.off]; omega), if_neg (by simp only [Reg.off]; omega)]

theorem domainDisable_accepted {acc : Acc} {d : BitVec 2} (grace : Bool) {s : State} (ho : Open s acc)
    (h : s.domEn d.toNat = false ∨ s.mode = .configure) :
    Leads (.domainDisable acc d grace) s fun t => t = { s with regs := t.regs, held := t.held } ∧
      RegsBut [.swdCtl d.toNat, .swdStat d.toNat] s t ∧ t.domEn d.toNat = false ∧ t.rb (.swdCtl d.toNat) 1 = grace ∧
      (s.domEn d.toNat = true → t.rb (.swdStat d.toNat) 0 = false ∧ t.inForce (.swdPeriod d.toNat) = s.reg (.swdPeriod d.toNat)) := by
  obtain ⟨en, gr⟩ := bit_enableWord false grace
  have done := put_swdCtl ho d (2 * b2n grace + b2n false)
  generalize BitVec.ofNat 32 (2 * b2n grace + b2n false) = v at done en gr
  have allowed : (s.domEn d.toNat && !bit v 0 && s.mode != .configure) = false := by
    rcases h with h | h <;> simp [h]
  rw [putFields_swdCtl allowed, if_neg (by simp [en])] at done
  cases he : s.domEn d.toNat with
  | false =>
    rw [if_neg (by simp [he])] at done
    refine ⟨_, congrArg Host.Outcome.next done, rfl, fun x hx => setReg_reg_other s _ ?_, (swdSet_domEn s d.toNat v).trans en,
      (swdSet_grace s d.toNat v).trans gr, fun hf => absurd hf Bool.false_ne_true⟩
    simp only [List.map_cons, List.mem_cons, not_or] at hx
    exact hx.1
  | true =>
    rw [if_pos (by simp [he, en])] at done
    obtain ⟨frame, regs, ctl, tick, force⟩ := disableDom_spec s d.toNat (swdWord s d.toNat v)
    refine ⟨_, congrArg Host.Outcome.next done, frame, regs, ?_, ?_, fun _ => ⟨tick, force⟩⟩
    · rw [State.domEn, State.rb, ctl, bit_swdWord s _ v (by omega), en]
    · rw [State.rb, ctl, bit_swdWord s _ v (by omega), gr]

/-- Settles O37: the first boundary is found by the least multiple of the period beyond the next cycle's time. -/
theorem domainsBeginAtTheNextBoundaryTime : Obligations.DomainsBeginAtTheNextBoundaryTime :=
  ⟨fun _ _ grace _ ho he hp => domainEnable_rise grace ho he hp, fun _ _ grace _ ho he => domainEnable_again grace ho he,
   fun _ _ grace _ ho he hm => domainDisable_refused grace ho he hm, fun _ _ grace _ ho h => domainDisable_accepted grace ho h⟩

end Sys2Proof.Proofs
end

section
/-! SUPPORT. Threads that stop: what leaving the channels does to each channel (R209, R211), what becoming IDLE leaves (R61), and
the thread commands (Table 20). -/
namespace Sys2Proof.Proofs
open Sys2Proof.Machine Sys2Proof.Laws

/-! ### Leaving the channels -/

/-- The open message abandoned. -/
def abandoned (c : Chan) : Chan := { c with msgs := mapLast (fun m => { m with aband := true }) c.msgs }

/-- The head reservation of thread `g` given up. -/
def givenUp (g : Nat) (c : Chan) : Chan := if c.res = some g then { c with res := none, cur := 0 } else c

/-- A channel that thread `g` leaves. -/
def chanLeft (g : Nat) (c : Chan) : Chan := givenUp g (if c.heldBy g then abandoned c else c)

/-- What leaving the channels does at one of them. -/
def leaveChan (g : Nat) (s : State) (k : Nat) : State :=
  let c := s.chan k
  let s := if c.heldBy g then
      (s.setChan k { c with msgs := mapLast (fun m => { m with aband := true }) c.msgs }).report 0x21 9 (chanSidx k)
        (BitVec.ofNat 32 g) 0
    else s
  let c := s.chan k
  if c.res = some g then s.setChan k { c with res := none, cur := 0 } else s

theorem leaveChans_eq (s : State) (g : Nat) : s.leaveChans g = (s.chans.map Prod.fst).foldl (leaveChan g) s := rfl

theorem getLast?_mapLast (f : Msg → Msg) (l : List Msg) : (mapLast f l).getLast? = l.getLast?.map f := by
  induction l with
  | nil => rfl
  | cons m r ih =>
    cases r with
    | nil => rfl
    | cons n q =>
      rw [mapLast, List.getLast?_cons_cons, ← ih]
      · cases q with
        | nil => rfl
        | cons => rfl
      · exact fun h => List.cons_ne_nil _ _ h

/-- A channel with its youngest message abandoned is held by nobody. -/
theorem heldBy_abandoned (c : Chan) (g : Nat) :
    (abandoned c).heldBy g = false := by
  unfold Chan.heldBy Chan.opn abandoned
  rw [getLast?_mapLast]
  cases c.msgs.getLast? with
  | none => rfl
  | some m => cases h : m.closed <;> simp [h]

theorem heldBy_of_msgs {c c' : Chan} (h : c'.msgs = c.msgs) (g : Nat) : c'.heldBy g = c.heldBy g := by
  unfold Chan.heldBy Chan.opn
  rw [h]

theorem givenUp_res (g : Nat) (c : Chan) : (givenUp g c).res ≠ some g := by
  unfold givenUp
  split
  · exact fun h => by cases h
  · assumption

theorem givenUp_msgs (g : Nat) (c : Chan) : (givenUp g c).msgs = c.msgs := by
  unfold givenUp
  split <;> rfl

theorem chanLeft_res (g : Nat) (c : Chan) : (chanLeft g c).res ≠ some g := givenUp_res g _

theorem chanLeft_msgs {g : Nat} {c : Chan} (h : c.heldBy g = false) : (chanLeft g c).msgs = c.msgs := by
  rw [chanLeft, h, givenUp_msgs, if_neg Bool.false_ne_true]

theorem chanLeft_heldBy (g : Nat) (c : Chan) : (chanLeft g c).heldBy g = false := by
  rw [chanLeft, heldBy_of_msgs (givenUp_msgs g _)]
  cases h : c.heldBy g with
  | true => exact heldBy_abandoned c g
  | false => exact h

theorem chanLeft_of_left {g : Nat} {c : Chan} (hr : c.res ≠ some g) (hh : c.heldBy g = false) : chanLeft g c = c := by
  rw [chanLeft, hh, if_neg Bool.false_ne_true]
  exact if_neg hr

theorem report_chan (s : State) (code k i : Nat) (a b : Word) (j : Nat) : (s.report code k i a b).chan j = s.chan j := by
  unfold State.report
  split <;> rfl

theorem report_frame (s : State) (code k i : Nat) (a b : Word) :
    ∃ r, s.report code k i a b = { s with reports := r } := by
  unfold State.report
  split
  · exact ⟨s.reports, rfl⟩
  · exact ⟨_, rfl⟩

/-- Channel `k` takes the value `c`, or keeps it. -/
theorem chan_same {s : State} {k : Nat} {c : Chan} (h : s.chan k = c) (j : Nat) : s.chan j = if j = k then c else s.chan j := by
  split
  · rename_i e
    rw [e, h]
  · rfl

theorem leaveChan_chan (g : Nat) (s : State) (k j : Nat) :
    (leaveChan g s k).chan j = if j = k then chanLeft g (s.chan k) else s.chan j := by
  have second (t : State) (c : Chan) (ht : ∀ j, t.chan j = if j = k then c else s.chan j) :
      (if (t.chan k).res = some g then t.setChan k { t.chan k with res := none, cur := 0 } else t).chan j =
        if j = k then givenUp g c else s.chan j := by
    have hk : t.chan k = c := (ht k).trans (if_pos rfl)
    unfold givenUp
    rw [hk]
    split
    · rw [setChan_chan, ht]
      split <;> rfl
    · exact ht j
  unfold leaveChan chanLeft
  refine second _ _ fun i => ?_
  split
  · rw [report_chan, setChan_chan]
    rfl
  · exact chan_same rfl i

/-- Only channels and reports differ. -/
def ChansDiffer (s t : State) : Prop := ∃ c r, t = { s with chans := c, reports := r }

theorem ChansDiffer.refl (s : State) : ChansDiffer s s := ⟨s.chans, s.reports, rfl⟩

theorem ChansDiffer.trans {a b c : State} (h : ChansDiffer a b) (k : ChansDiffer b c) : ChansDiffer a c := by
  obtain ⟨x, y, rfl⟩ := h
  obtain ⟨z, w, rfl⟩ := k
  exact ⟨z, w, rfl⟩

theorem setChan_chansDiffer (s : State) (k : Nat) (c : Chan) : ChansDiffer s (s.setChan k c) := ⟨_, _, rfl⟩

theorem report_chansDiffer (s : State) (code k i : Nat) (a b : Word) : ChansDiffer s (s.report code k i a b) := by
  obtain ⟨r, e⟩ := report_frame s code k i a b
  exact ⟨s.chans, r, e⟩

theorem leaveChan_differ (g : Nat) (s : State) (k : Nat) : ChansDiffer s (leaveChan g s k) := by
  have second (t : State) (h : ChansDiffer s t) :
      ChansDiffer s (if (t.chan k).res = some g then t.setChan k { t.chan k with res := none, cur := 0 } else t) := by
    split
    · exact h.trans (setChan_chansDiffer _ _ _)
    · exact h
  unfold leaveChan
  refine second _ ?_
  split
  · exact (setChan_chansDiffer s k _).trans (report_chansDiffer _ _ _ _ _ _)
  · exact .refl s

theorem foldl_leaveChan (g : Nat) (l : List Nat) (s : State) :
    ChansDiffer s (l.foldl (leaveChan g) s) ∧
    ∀ j, (l.foldl (leaveChan g) s).chan j = if j ∈ l then chanLeft g (s.chan j) else s.chan j := by
  induction l generalizing s with
  | nil => exact ⟨.refl s, fun j => rfl⟩
  | cons k l ih =>
    obtain ⟨frame, at_⟩ := ih (leaveChan g s k)
    refine ⟨(leaveChan_differ g s k).trans frame, fun j => ?_⟩
    rw [List.foldl_cons, at_, leaveChan_chan]
    by_cases hk : j = k
    · subst hk
      rw [if_pos rfl, if_pos List.mem_cons_self, chanLeft_of_left (chanLeft_res g _) (chanLeft_heldBy g _), ite_self]
    · rw [if_neg hk]
      exact if_congr (by simp [hk]) rfl rfl

theorem get_of_unlisted {α : Type} {d : Nat → α} {t : Tab α} {k : Nat} (h : k ∉ t.map Prod.fst) : Tab.get d t k = d k := by
  induction t with
  | nil => rfl
  | cons e r ih =>
    obtain ⟨j, v⟩ := e
    obtain ⟨hj, hr⟩ : k ≠ j ∧ k ∉ r.map Prod.fst := by simpa using h
    rw [Tab.get, if_neg hj, ih hr]

/-- Every channel is left, listed or not. -/
theorem leaveChans_chan (s : State) (g j : Nat) : (s.leaveChans g).chan j = chanLeft g (s.chan j) := by
  rw [leaveChans_eq, (foldl_leaveChan g _ s).2]
  split
  · rfl
  · rename_i h
    have empty : s.chan j = Chan.reset := get_of_unlisted h
    rw [empty]
    exact (chanLeft_of_left (fun h => by cases h) rfl).symm

/-! ### Becoming IDLE -/

/-- A thread that has become IDLE: its context and its part in a swath stay. -/
def idled (t : Thread) : Thread :=
  { t with st := .idle, prior := .idle, cause := 0, bp := 0, doze := .none, again := [], waitOn := none,
           stopReq := none, haltReq := none, step := false, skipBp := false, div := none, mem := none }

theorem toIdle_eq (s : State) (g : Nat) : s.toIdle g = (s.setThr g (idled (s.thr g))).leaveChans g := rfl

theorem toIdle_differ (s : State) (g : Nat) : ChansDiffer (s.setThr g (idled (s.thr g))) (s.toIdle g) := by
  rw [toIdle_eq, leaveChans_eq]
  exact (foldl_leaveChan g _ _).1

theorem toIdle_frame (s : State) (g : Nat) : ∃ a c r, s.toIdle g = { s with threads := a, chans := c, reports := r } := by
  obtain ⟨c, r, e⟩ := toIdle_differ s g
  exact ⟨_, c, r, e⟩

theorem toIdle_thr (s : State) (g j : Nat) : (s.toIdle g).thr j = if j = g then idled (s.thr g) else s.thr j := by
  obtain ⟨c, r, e⟩ := toIdle_differ s g
  rw [e]
  exact setThr_thr _ g j _

theorem toIdle_chan (s : State) (g k : Nat) : (s.toIdle g).chan k = chanLeft g (s.chan k) := leaveChans_chan _ g k

/-- Only threads differ, and of these only thread `g`, in none of the words of its context (R61). -/
structure SameContext (s u : State) (g : Nat) : Prop where
  frame : ∃ a, u = { s with threads := a }
  others : OnlyAt g s.thr u.thr
  pc : (u.thr g).pc = (s.thr g).pc
  flg : (u.thr g).flg = (s.thr g).flg
  p : (u.thr g).p = (s.thr g).p
  acc : (u.thr g).acc = (s.thr g).acc
  q : (u.thr g).q = (s.thr g).q
  rem : (u.thr g).rem = (s.thr g).rem

theorem SameContext.refl (s : State) (g : Nat) : SameContext s s g :=
  ⟨⟨s.threads, rfl⟩, fun _ _ => rfl, rfl, rfl, rfl, rfl, rfl, rfl⟩

theorem setThr_frame (s : State) (g : Nat) (t : Thread) : ∃ a, s.setThr g t = { s with threads := a } := ⟨_, rfl⟩

theorem setThr_self (s : State) (g : Nat) (t : Thread) : (s.setThr g t).thr g = t := (setThr_thr s g g t).trans (if_pos rfl)

theorem setThr_onlyAt (s : State) (g : Nat) (t : Thread) : OnlyAt g s.thr (s.setThr g t).thr :=
  fun j hj => (setThr_thr s g j t).trans (if_neg hj)

/-- The note of a command's cycle (R138) is no part of the context. -/
theorem noted_sameContext (s : State) (g : Nat) : SameContext s (s.setThr g { s.thr g with tcmd := some s.cycle }) g := by
  have at_ := setThr_self s g { s.thr g with tcmd := some s.cycle }
  exact ⟨setThr_frame s g _, setThr_onlyAt s g _, by rw [at_], by rw [at_], by rw [at_], by rw [at_], by rw [at_], by rw [at_]⟩

/-- A thread that becomes IDLE loses its membership, reservations and open messages, whatever only its own record changed
before (R61, R209, R211, R220). -/
theorem toIdle_becomesIdle {s u : State} {g : Nat} (h : SameContext s u g) : BecomesIdle s (u.toIdle g) g := by
  obtain ⟨b, hu⟩ := h.frame
  obtain ⟨a, c, r, e⟩ := toIdle_frame u g
  have chan (k : Nat) : u.chan k = s.chan k := by rw [hu]; rfl
  have at_ : (u.toIdle g).thr g = idled (u.thr g) := (toIdle_thr u g g).trans (if_pos rfl)
  have frame : ∃ a c r, u.toIdle g = { s with threads := a, chans := c, reports := r } := ⟨a, c, r, by rw [e, hu]⟩
  refine ⟨?_, fun j hj => ?_, ?_⟩
  · obtain ⟨a, c, r, e⟩ := frame
    rw [e]
  · rw [toIdle_thr, if_neg hj, h.others j hj]
  · rw [at_]
    refine ⟨rfl, h.pc, h.flg, h.p, h.acc, h.q, h.rem, rfl, rfl, rfl, rfl, fun k => ?_⟩
    rw [toIdle_chan, chan]
    exact ⟨chanLeft_res g _, chanLeft_heldBy g _, chanLeft_msgs⟩

/-! ### The thread commands -/

theorem coreOf_lt (g : Tid) : coreOf g.toNat < 32 := by
  have := g.isLt
  unfold coreOf
  omega

theorem threadOf (g : Nat) : 16 * coreOf g + locOf g = g := Nat.div_add_mod g 16

theorem fld_tcmdWord (cmd g : Nat) (h : cmd < 4) :
    fld (BitVec.ofNat 32 (tcmdWord cmd g)) 9 8 = cmd ∧ fld (BitVec.ofNat 32 (tcmdWord cmd g)) 3 0 = locOf g := by
  have hl : locOf g < 16 := Nat.mod_lt _ (by omega)
  have hw : (BitVec.ofNat 32 (tcmdWord cmd g)).toNat = 256 * cmd + locOf g := by
    rw [BitVec.toNat_ofNat, tcmdWord, Nat.mod_eq_of_lt (by omega)]
  unfold fld natFld
  rw [hw, Nat.shiftRight_eq_div_pow, Nat.shiftRight_eq_div_pow]
  omega

theorem writeReg_coreTcmd (s : State) (acc : Acc) (n : Nat) (v : Word) (da : Nat) :
    s.writeReg acc (.coreTcmd n) v da = s.command acc da (s.tcmdCmd n (fld v 9 8) (fld v 3 0)) := by
  have hs : s.secureBars acc (.coreTcmd n) v = false := Bool.and_false _
  unfold State.writeReg
  rw [if_neg (fun h => h.1.elim Bool.false_ne_true Bool.false_ne_true), hs, if_neg Bool.false_ne_true]

theorem put_coreTcmd {s : State} {acc : Acc} (h : Open s acc) (g : Tid) {cmd : Nat} (hc : cmd < 4) :
    s.put acc (.coreTcmd (coreOf g.toNat)) (tcmdWord cmd g.toNat) =
      (s.command acc (Reg.coreTcmd (coreOf g.toNat)).off (s.tcmdCmd (coreOf g.toNat) cmd (locOf g.toNat))).1 := by
  obtain ⟨hcmd, hloc⟩ := fld_tcmdWord cmd g.toNat hc
  have hr : (Reg.coreTcmd (coreOf g.toNat)).inRange = true := decide_eq_true (coreOf_lt g)
  rw [put_open h hr (by simp only [Reg.off, coreBase]; omega), writeReg_coreTcmd, hcmd, hloc]

theorem command_accepted {s t : State} (acc : Acc) (da : Nat) : (s.command acc da (t, true)).1 = t := rfl

theorem command_refused {s : State} {acc : Acc} (h : Open s acc) (da : Nat) (t : State) :
    (s.command acc da (t, false)).1 = refusal s acc 0x60 da := by
  unfold State.command
  rw [if_neg Bool.false_ne_true, refuse_open h]

/-- What CORE_TCMD makes of the three commands (Table 20). -/
theorem tcmdCmd_eq (s : State) (g cmd : Nat) :
    s.tcmdCmd (coreOf g) cmd (locOf g) =
      if cmd = 1 ∧ (s.thr g).st = .idle then ((s.setThr g { s.thr g with tcmd := some s.cycle }).startThread g, true)
      else if cmd = 2 ∧ (s.thr g).st ≠ .idle then ((s.setThr g { s.thr g with tcmd := some s.cycle }).stopThread g, true)
      else if cmd = 3 ∧ (s.thr g).st = .faulted then ((s.setThr g { s.thr g with tcmd := some s.cycle }).toIdle g, true)
      else (s, false) := by
  unfold State.tcmdCmd
  rw [threadOf]

section
variable {acc : Acc} {g : Tid} {s : State}

theorem coreTcmdStart_idle (ho : Open s acc) (h : (s.thr g.toNat).st = .idle) :
    exec (.coreTcmdStart acc g) s = .next ((s.setThr g.toNat { s.thr g.toNat with tcmd := some s.cycle }).startThread g.toNat) := by
  have done := put_coreTcmd ho g (cmd := 1) (by omega)
  rw [tcmdCmd_eq, if_pos ⟨rfl, h⟩, command_accepted] at done
  exact congrArg Host.Outcome.next done

theorem coreTcmdStart_refused (ho : Open s acc) (h : (s.thr g.toNat).st ≠ .idle) :
    exec (.coreTcmdStart acc g) s = .next (refusal s acc 0x60 (Reg.coreTcmd (coreOf g.toNat)).off) := by
  have done := put_coreTcmd ho g (cmd := 1) (by omega)
  rw [tcmdCmd_eq, if_neg (by simp [h]), if_neg (by simp), if_neg (by simp), command_refused ho] at done
  exact congrArg Host.Outcome.next done

theorem coreTcmdStop_running (ho : Open s acc) (h : (s.thr g.toNat).st ≠ .idle) :
    exec (.coreTcmdStop acc g) s = .next ((s.setThr g.toNat { s.thr g.toNat with tcmd := some s.cycle }).stopThread g.toNat) := by
  have done := put_coreTcmd ho g (cmd := 2) (by omega)
  rw [tcmdCmd_eq, if_neg (by simp), if_pos ⟨rfl, h⟩, command_accepted] at done
  exact congrArg Host.Outcome.next done

theorem coreTcmdStop_refused (ho : Open s acc) (h : (s.thr g.toNat).st = .idle) :
    exec (.coreTcmdStop acc g) s = .next (refusal s acc 0x60 (Reg.coreTcmd (coreOf g.toNat)).off) := by
  have done := put_coreTcmd ho g (cmd := 2) (by omega)
  rw [tcmdCmd_eq, if_neg (by simp), if_neg (by simp [h]), if_neg (by simp), command_refused ho] at done
  exact congrArg Host.Outcome.next done

theorem coreTcmdClear_faulted (ho : Open s acc) (h : (s.thr g.toNat).st = .faulted) :
    exec (.coreTcmdClear acc g) s = .next ((s.setThr g.toNat { s.thr g.toNat with tcmd := some s.cycle }).toIdle g.toNat) := by
  have done := put_coreTcmd ho g (cmd := 3) (by omega)
  rw [tcmdCmd_eq, if_neg (by simp), if_neg (by simp), if_pos ⟨rfl, h⟩, command_accepted] at done
  exact congrArg Host.Outcome.next done

theorem coreTcmdClear_refused (ho : Open s acc) (h : (s.thr g.toNat).st ≠ .faulted) :
    exec (.coreTcmdClear acc g) s = .next (refusal s acc 0x60 (Reg.coreTcmd (coreOf g.toNat)).off) := by
  have done := put_coreTcmd ho g (cmd := 3) (by omega)
  rw [tcmdCmd_eq, if_neg (by simp), if_neg (by simp), if_neg (by simp [h]), command_refused ho] at done
  exact congrArg Host.Outcome.next done

end

/-- A record written twice in one cycle: the last write counts, and only this thread's record differs. -/
theorem setThr_twice (s : State) (g : Nat) (a b : Thread) :
    (s.setThr g a).setThr g b = { s with threads := ((s.setThr g a).setThr g b).threads } ∧
    OnlyAt g s.thr ((s.setThr g a).setThr g b).thr ∧ ((s.setThr g a).setThr g b).thr g = b :=
  ⟨rfl, fun j hj => (setThr_onlyAt _ g b j hj).trans (setThr_onlyAt s g a j hj), setThr_self _ g b⟩

theorem stopThread_ready {s : State} {g : Nat} (h : (s.thr g).st = .ready) :
    s.stopThread g = if (s.thr g).stopReq.isSome then s else s.setThr g { s.thr g with stopReq := some s.cycle } := by
  unfold State.stopThread
  generalize s.thr g = t at h
  simp only [h]

theorem stopThread_stopped {s : State} {g : Nat} (h1 : (s.thr g).st ≠ .idle) (h2 : (s.thr g).st ≠ .ready) :
    s.stopThread g = s.toIdle g := by
  unfold State.stopThread
  generalize s.thr g = t at h1 h2
  dsimp only
  cases hs : t.st with
  | idle => exact absurd hs h1
  | ready => exact absurd hs h2
  | waiting => rfl
  | dozing => rfl
  | faulted => rfl
  | halted => rfl

/-- Of a thread that becomes IDLE by a command, the command's cycle stays noted (R138). -/
theorem noted_toIdle (s : State) (g : Nat) :
    BecomesIdle s ((s.setThr g { s.thr g with tcmd := some s.cycle }).toIdle g) g ∧
    (((s.setThr g { s.thr g with tcmd := some s.cycle }).toIdle g).thr g).tcmd = some s.cycle := by
  refine ⟨toIdle_becomesIdle (noted_sameContext s g), ?_⟩
  rw [toIdle_thr, if_pos rfl, setThr_self]
  rfl

theorem start_spec {s : State} {g : Nat} (h : (s.thr g).st = .idle) :
    (s.setThr g { s.thr g with tcmd := some s.cycle }).startThread g =
      (s.setThr g { s.thr g with tcmd := some s.cycle }).setThr g
        { s.thr g with st := .ready, next := max (s.thr g).next (s.cycle + 1), tcmd := some s.cycle,
                       part := (s.thr g).part.map fun p => { p with restarted := true } } := by
  unfold State.startThread
  rw [setThr_self]
  exact if_pos h

/-- STOP of a READY thread: the request stands from its first acceptance. -/
theorem stop_ready_spec {s : State} {g : Nat} (h : (s.thr g).st = .ready) :
    ∃ u, (s.setThr g { s.thr g with tcmd := some s.cycle }).stopThread g = u ∧ u = { s with threads := u.threads } ∧
      OnlyAt g s.thr u.thr ∧
      u.thr g = { s.thr g with stopReq := some ((s.thr g).stopReq.getD s.cycle), tcmd := some s.cycle } := by
  have self := setThr_self s g { s.thr g with tcmd := some s.cycle }
  refine ⟨_, stopThread_ready (by rw [self]; exact h), ?_⟩
  rw [self]
  cases hr : (s.thr g).stopReq with
  | some c =>
    refine ⟨rfl, setThr_onlyAt s g _, self.trans ?_⟩
    rw [Option.getD_some, ← hr]
  | none => exact setThr_twice s g _ _

/-! ### The boundary (R384) -/

theorem threadStopAtBoundary_due {g : Tid} {s : State} (h : s.stopDue g.toNat = true) :
    exec (.threadStopAtBoundary g) s = .next (s.stopNow g.toNat) := congrArg Host.Outcome.next (if_pos h)

theorem threadStopAtBoundary_idle {g : Tid} {s : State} (h : s.stopDue g.toNat = false) : Idle (.threadStopAtBoundary g) s :=
  congrArg Host.Outcome.next (if_neg (by simp [h]))

section
variable {s : State} {g c : Nat}

theorem stopDue_of_stop (hst : (s.thr g).st = .ready) (hn : (s.thr g).next ≤ s.cycle) (hs : (s.thr g).stopReq = some c)
    (hc : c < s.cycle) : s.stopDue g = true := by
  simp [State.stopDue, hst, hn, hs, hc]

theorem stopDue_of_halt {k : Nat} (hst : (s.thr g).st = .ready) (hn : (s.thr g).next ≤ s.cycle)
    (hh : (s.thr g).haltReq = some (k, c)) (hc : c < s.cycle) : s.stopDue g = true := by
  simp [State.stopDue, hst, hn, hh, hc]

theorem stopNow_of_stop (hs : (s.thr g).stopReq = some c) : s.stopNow g = s.toIdle g := by
  unfold State.stopNow
  exact if_pos (by rw [hs]; rfl)

theorem stopNow_of_halt {k : Nat} (hst : (s.thr g).st = .ready) (hs : (s.thr g).stopReq = none)
    (hh : (s.thr g).haltReq = some (k, c)) : s.stopNow g = s.toHalted g k 0 := by
  unfold State.stopNow
  generalize s.thr g = t at hst hs hh
  simp only [hs, hh, hst, Option.isSome_none, Bool.false_eq_true, if_false, reduceCtorEq, false_and]

end

/-- A thread that has become HALTED: its context stays and PRIOR is the state it left (Table 20). -/
theorem toHalted_spec (s : State) (g k b : Nat) :
    s.toHalted g k b = { s with threads := (s.toHalted g k b).threads } ∧ OnlyAt g s.thr (s.toHalted g k b).thr ∧
    ((s.toHalted g k b).thr g).st = .halted ∧ ((s.toHalted g k b).thr g).prior = (s.thr g).st ∧
    ((s.toHalted g k b).thr g).cause = k ∧ ((s.toHalted g k b).thr g).bp = b ∧ ((s.toHalted g k b).thr g).haltReq = none ∧
    ((s.toHalted g k b).thr g).pc = (s.thr g).pc ∧ ((s.toHalted g k b).thr g).doze = (s.thr g).doze := by
  unfold State.toHalted
  dsimp only
  rw [setThr_self]
  exact ⟨rfl, setThr_onlyAt s g _, rfl, rfl, rfl, rfl, rfl, rfl, rfl⟩

/-- Settles O40: each command is one row of Table 20, and becoming IDLE leaves every channel of the thread. -/
theorem threadCommandsFollowTable20 : Obligations.ThreadCommandsFollowTable20 := by
  refine ⟨?_, fun _ _ _ ho h => coreTcmdStart_refused ho h, fun _ _ _ ho h => coreTcmdStop_refused ho h, ?_, ?_, ?_,
    fun _ _ _ ho h => coreTcmdClear_refused ho h, ?_, ?_, fun _ _ h => threadStopAtBoundary_idle h⟩
  · intro acc g s ho h
    exact ⟨_, (coreTcmdStart_idle ho h).trans (congrArg Host.Outcome.next (start_spec h)), setThr_twice s g.toNat _ _⟩
  · intro acc g s ho h
    obtain ⟨u, hu, spec⟩ := stop_ready_spec h
    exact ⟨u, (coreTcmdStop_running ho (by simp [h])).trans (congrArg Host.Outcome.next hu), spec⟩
  · intro acc g s ho h1 h2
    have st : ((s.setThr g.toNat { s.thr g.toNat with tcmd := some s.cycle }).thr g.toNat).st = (s.thr g.toNat).st := by
      rw [setThr_self]
    have stopped := stopThread_stopped (by rwa [st]) (by rwa [st])
    exact ⟨_, (coreTcmdStop_running ho h1).trans (congrArg Host.Outcome.next stopped), noted_toIdle s g.toNat⟩
  · intro acc g s ho h
    exact ⟨_, coreTcmdClear_faulted ho h, noted_toIdle s g.toNat⟩
  · intro g c s hst hn hs hc
    exact ⟨_, (threadStopAtBoundary_due (stopDue_of_stop hst hn hs hc)).trans (congrArg Host.Outcome.next (stopNow_of_stop hs)),
      toIdle_becomesIdle (.refl s g.toNat)⟩
  · intro g k c s hst hn hs hh hc
    obtain ⟨frame, others, st, prior, cause, -, halt, pc, -⟩ := toHalted_spec s g.toNat k 0
    exact ⟨_, (threadStopAtBoundary_due (stopDue_of_halt hst hn hh hc)).trans (congrArg Host.Outcome.next (stopNow_of_halt hst hs hh)),
      frame, others, st, prior.trans hst, cause, halt, pc⟩

end Sys2Proof.Proofs
end

section
/-! SUPPORT. The debug commands of the Camin port (Table 118): what CORE_DBGCMD accepts, and what it does to the thread. -/
namespace Sys2Proof.Proofs
open Sys2Proof.Machine Sys2Proof.Laws

/-! ### CORE_DBGCMD -/

theorem writeReg_coreDbgcmd {s : State} {acc : Acc} (hp : acc.path = .camin) (n : Nat) (v : Word) (da : Nat) :
    s.writeReg acc (.coreDbgcmd n) v da = s.command acc da (s.debugCmd n (fld v 9 8) (fld v 3 0)) := by
  have hs : s.secureBars acc (.coreDbgcmd n) v = false := Bool.and_false _
  unfold State.writeReg
  rw [if_neg (fun h => h.2 hp), hs, if_neg Bool.false_ne_true]

section
variable {s : State} {acc : Acc} (ho : Open s acc) (g : Tid)

theorem coreDbgcmd_inRange : (Reg.coreDbgcmd (coreOf g.toNat)).inRange = true := decide_eq_true (coreOf_lt g)

theorem coreDbgcmd_off : 0x100 ≤ (Reg.coreDbgcmd (coreOf g.toNat)).off := by
  simp only [Reg.off, coreBase]
  omega

include ho

theorem put_coreDbgcmd (hp : acc.path = .camin) {cmd : Nat} (hc : cmd < 4) :
    s.put acc (.coreDbgcmd (coreOf g.toNat)) (tcmdWord cmd g.toNat) =
      (s.command acc (Reg.coreDbgcmd (coreOf g.toNat)).off (s.debugCmd (coreOf g.toNat) cmd (locOf g.toNat))).1 := by
  obtain ⟨hcmd, hloc⟩ := fld_tcmdWord cmd g.toNat hc
  rw [put_open ho (coreDbgcmd_inRange g) (coreDbgcmd_off g), writeReg_coreDbgcmd hp, hcmd, hloc]

theorem put_coreDbgcmd_denied (hp : acc.path ≠ .camin) (v : Nat) :
    s.put acc (.coreDbgcmd (coreOf g.toNat)) v = refusal s acc 0x05 (Reg.coreDbgcmd (coreOf g.toNat)).off := by
  rw [put_open ho (coreDbgcmd_inRange g) (coreDbgcmd_off g), writeReg_caminOnly ho (.inl rfl) hp]

theorem put_coreDbgcmd_accepted (hp : acc.path = .camin) {cmd : Nat} (hc : cmd < 4) {t : State}
    (h : s.debugCmd (coreOf g.toNat) cmd (locOf g.toNat) = (t, true)) :
    s.put acc (.coreDbgcmd (coreOf g.toNat)) (tcmdWord cmd g.toNat) = t := by
  rw [put_coreDbgcmd ho g hp hc, h, command_accepted]

theorem put_coreDbgcmd_refused (hp : acc.path = .camin) {cmd : Nat} (hc : cmd < 4) {t : State}
    (h : s.debugCmd (coreOf g.toNat) cmd (locOf g.toNat) = (t, false)) :
    s.put acc (.coreDbgcmd (coreOf g.toNat)) (tcmdWord cmd g.toNat) = refusal s acc 0x60 (Reg.coreDbgcmd (coreOf g.toNat)).off := by
  rw [put_coreDbgcmd ho g hp hc, h, command_refused ho]

end

/-- What CORE_DBGCMD makes of the three commands (Table 118). -/
theorem debugCmd_eq (s : State) (g cmd : Nat) :
    s.debugCmd (coreOf g) cmd (locOf g) =
      if ¬ s.active then (s, false)
      else if cmd = 1 ∧ (s.thr g).st ≠ .idle ∧ (s.thr g).st ≠ .halted then (s.haltThread g 1, true)
      else if cmd = 2 ∧ (s.thr g).debugHalted then (s.resume g (s.cycle + 2), true)
      else if cmd = 3 ∧ (s.thr g).debugHalted ∧ ((s.thr g).prior = .ready ∨ (s.thr g).prior = .waiting) then
        (s.setThr g { s.thr g with step := true, skipBp := (s.thr g).cause == 2 || (s.thr g).skipBp,
                                   next := max (s.thr g).next (s.cycle + 2) }, true)
      else (s, false) := by
  unfold State.debugCmd
  rw [threadOf]

section
variable {s : State} {g : Nat}

theorem haltCmd_refused (h : s.active = false ∨ (s.thr g).st = .idle ∨ (s.thr g).st = .halted) :
    s.debugCmd (coreOf g) 1 (locOf g) = (s, false) := by
  rw [debugCmd_eq]
  rcases h with h | h | h <;> simp [h]

theorem haltCmd_accepted (ha : s.active = true) (h1 : (s.thr g).st ≠ .idle) (h2 : (s.thr g).st ≠ .halted) :
    s.debugCmd (coreOf g) 1 (locOf g) = (s.haltThread g 1, true) := by
  rw [debugCmd_eq, if_neg (not_not_intro ha), if_pos ⟨rfl, h1, h2⟩]

theorem resumeCmd_refused (h : s.active = false ∨ (s.thr g).debugHalted = false) :
    s.debugCmd (coreOf g) 2 (locOf g) = (s, false) := by
  rw [debugCmd_eq]
  rcases h with h | h <;> simp [h]

theorem resumeCmd_accepted (ha : s.active = true) (h : (s.thr g).debugHalted = true) :
    s.debugCmd (coreOf g) 2 (locOf g) = (s.resume g (s.cycle + 2), true) := by
  rw [debugCmd_eq, if_neg (not_not_intro ha), if_neg (by simp), if_pos ⟨rfl, h⟩]

theorem stepCmd_refused
    (h : s.active = false ∨ (s.thr g).debugHalted = false ∨ ((s.thr g).prior ≠ .ready ∧ (s.thr g).prior ≠ .waiting)) :
    s.debugCmd (coreOf g) 3 (locOf g) = (s, false) := by
  rw [debugCmd_eq]
  rcases h with h | h | ⟨h1, h2⟩
  · simp [h]
  · simp [h]
  · simp [h1, h2]

theorem stepCmd_accepted (ha : s.active = true) (h : (s.thr g).debugHalted = true)
    (hp : (s.thr g).prior = .ready ∨ (s.thr g).prior = .waiting) :
    s.debugCmd (coreOf g) 3 (locOf g) =
      (s.setThr g { s.thr g with step := true, skipBp := (s.thr g).cause == 2 || (s.thr g).skipBp,
                                 next := max (s.thr g).next (s.cycle + 2) }, true) := by
  rw [debugCmd_eq, if_neg (not_not_intro ha), if_neg (by simp), if_neg (by simp), if_pos ⟨rfl, h, hp⟩]

/-! ### What the accepted commands do to the thread -/

theorem haltThread_ready (k : Nat) (h : (s.thr g).st = .ready) (hn : (s.thr g).haltReq = none) :
    s.haltThread g k = s.setThr g { s.thr g with haltReq := some (k, s.cycle) } := by
  unfold State.haltThread
  generalize s.thr g = t at h hn
  simp only [h, hn]

theorem haltThread_stopped (h : (s.thr g).st = .waiting ∨ (s.thr g).st = .dozing ∨ (s.thr g).st = .faulted) :
    s.haltThread g 1 = s.toHalted g 1 0 := by
  unfold State.haltThread
  generalize s.thr g = t at h
  rcases h with h | h | h <;> simp [h]

theorem haltCmd_ready (ha : s.active = true) (h : (s.thr g).st = .ready) (hn : (s.thr g).haltReq = none) :
    s.debugCmd (coreOf g) 1 (locOf g) = (s.setThr g { s.thr g with haltReq := some (1, s.cycle) }, true) := by
  rw [haltCmd_accepted ha (by simp [h]) (by simp [h]), haltThread_ready 1 h hn]

theorem haltCmd_stopped (ha : s.active = true) (h : (s.thr g).st = .waiting ∨ (s.thr g).st = .dozing ∨ (s.thr g).st = .faulted) :
    s.debugCmd (coreOf g) 1 (locOf g) = (s.toHalted g 1 0, true) := by
  have running : (s.thr g).st ≠ .idle ∧ (s.thr g).st ≠ .halted := by
    rcases h with h | h | h <;> simp [h]
  rw [haltCmd_accepted ha running.1 running.2, haltThread_stopped h]

theorem debugHalted_st {t : Thread} (h : t.debugHalted = true) : t.st = .halted := by
  simp only [Thread.debugHalted, Bool.and_eq_true, beq_iff_eq] at h
  exact h.1.1

/-- The record of a resumed thread whose PRIOR is not DOZING. -/
theorem resume_awake (first : Nat) (h : (s.thr g).prior ≠ .dozing) :
    s.resume g first = s.setThr g { s.thr g with
      st := (s.thr g).prior, prior := .idle, cause := 0, bp := 0, step := false, next := max (s.thr g).next first,
      skipBp := (s.thr g).cause == 2 || (s.thr g).skipBp } := by
  unfold State.resume
  exact if_neg h

end

end Sys2Proof.Proofs
end

section
/-! SUPPORT. Breakpoints (R377, R378): the halt, what else it changes, and the HOLD request. -/
namespace Sys2Proof.Proofs
open Sys2Proof.Machine Sys2Proof.Laws

/-! ### Breakpoints -/

theorem finishDiv_none {s : State} {g : Nat} (h : (s.thr g).div = none) : s.finishDiv g = s := by
  unfold State.finishDiv
  generalize s.thr g = t at h
  simp only [h]

/-- A thread that a breakpoint halts, and the cycle noted as used by its core. -/
def bpStopped (s : State) (g b : Nat) : State :=
  let u := (s.setThr g { s.thr g with st := .ready, step := false }).toHalted g 2 b
  u.setCore (coreOf g) { u.core (coreOf g) with issued := some s.cycle }

/-- What a breakpoint does before its action: the halt, and the empty slot counted. -/
def bpHalted (s : State) (g b : Nat) : State := (bpStopped s g b).bump (.coreEmpty (coreOf g)) 1

theorem bpHit_lt {s : State} {g b : Nat} (h : s.bpHit g = some b) : b < 4 := by
  unfold State.bpHit at h
  dsimp only at h
  split at h
  · cases h
  · exact List.mem_range.mp (List.mem_of_find?_eq_some h)

/-- The breakpoint's action: ACT 2 requests HOLD for the next cycle (R377). -/
def bpActs (s : State) (g b : Nat) : State :=
  let u := bpHalted s g b
  if u.rf (.coreBpc (coreOf g) b) 31 30 = 2 then { u with holdReq := some (.camin, u.cycle + 1) } else u

/-- The core of `g` issues `g` in this cycle. -/
def issued (s : State) (g : Nat) : Bool :=
  match s.issuer (coreOf g) with
  | some (t, _) => t == g
  | none => false

theorem breakpointHit_eq (g : Tid) (s : State) :
    exec (.breakpointHit g) s =
      match (if issued (s.finishDiv g.toNat) g.toNat then (s.finishDiv g.toNat).bpHit g.toNat else none) with
      | none => .next s
      | some b => .next (bpActs (s.finishDiv g.toNat) g.toNat b) := rfl

theorem breakpointHit_hit {g : Tid} {b : Nat} {sp : Bool} {s : State} (hd : (s.thr g.toNat).div = none)
    (hi : s.issuer (coreOf g.toNat) = some (g.toNat, sp)) (hb : s.bpHit g.toNat = some b) :
    exec (.breakpointHit g) s = .next (bpActs s g.toNat b) := by
  have would : issued s g.toNat = true := by simp [issued, hi]
  rw [breakpointHit_eq, finishDiv_none hd, would, if_pos rfl, hb]

theorem breakpointHit_none {g : Tid} {s : State} (hd : (s.thr g.toNat).div = none)
    (h : s.bpHit g.toNat = none ∨ s.issuer (coreOf g.toNat) = none) : Idle (.breakpointHit g) s := by
  have missed : (if issued s g.toNat then s.bpHit g.toNat else none) = none := by
    rcases h with h | h
    · rw [h, ite_self]
    · simp [issued, h]
  rw [Idle, breakpointHit_eq, finishDiv_none hd, missed]

/-- Only records of threads and cores, and registers, differ. -/
def CoresDiffer (s t : State) : Prop := ∃ a b c, t = { s with threads := a, cores := b, regs := c }

theorem CoresDiffer.trans {s t u : State} (h : CoresDiffer s t) (k : CoresDiffer t u) : CoresDiffer s u := by
  obtain ⟨a, b, c, rfl⟩ := h
  obtain ⟨x, y, z, rfl⟩ := k
  exact ⟨x, y, z, rfl⟩

theorem setThr_coresDiffer (s : State) (g : Nat) (t : Thread) : CoresDiffer s (s.setThr g t) := ⟨_, s.cores, s.regs, rfl⟩

theorem setCore_coresDiffer (s : State) (n : Nat) (c : Core) : CoresDiffer s (s.setCore n c) := ⟨s.threads, _, s.regs, rfl⟩

theorem setReg_coresDiffer (s : State) (r : Reg) (v : Word) : CoresDiffer s (s.setReg r v) := ⟨s.threads, s.cores, _, rfl⟩

theorem toHalted_coresDiffer (s : State) (g k b : Nat) : CoresDiffer s (s.toHalted g k b) := setThr_coresDiffer s g _

theorem bpStopped_frame (s : State) (g b : Nat) : CoresDiffer s (bpStopped s g b) := by
  unfold bpStopped
  exact ((setThr_coresDiffer s g _).trans (toHalted_coresDiffer _ g 2 b)).trans (setCore_coresDiffer _ _ _)

theorem bpHalted_frame (s : State) (g b : Nat) : CoresDiffer s (bpHalted s g b) :=
  (bpStopped_frame s g b).trans (setReg_coresDiffer _ _ _)

theorem bpStopped_reg (s : State) (g b : Nat) (r : Reg) : (bpStopped s g b).reg r = s.reg r := rfl

theorem bpHalted_regs (s : State) (g b : Nat) : RegsBut [.coreEmpty (coreOf g)] s (bpHalted s g b) := by
  intro r hr
  rw [← bpStopped_reg s g b r]
  exact setReg_regsBut (bpStopped s g b) _ _ r hr

theorem bpHalted_thr (s : State) (g b j : Nat) :
    (bpHalted s g b).thr j = ((s.setThr g { s.thr g with st := .ready, step := false }).toHalted g 2 b).thr j := rfl

theorem bpHalted_thread (s : State) (g b : Nat) :
    OnlyAt g s.thr (bpHalted s g b).thr ∧ ((bpHalted s g b).thr g).st = .halted ∧ ((bpHalted s g b).thr g).cause = 2 ∧
    ((bpHalted s g b).thr g).bp = b ∧ ((bpHalted s g b).thr g).prior = .ready ∧ ((bpHalted s g b).thr g).pc = (s.thr g).pc ∧
    ((bpHalted s g b).thr g).haltReq = none := by
  have woken := setThr_self s g { s.thr g with st := .ready, step := false }
  obtain ⟨-, others, st, prior, cause, bp, halt, pc, -⟩ :=
    toHalted_spec (s.setThr g { s.thr g with st := .ready, step := false }) g 2 b
  rw [woken] at prior pc
  rw [bpHalted_thr]
  exact ⟨fun j hj => (bpHalted_thr s g b j).trans ((others j hj).trans (setThr_onlyAt s g _ j hj)), st, cause, bp, prior, pc, halt⟩

/-- ACT is read after the halt, which changes no breakpoint register. -/
theorem bpHalted_act {s : State} {g b : Nat} (hb : b < 4) :
    (bpHalted s g b).rf (.coreBpc (coreOf g) b) 31 30 = s.rf (.coreBpc (coreOf g) b) 31 30 := by
  have same : (bpHalted s g b).reg (.coreBpc (coreOf g) b) = s.reg (.coreBpc (coreOf g) b) :=
    bpHalted_regs s g b _ (by simp [Reg.off]; omega)
  rw [State.rf, same]
  rfl

theorem bpActs_spec {s : State} {g b : Nat} (hb : b < 4) :
    bpActs s g b = { s with threads := (bpActs s g b).threads, cores := (bpActs s g b).cores, regs := (bpActs s g b).regs,
                            holdReq := (bpActs s g b).holdReq } ∧
    (bpActs s g b).thr = (bpHalted s g b).thr ∧ RegsBut [.coreEmpty (coreOf g)] s (bpActs s g b) ∧
    (bpActs s g b).holdReq = if s.rf (.coreBpc (coreOf g) b) 31 30 = 2 then some (.camin, s.cycle + 1) else s.holdReq := by
  obtain ⟨x, y, z, e⟩ := bpHalted_frame s g b
  have regs := bpHalted_regs s g b
  have cycle : (bpHalted s g b).cycle = s.cycle := by rw [e]
  have req : (bpHalted s g b).holdReq = s.holdReq := by rw [e]
  unfold bpActs
  dsimp only
  rw [bpHalted_act hb]
  split
  · refine ⟨?_, rfl, regs, ?_⟩
    · rw [e]
    · rw [cycle]
  · refine ⟨?_, rfl, regs, req⟩
    · rw [e]

end Sys2Proof.Proofs
end

section
/-! SUPPORT. Special registers (R108, R379): what a write of one changes, and that it reads as written with its reserved bits 0. -/
namespace Sys2Proof.Proofs
open Sys2Proof.Machine Sys2Proof.Laws

/-! ### Words of 64 bits -/

theorem low_and (v : DWord) (m : Word) : (lo32 v &&& m).setWidth 64 = v &&& m.setWidth 64 := by
  refine BitVec.eq_of_getLsbD_eq fun i hi => ?_
  have hm : m.getLsbD i = true → i < 32 := fun h => by
    by_contra hge
    rw [BitVec.getLsbD_of_ge m i (by omega)] at h
    cases h
  simp only [lo32, BitVec.getLsbD_setWidth, BitVec.getLsbD_and, hi, decide_true, Bool.true_and]
  cases hb : m.getLsbD i with
  | false => simp
  | true => simp [hm hb]

theorem low_word (v : DWord) : (lo32 v).setWidth 64 = v &&& 0xFFFFFFFF := by
  have h := low_and v (BitVec.allOnes 32)
  rwa [BitVec.and_allOnes] at h

theorem lo32_mk64 (a b : Word) : lo32 (mk64 a b) = b := by
  refine BitVec.eq_of_getLsbD_eq fun i hi => ?_
  simp [lo32, mk64, hi]

theorem hi32_mk64 (a b : Word) : hi32 (mk64 a b) = a := by
  refine BitVec.eq_of_getLsbD_eq fun i hi => ?_
  simp [hi32, mk64, hi, show 32 + i < 64 by omega]

theorem mk64_halves (v : DWord) : mk64 (hi32 v) (lo32 v) = v := by
  refine BitVec.eq_of_getLsbD_eq fun i hi => ?_
  by_cases h : i < 32
  · simp [hi32, lo32, mk64, hi, h]
  · simp [hi32, lo32, mk64, hi, h, show 32 + (i - 32) = i by omega, show i - 32 < 32 by omega]

/-- The accumulator takes its low 64 bits. -/
theorem acc_low (a : BitVec 80) (v : DWord) : ((a >>> 64 <<< 64) ||| v.setWidth 80).setWidth 64 = v := by
  refine BitVec.eq_of_getLsbD_eq fun i hi => ?_
  simp [hi]

/-- The accumulator takes its high 16 bits. -/
theorem acc_high (a : BitVec 80) (v : DWord) :
    (((v.setWidth 80 <<< 64) ||| (a.setWidth 64).setWidth 80) >>> 64).setWidth 64 = v &&& 0xFFFF := by
  have mask : (0xFFFF : DWord) = (BitVec.allOnes 16).setWidth 64 := by decide
  refine BitVec.eq_of_getLsbD_eq fun i hi => ?_
  rw [BitVec.getLsbD_and, mask, BitVec.getLsbD_setWidth, BitVec.getLsbD_setWidth, BitVec.getLsbD_allOnes,
    BitVec.getLsbD_ushiftRight, decide_eq_true hi, Bool.true_and, Bool.true_and]
  by_cases h : i < 16
  · simp [h, show 64 + i < 80 by omega]
  · simp [h, show ¬ 64 + i < 80 by omega]

/-! ### What a special register's write changes -/

theorem loop_setLoop (t : Thread) (i : Nat) (l : Loop) : (t.setLoop i l).loop i = l := by
  unfold Thread.setLoop Thread.loop
  split
  · rfl
  split
  · rfl
  split <;> rfl

theorem setLoop_pc (t : Thread) (i : Nat) (l : Loop) : (t.setLoop i l).pc = t.pc ∧ (t.setLoop i l).st = t.st := by
  unfold Thread.setLoop
  split
  · exact ⟨rfl, rfl⟩
  split
  · exact ⟨rfl, rfl⟩
  split <;> exact ⟨rfl, rfl⟩

/-- A write of a special register but PC sets words of the thread's record beside PC and state, or one of three registers. -/
inductive SpSets (s : State) (g : Nat) : State → Prop
  | thread (t : Thread) (pc : t.pc = (s.thr g).pc) (st : t.st = (s.thr g).st) : SpSets s g (s.setThr g t)
  | register (r : Nat → Nat → Reg) (hr : r = .coreWin ∨ r = .coreEvv ∨ r = .coreTctl) (w : Word) :
      SpSets s g (s.setReg (thrReg r g) w)
  | none : SpSets s g s

theorem spSet_sets (s : State) (g n : Nat) (v : DWord) : SpSets s g (s.spSet g n v) := by
  have ite {p : Prop} [Decidable p] {a b : State} (ha : SpSets s g a) (hb : SpSets s g b) : SpSets s g (if p then a else b) := by
    split
    · exact ha
    · exact hb
  have loop (i : Nat) (l : Loop) : SpSets s g (s.setThr g ((s.thr g).setLoop i l)) :=
    .thread _ (setLoop_pc _ i l).1 (setLoop_pc _ i l).2
  unfold State.spSet
  extract_lets t w
  exact ite (.thread _ rfl rfl) <| ite (.register .coreWin (.inl rfl) _) <| ite (.register .coreEvv (.inr (.inl rfl)) _) <|
    ite (.register .coreTctl (.inr (.inr rfl)) _) <| ite (.thread _ rfl rfl) <| ite (.thread _ rfl rfl) <| ite (.thread _ rfl rfl) <|
    ite (.thread _ rfl rfl) <| ite (.thread _ rfl rfl) <| ite (.thread _ rfl rfl) <| ite (.thread _ rfl rfl) <|
    ite (.thread _ rfl rfl) <| ite (.thread _ rfl rfl) <| ite (.thread _ rfl rfl) <| ite (loop _ _) <| ite (loop _ _) <|
    ite (loop _ _) .none

theorem SpSets.frame {s u : State} {g : Nat} (h : SpSets s g u) : CoresDiffer s u := by
  cases h with
  | thread t => exact setThr_coresDiffer s g t
  | register r _ w => exact setReg_coresDiffer s _ w
  | none => exact ⟨s.threads, s.cores, s.regs, rfl⟩

theorem SpSets.thr {s u : State} {g : Nat} (h : SpSets s g u) :
    OnlyAt g s.thr u.thr ∧ (u.thr g).pc = (s.thr g).pc ∧ (u.thr g).st = (s.thr g).st := by
  cases h with
  | thread t pc st =>
    rw [setThr_self]
    exact ⟨setThr_onlyAt s g t, pc, st⟩
  | register r _ w => exact ⟨fun _ _ => rfl, rfl, rfl⟩
  | none => exact ⟨fun _ _ => rfl, rfl, rfl⟩

theorem SpSets.regs {s u : State} {g : Nat} (h : SpSets s g u) :
    RegsBut [thrReg .coreWin g, thrReg .coreEvv g, thrReg .coreTctl g] s u := by
  intro x hx
  obtain ⟨h1, h2, h3⟩ : x.off ≠ (thrReg .coreWin g).off ∧ x.off ≠ (thrReg .coreEvv g).off ∧ x.off ≠ (thrReg .coreTctl g).off := by
    simpa using hx
  cases h with
  | thread t => rfl
  | none => rfl
  | register r hr w =>
    rcases hr with rfl | rfl | rfl
    · exact setReg_reg_other s w h1
    · exact setReg_reg_other s w h2
    · exact setReg_reg_other s w h3

/-! ### What a special register reads after its write (R108) -/

theorem spRead_ls (s : State) (g : Nat) {i : Nat} (hi : i < 4) : s.spRead g (0x20 + i) = ((s.thr g).loop i).ls.setWidth 64 := by
  unfold State.spRead
  repeat refine (if_neg (by omega)).trans ?_
  refine (if_pos (by omega)).trans ?_
  rw [Nat.add_sub_cancel_left]

theorem spSet_ls (s : State) (g : Nat) {i : Nat} (hi : i < 4) (v : DWord) :
    s.spSet g (0x20 + i) v = s.setThr g ((s.thr g).setLoop i { (s.thr g).loop i with ls := lo32 v }) := by
  unfold State.spSet
  repeat refine (if_neg (by omega)).trans ?_
  refine (if_pos (by omega)).trans ?_
  rw [Nat.add_sub_cancel_left]

theorem spRead_le (s : State) (g : Nat) {i : Nat} (hi : i < 4) : s.spRead g (0x24 + i) = ((s.thr g).loop i).le.setWidth 64 := by
  unfold State.spRead
  repeat refine (if_neg (by omega)).trans ?_
  refine (if_pos (by omega)).trans ?_
  rw [Nat.add_sub_cancel_left]

theorem spSet_le (s : State) (g : Nat) {i : Nat} (hi : i < 4) (v : DWord) :
    s.spSet g (0x24 + i) v = s.setThr g ((s.thr g).setLoop i { (s.thr g).loop i with le := lo32 v }) := by
  unfold State.spSet
  repeat refine (if_neg (by omega)).trans ?_
  refine (if_pos (by omega)).trans ?_
  rw [Nat.add_sub_cancel_left]

theorem spRead_lc (s : State) (g : Nat) {i : Nat} (hi : i < 4) : s.spRead g (0x28 + i) = ((s.thr g).loop i).lc.setWidth 64 := by
  unfold State.spRead
  repeat refine (if_neg (by omega)).trans ?_
  rw [Nat.add_sub_cancel_left]

theorem spSet_lc (s : State) (g : Nat) {i : Nat} (hi : i < 4) (v : DWord) :
    s.spSet g (0x28 + i) v = s.setThr g ((s.thr g).setLoop i { (s.thr g).loop i with lc := lo32 v }) := by
  unfold State.spSet
  repeat refine (if_neg (by omega)).trans ?_
  refine (if_pos (by omega)).trans ?_
  rw [Nat.add_sub_cancel_left]

section
variable (s : State) (g : Nat) {n : Nat} (v : DWord)

theorem spRead_of_thread {t : Thread} (f : Thread → DWord) (hr : ∀ u : State, u.spRead g n = f (u.thr g))
    (hs : s.spSet g n v = s.setThr g t) : (s.spSet g n v).spRead g n = f t := by
  rw [hr, hs, setThr_self]

theorem spRead_of_register {w : Word} (r : Reg) (hr : ∀ u : State, u.spRead g n = (u.reg r).setWidth 64)
    (hs : s.spSet g n v = s.setReg r w) : (s.spSet g n v).spRead g n = w.setWidth 64 := by
  rw [hr, hs, setReg_reg_self]

theorem spRead_loop {i : Nat} (hi : i < 4) (hn : n = 0x20 + i ∨ n = 0x24 + i ∨ n = 0x28 + i) :
    (s.spSet g n v).spRead g n = (lo32 v).setWidth 64 := by
  rcases hn with rfl | rfl | rfl
  · rw [spRead_ls _ g hi, spSet_ls s g hi, setThr_self, loop_setLoop]
  · rw [spRead_le _ g hi, spSet_le s g hi, setThr_self, loop_setLoop]
  · rw [spRead_lc _ g hi, spSet_lc s g hi, setThr_self, loop_setLoop]

end

/-- The special registers of Table 28 but PC. -/
theorem spWidth_numbers {n : Nat} (h0 : n ≠ 0) (h : spWidth n ≠ none) :
    (n = 0x01 ∨ n = 0x02 ∨ n = 0x03 ∨ n = 0x04 ∨ n = 0x05) ∨ (n = 0x08 ∨ n = 0x09 ∨ n = 0x0A ∨ n = 0x0C ∨ n = 0x0D) ∨
    (n = 0x0E ∨ n = 0x0F ∨ n = 0x10 ∨ n = 0x11) ∨ (0x20 ≤ n ∧ n ≤ 0x2B) := by
  unfold spWidth at h
  split at h
  · omega
  split at h
  · omega
  split at h
  · omega
  · exact absurd rfl h

theorem spMask_loop {n : Nat} (h : 0x20 ≤ n) : spMask n = 0xFFFFFFFF := by
  unfold spMask
  repeat refine (if_neg (by omega)).trans ?_
  rfl

theorem masked {n : Nat} {m : Word} (v : DWord) (h : spMask n = m.setWidth 64) : (lo32 v &&& m).setWidth 64 = v &&& spMask n := by
  rw [h, low_and]

theorem low_unmasked {n : Nat} (v : DWord) (h : spMask n = 0xFFFFFFFF) : (lo32 v).setWidth 64 = v &&& spMask n := by
  rw [h, low_word]

theorem unmasked {n : Nat} (v : DWord) (h : spMask n = BitVec.allOnes 64) : v = v &&& spMask n := by
  rw [h, BitVec.and_allOnes]

section
variable (s : State) (g : Nat) {n : Nat} (v : DWord)

/-- The registers of 32 bits that hold flags or bases. -/
theorem spRead_setting (h : n = 0x01 ∨ n = 0x02 ∨ n = 0x03 ∨ n = 0x04 ∨ n = 0x05) :
    (s.spSet g n v).spRead g n = v &&& spMask n := by
  rcases h with rfl | rfl | rfl | rfl | rfl
  · exact (spRead_of_thread s g v (fun t => t.flg.setWidth 64) (fun _ => rfl) rfl).trans (masked v (by decide))
  · exact (spRead_of_register s g v (thrReg .coreWin g) (fun _ => rfl) rfl).trans (masked v (by decide))
  · exact (spRead_of_register s g v (thrReg .coreEvv g) (fun _ => rfl) rfl).trans (low_unmasked v (by decide))
  · exact (spRead_of_register s g v (thrReg .coreTctl g) (fun _ => rfl) rfl).trans (masked v (by decide))
  · exact (spRead_of_thread s g v (fun t => t.plb.setWidth 64) (fun _ => rfl) rfl).trans (masked v (by decide))

/-- P, whole and by halves, and the accumulator. -/
theorem spRead_product (h : n = 0x08 ∨ n = 0x09 ∨ n = 0x0A ∨ n = 0x0C ∨ n = 0x0D) :
    (s.spSet g n v).spRead g n = v &&& spMask n := by
  rcases h with rfl | rfl | rfl | rfl | rfl
  · exact (spRead_of_thread s g v (fun t => t.p) (fun _ => rfl) rfl).trans (unmasked v (by decide))
  · refine (spRead_of_thread s g v (fun t => (hi32 t.p).setWidth 64) (fun _ => rfl) rfl).trans ?_
    dsimp only
    rw [hi32_mk64]
    exact low_unmasked v (by decide)
  · refine (spRead_of_thread s g v (fun t => (lo32 t.p).setWidth 64) (fun _ => rfl) rfl).trans ?_
    dsimp only
    rw [lo32_mk64]
    exact low_unmasked v (by decide)
  · refine (spRead_of_thread s g v (fun t => t.acc.setWidth 64) (fun _ => rfl) rfl).trans ?_
    exact (acc_low _ v).trans (unmasked v (by decide))
  · refine (spRead_of_thread s g v (fun t => (t.acc >>> 64).setWidth 64) (fun _ => rfl) rfl).trans ?_
    have mask : spMask 0x0D = 0xFFFF := by decide
    rw [mask]
    exact acc_high _ v

/-- Q, the remainder and the floating-point settings. -/
theorem spRead_quotient (h : n = 0x0E ∨ n = 0x0F ∨ n = 0x10 ∨ n = 0x11) : (s.spSet g n v).spRead g n = v &&& spMask n := by
  rcases h with rfl | rfl | rfl | rfl
  · exact (spRead_of_thread s g v (fun t => t.q) (fun _ => rfl) rfl).trans (unmasked v (by decide))
  · exact (spRead_of_thread s g v (fun t => t.rem) (fun _ => rfl) rfl).trans (unmasked v (by decide))
  · exact (spRead_of_thread s g v (fun t => t.fpc.setWidth 64) (fun _ => rfl) rfl).trans (masked v (by decide))
  · exact (spRead_of_thread s g v (fun t => t.fps.setWidth 64) (fun _ => rfl) rfl).trans (masked v (by decide))

/-- A special register but PC reads as written, its reserved bits 0 (R108). -/
theorem spRead_spSet (h0 : n ≠ 0) (h : spWidth n ≠ none) : (s.spSet g n v).spRead g n = v &&& spMask n := by
  rcases spWidth_numbers h0 h with h | h | h | ⟨lo, hi⟩
  · exact spRead_setting s g v h
  · exact spRead_product s g v h
  · exact spRead_quotient s g v h
  · rw [spRead_loop s g v (i := (n - 0x20) % 4) (by omega) (by omega), low_unmasked v (spMask_loop lo)]

end

/-! ### A setting in force at once (R379) -/

theorem lagged_dropLag (s : State) (k : LagKey) (cur : Word) : (s.dropLag k).lagged k cur = cur := by
  have none_left : (s.dropLag k).lags.find? (fun l => l.key == k && decide ((s.dropLag k).cycle < l.til)) = none := by
    rw [List.find?_eq_none]
    intro l hl
    have hk := (List.mem_filter.mp hl).2
    simp only [bne_iff_ne] at hk
    simp [hk]
  unfold State.lagged
  rw [none_left]

/-- A debug commit sets the register; where an old value could lag behind, it is dropped. -/
theorem spCommit_eq (s : State) (g n : Nat) (v : DWord) :
    s.spCommit g n v = match spLag g n with
      | some k => (s.spSet g n v).dropLag k
      | none => s.spSet g n v := rfl

theorem spCommit_lags (s : State) (g n : Nat) (v : DWord) :
    ∃ l, s.spCommit g n v = { s.spSet g n v with lags := l } := by
  rw [spCommit_eq]
  cases spLag g n with
  | none => exact ⟨(s.spSet g n v).lags, rfl⟩
  | some k => exact ⟨_, rfl⟩

theorem spCommit_tcb (s : State) (g : Nat) (v : DWord) : (s.spCommit g 0x04 v).tcbNow g = (s.spCommit g 0x04 v).tcb g :=
  lagged_dropLag (s.spSet g 0x04 v) (.tcb g) _

theorem spCommit_win (s : State) (g : Nat) (v : DWord) : (s.spCommit g 0x02 v).winNow g = lo32 v &&& 0x00FFFF00 :=
  (lagged_dropLag (s.spSet g 0x02 v) (.win g) _).trans (setReg_reg_self s (thrReg .coreWin g) _)

end Sys2Proof.Proofs
end

section
/-! SUPPORT. The debug register write as two register writes and a commit (R13, R379), and the debug commands assembled. -/
namespace Sys2Proof.Proofs
open Sys2Proof.Machine Sys2Proof.Laws

/-! ### DEBUG_REGISTER_WRITE -/

theorem writeReg_coreDsrd_low {s : State} {acc : Acc} (hp : acc.path = .camin) (n : Nat) (v : Word) (da : Nat) :
    s.writeReg acc (.coreDsrd n 0) v da = (s.setCore n { s.core n with dsrd := v.setWidth 64 }, 0) := by
  have hs : s.secureBars acc (.coreDsrd n 0) v = false := Bool.and_false _
  unfold State.writeReg
  rw [if_neg (fun h => h.2 hp), hs, if_neg Bool.false_ne_true]
  rfl

theorem writeReg_coreDsrd_high {s : State} {acc : Acc} (hp : acc.path = .camin) (n : Nat) (v : Word) (da : Nat) :
    s.writeReg acc (.coreDsrd n 1) v da = s.commitDsrd acc n (mk64 v (lo32 (s.core n).dsrd)) da := by
  have hs : s.secureBars acc (.coreDsrd n 1) v = false := Bool.and_false _
  unfold State.writeReg
  rw [if_neg (fun h => h.2 hp), hs, if_neg Bool.false_ne_true]
  rfl

section
variable {s : State} {acc : Acc} (ho : Open s acc) (n : BitVec 5) (val : DWord)

theorem coreDsrd_inRange {h : Nat} (hh : h < 2) : (Reg.coreDsrd n.toNat h).inRange = true := by
  have := n.isLt
  simp only [Reg.inRange, Bool.and_eq_true, decide_eq_true_eq]
  exact ⟨this, hh⟩

theorem coreDsrd_off (h : Nat) : 0x100 ≤ (Reg.coreDsrd n.toNat h).off := by
  simp only [Reg.off, coreBase]
  omega

theorem coreDsrd_aligned : (Reg.coreDsrd n.toNat 0).off % 8 = 0 := by
  simp only [Reg.off, coreBase]
  omega

theorem coreDsrd_upper : (Reg.coreDsrd n.toNat 1).off = (Reg.coreDsrd n.toNat 0).off + 4 := by
  simp only [Reg.off]

theorem wideDa_coreDsrd : wideDa (Reg.coreDsrd n.toNat 0).off = (Reg.coreDsrd n.toNat 1).off := by
  have upper := regAt_off (coreDsrd_inRange n (by omega : 1 < 2)) (coreDsrd_off n 1)
  rw [coreDsrd_upper] at upper ⊢
  exact wideDa_of_noAction fun q => by rw [upper]; exact fun h => by cases h

include ho

/-- The 64-bit write of CORE_DSRD as the writes of its two registers. -/
theorem debugRegisterWrite_halves {u : State} {c : Nat} (hu : Open u acc)
    (h : s.writeReg acc (.coreDsrd n.toNat 0) (lo32 val) (Reg.coreDsrd n.toNat 0).off = (u, c)) :
    exec (.debugRegisterWrite acc n val) s =
      .next (u.writeReg acc (.coreDsrd n.toNat 1) (hi32 val) (Reg.coreDsrd n.toNat 1).off).1 := by
  have done := busWrite_b64 ho.2.1 (reaches_open ho _) (coreDsrd_aligned n) val
  rw [write32_open ho (coreDsrd_inRange n (by omega)) (coreDsrd_off n 0), h, wideDa_coreDsrd, ← coreDsrd_upper,
    write32_open hu (coreDsrd_inRange n (by omega)) (coreDsrd_off n 1)] at done
  exact congrArg Host.Outcome.next done

theorem refusal_open (code off : Nat) : Open (refusal s acc code off) acc := ho

/-- Another path than the Camin port is refused twice and changes nothing else (R372). -/
theorem debugRegisterWrite_denied (hp : acc.path ≠ .camin) :
    Leads (.debugRegisterWrite acc n val) s fun t => t = { s with reports := t.reports } := by
  have first := writeReg_caminOnly ho (r := .coreDsrd n.toNat 0) (v := lo32 val) (.inl rfl) hp (Reg.coreDsrd n.toNat 0).off
  have hu := refusal_open ho 0x05 (Reg.coreDsrd n.toNat 0).off
  have done := debugRegisterWrite_halves ho n val hu first
  rw [writeReg_caminOnly hu (.inl rfl) hp] at done
  exact ⟨_, done, rfl⟩

/-- From the Camin port the write ends with a commit of the whole value. -/
theorem debugRegisterWrite_commit (hp : acc.path = .camin) :
    exec (.debugRegisterWrite acc n val) s =
      .next ((s.setCore n.toNat { s.core n.toNat with dsrd := (lo32 val).setWidth 64 }).commitDsrd acc n.toNat val
        (Reg.coreDsrd n.toNat 1).off).1 := by
  have done := debugRegisterWrite_halves ho n val (u := s.setCore n.toNat { s.core n.toNat with dsrd := (lo32 val).setWidth 64 })
    ho (writeReg_coreDsrd_low hp n.toNat (lo32 val) _)
  have staged : (s.setCore n.toNat { s.core n.toNat with dsrd := (lo32 val).setWidth 64 }).core n.toNat =
      { s.core n.toNat with dsrd := (lo32 val).setWidth 64 } := (setCore_core s n.toNat n.toNat _).trans (if_pos rfl)
  have whole : lo32 ((lo32 val).setWidth 64) = lo32 val := lo32_extended val
  rw [writeReg_coreDsrd_high hp n.toNat (hi32 val), staged, whole, mk64_halves] at done
  exact done

end

theorem commitDsrd_refused {s : State} {acc : Acc} (ho : Open s acc) {n i g : Nat} {v : DWord} (hi : i = s.rf (.coreDsr n) 7 0)
    (hg : g = 16 * n + s.rf (.coreDsr n) 11 8) (h : i = 0 ∨ spBad i v = true ∨ ((s.thr g).st ≠ .idle ∧ (s.thr g).st ≠ .halted))
    (da : Nat) : (s.commitDsrd acc n v da).1 = refusal s acc 0x60 da := by
  subst hi hg
  unfold State.commitDsrd
  rw [refuse_open ho]
  refine congrArg Prod.fst (if_pos ?_)
  rcases h with h | h | ⟨h1, h2⟩
  · exact .inl h
  · exact .inr (.inl h)
  · exact .inr (.inr (not_or.mpr ⟨h1, h2⟩))

theorem commitDsrd_accepted {s : State} {n i g : Nat} {v : DWord} (acc : Acc) (hi : i = s.rf (.coreDsr n) 7 0)
    (hg : g = 16 * n + s.rf (.coreDsr n) 11 8) (h0 : i ≠ 0) (hb : spBad i v = false)
    (hst : (s.thr g).st = .idle ∨ (s.thr g).st = .halted) (da : Nat) : (s.commitDsrd acc n v da).1 = s.spCommit g i v := by
  subst hi hg
  unfold State.commitDsrd
  refine congrArg Prod.fst (if_neg ?_)
  rintro (h | h | h)
  · exact h0 h
  · rw [hb] at h
    cases h
  · exact h hst

/-- What a debug commit leaves: the thread's registers, and nothing of another thread. -/
theorem spCommit_spec (s : State) (g : Nat) {i : Nat} (v : DWord) (h0 : i ≠ 0) (hw : spWidth i ≠ none) :
    (∃ a b c d, s.spCommit g i v = { s with threads := a, cores := b, regs := c, lags := d }) ∧
    (s.spCommit g i v).spRead g i = v &&& spMask i ∧
    RegsBut [thrReg .coreWin g, thrReg .coreEvv g, thrReg .coreTctl g] s (s.spCommit g i v) ∧
    OnlyAt g s.thr (s.spCommit g i v).thr ∧ ((s.spCommit g i v).thr g).pc = (s.thr g).pc ∧
    ((s.spCommit g i v).thr g).st = (s.thr g).st := by
  have sets := spSet_sets s g i v
  obtain ⟨a, b, c, e⟩ := sets.frame
  obtain ⟨others, pc, st⟩ := sets.thr
  have reads := spRead_spSet s g v h0 hw
  have regs := sets.regs
  obtain ⟨l, hl⟩ := spCommit_lags s g i v
  rw [hl]
  exact ⟨⟨a, b, c, l, by rw [e]⟩, reads, regs, others, pc, st⟩

theorem coreOf_local {n x g : Nat} (hg : g = 16 * n + x) (hx : x < 16) : coreOf g = n := by
  unfold coreOf
  omega

theorem debugRegisterWrite_set {acc : Acc} {n : BitVec 5} {val : DWord} {i g : Nat} {s : State} (ho : Open s acc)
    (hp : acc.path = .camin) (hi : i = s.rf (.coreDsr n.toNat) 7 0) (hg : g = 16 * n.toNat + s.rf (.coreDsr n.toNat) 11 8)
    (h0 : i ≠ 0) (hw : spWidth i ≠ none) (hb : spBad i val = false) (hst : (s.thr g).st = .idle ∨ (s.thr g).st = .halted) :
    Leads (.debugRegisterWrite acc n val) s fun t =>
      t = { s with threads := t.threads, cores := t.cores, regs := t.regs, lags := t.lags } ∧ t.spRead g i = val &&& spMask i ∧
      RegsBut [.coreWin n.toNat (g % 16), .coreEvv n.toNat (g % 16), .coreTctl n.toNat (g % 16)] s t ∧ OnlyAt g s.thr t.thr ∧
      (t.thr g).pc = (s.thr g).pc ∧ (t.thr g).st = (s.thr g).st ∧ (i = 0x04 → t.tcbNow g = t.tcb g) ∧
      (i = 0x02 → t.winNow g = lo32 val &&& 0x00FFFF00) := by
  have done := debugRegisterWrite_commit ho n val hp
  have commit := commitDsrd_accepted (s := s.setCore n.toNat { s.core n.toNat with dsrd := (lo32 val).setWidth 64 })
    acc hi hg h0 hb hst (Reg.coreDsrd n.toNat 1).off
  rw [commit] at done
  obtain ⟨⟨a, b, c, d, e⟩, reads, regs, others, pc, st⟩ :=
    spCommit_spec (s.setCore n.toNat { s.core n.toNat with dsrd := (lo32 val).setWidth 64 }) g val h0 hw
  have core : coreOf g = n.toNat := coreOf_local hg (Nat.mod_lt _ (by omega))
  unfold thrReg at regs
  rw [core] at regs
  refine ⟨_, done, ?_, reads, regs, others, pc, st, ?_, ?_⟩
  · rw [e]
    rfl
  · rintro rfl
    exact spCommit_tcb _ g val
  · rintro rfl
    exact spCommit_win _ g val

theorem debugRegisterWrite_refused {acc : Acc} {n : BitVec 5} {val : DWord} {i g : Nat} {s : State} (ho : Open s acc)
    (hp : acc.path = .camin) (hi : i = s.rf (.coreDsr n.toNat) 7 0) (hg : g = 16 * n.toNat + s.rf (.coreDsr n.toNat) 11 8)
    (h : i = 0 ∨ spBad i val = true ∨ ((s.thr g).st ≠ .idle ∧ (s.thr g).st ≠ .halted)) :
    Leads (.debugRegisterWrite acc n val) s fun t =>
      t = { s with cores := t.cores, reports := t.reports } ∧ (t.core n.toNat).dsrd = (val.setWidth 32).setWidth 64 ∧
      t.reports = s.reports ++ [⟨s.cycle + 1, 0x60, pathSkind acc.path, 0, BitVec.ofNat 32 (Reg.coreDsrd n.toNat 1).off, 0,
        false⟩] := by
  have done := debugRegisterWrite_commit ho n val hp
  have commit := commitDsrd_refused (s := s.setCore n.toNat { s.core n.toNat with dsrd := (lo32 val).setWidth 64 })
    (acc := acc) ho hi hg h (Reg.coreDsrd n.toNat 1).off
  rw [commit] at done
  have staged := (setCore_core s n.toNat n.toNat { s.core n.toNat with dsrd := (lo32 val).setWidth 64 }).trans (if_pos rfl)
  exact ⟨_, done, rfl, congrArg Core.dsrd staged, rfl⟩

/-- Settles O41: each command is one row of Table 118, and a debug commit goes through the special register's own write. -/
theorem debugCommandsFollowTable118 : Obligations.DebugCommandsFollowTable118 := by
  refine ⟨?_, ?_, ?_, ?_, ?_, ?_, ?_, ?_, ?_, ?_, ?_, fun _ _ hd h => breakpointHit_none hd h,
    fun _ n val _ ho hp => debugRegisterWrite_denied ho n val hp,
    fun _ _ _ _ _ _ ho hp hi hg h0 hw hb hst => debugRegisterWrite_set ho hp hi hg h0 hw hb hst,
    fun _ _ _ _ _ _ ho hp hi hg h => debugRegisterWrite_refused ho hp hi hg h⟩
  case refine_1 =>
    exact fun _ g _ ho hp => congrArg Host.Outcome.next (put_coreDbgcmd_denied ho g hp _)
  case refine_2 =>
    exact fun _ g _ ho hp h => congrArg Host.Outcome.next (put_coreDbgcmd_refused ho g hp (by omega) (haltCmd_refused h))
  case refine_3 =>
    intro acc g s ho hp ha h
    obtain ⟨frame, others, st, prior, cause, -, -, pc, doze⟩ := toHalted_spec s g.toNat 1 0
    exact ⟨_, congrArg Host.Outcome.next (put_coreDbgcmd_accepted ho g hp (by omega) (haltCmd_stopped ha h)), frame, others, st, cause,
      prior, pc, doze⟩
  case refine_4 =>
    intro acc g s ho hp ha h hn
    exact ⟨_, congrArg Host.Outcome.next (put_coreDbgcmd_accepted ho g hp (by omega) (haltCmd_ready ha h hn)), rfl,
      setThr_onlyAt s _ _, setThr_self s _ _⟩
  case refine_5 =>
    exact fun _ g _ ho hp => congrArg Host.Outcome.next (put_coreDbgcmd_denied ho g hp _)
  case refine_6 =>
    exact fun _ g _ ho hp h => congrArg Host.Outcome.next (put_coreDbgcmd_refused ho g hp (by omega) (resumeCmd_refused h))
  case refine_7 =>
    intro acc g s ho hp ha h hd
    have accepted := resumeCmd_accepted ha h
    rw [resume_awake _ hd] at accepted
    refine ⟨_, congrArg Host.Outcome.next (put_coreDbgcmd_accepted ho g hp (by omega) accepted), rfl, setThr_onlyAt s _ _, ?_⟩
    rw [setThr_self]
    exact ⟨rfl, rfl, le_max_right _ _, rfl, fun hc => by simp [hc]⟩
  case refine_8 =>
    exact fun _ g _ ho hp => congrArg Host.Outcome.next (put_coreDbgcmd_denied ho g hp _)
  case refine_9 =>
    exact fun _ g _ ho hp h => congrArg Host.Outcome.next (put_coreDbgcmd_refused ho g hp (by omega) (stepCmd_refused h))
  case refine_10 =>
    intro acc g s ho hp ha h hr
    have accepted := stepCmd_accepted ha h hr
    have st := debugHalted_st h
    refine ⟨_, congrArg Host.Outcome.next (put_coreDbgcmd_accepted ho g hp (by omega) accepted), rfl, setThr_onlyAt s _ _, ?_⟩
    rw [setThr_self]
    exact ⟨st, rfl, rfl, le_max_right _ _⟩
  case refine_11 =>
    intro g b sp s hd hi hb
    obtain ⟨frame, thr, regs, req⟩ := bpActs_spec (s := s) (g := g.toNat) (bpHit_lt hb)
    obtain ⟨others, st, cause, bp, prior, pc, halt⟩ := bpHalted_thread s g.toNat b
    refine ⟨_, breakpointHit_hit hd hi hb, frame, ?_⟩
    rw [thr]
    exact ⟨others, st, cause, bp, prior, pc, halt, regs, req⟩

end Sys2Proof.Proofs
end

section
/-! SUPPORT. The register map read the other way: whatever a page of the window answers at an offset stands at that offset,
at an index that the block has. -/
namespace Sys2Proof.Proofs
open Sys2Proof.Machine Sys2Proof.Laws

/-- Only a register that stands at `o`, at an index that the block has, is answered. -/
def StandsAt (o : Nat) (found : Option Reg) : Prop := ∀ r, found = some r → r.off = o ∧ r.inRange = true

theorem standsAt_none {o : Nat} : StandsAt o none := fun _ h => nomatch h

/-- One row of a page: its register stands at the offset where its condition holds; elsewhere the rest of the page answers. -/
theorem standsAt_row {o : Nat} {c : Prop} [Decidable c] {r : Reg} {rest : Option Reg}
    (others : StandsAt o rest) (here : c → r.off = o ∧ r.inRange = true) : StandsAt o (if c then some r else rest) := by
  split
  · rename_i hc
    rintro r' ⟨rfl⟩
    exact here hc
  · exact others

theorem standsAt_ite {o : Nat} {c : Prop} [Decidable c] {a b : Option Reg}
    (pos : c → StandsAt o a) (neg : ¬ c → StandsAt o b) : StandsAt o (if c then a else b) := by
  split
  · exact pos ‹_›
  · exact neg ‹_›

theorem cpxReg_standsAt (o : Nat) : StandsAt o (cpxReg o) := by
  unfold cpxReg
  repeat refine standsAt_row ?_ (fun h => ?_)
  · exact standsAt_none
  all_goals simp only [Reg.off, Reg.inRange, decide_eq_true_eq, and_true]
  all_goals omega

theorem swdReg_standsAt (o : Nat) : StandsAt o (swdReg o) := by
  unfold swdReg
  repeat refine standsAt_row ?_ (fun h => ?_)
  · exact standsAt_none
  all_goals simp only [Reg.off, Reg.inRange, Bool.and_eq_true, decide_eq_true_eq]
  all_goals omega

theorem cmnReg_standsAt (o : Nat) : StandsAt o (cmnReg o) := by
  unfold cmnReg
  repeat refine standsAt_row ?_ (fun h => ?_)
  · exact standsAt_none
  all_goals simp only [Reg.off, Reg.inRange, Bool.and_eq_true, decide_eq_true_eq, and_true]
  all_goals omega

theorem fltReg_standsAt (o : Nat) : StandsAt o (fltReg o) := by
  unfold fltReg
  repeat refine standsAt_row ?_ (fun h => ?_)
  · exact standsAt_none
  on_goal 9 =>
    obtain ⟨lo, hi, step, counted⟩ := h
    exact ⟨by simp only [Reg.off]; omega, counted⟩
  all_goals simp only [Reg.off, Reg.inRange, Bool.and_eq_true, decide_eq_true_eq, and_true]
  all_goals omega

theorem pwrReg_standsAt (o : Nat) : StandsAt o (pwrReg o) := by
  unfold pwrReg
  repeat refine standsAt_row ?_ (fun h => ?_)
  · exact standsAt_none
  all_goals simp only [Reg.off, Reg.inRange, Bool.and_eq_true, decide_eq_true_eq]
  all_goals omega

theorem hdgReg_standsAt (o : Nat) : StandsAt o (hdgReg o) := by
  unfold hdgReg
  repeat refine standsAt_row ?_ (fun h => ?_)
  · exact standsAt_none
  all_goals simp only [Reg.off, Reg.inRange, Bool.and_eq_true, decide_eq_true_eq]
  all_goals omega

theorem shfReg_standsAt (o : Nat) : StandsAt o (shfReg o) := by
  unfold shfReg
  repeat refine standsAt_row ?_ (fun h => ?_)
  · exact standsAt_none
  all_goals simp only [Reg.off, Reg.inRange, decide_eq_true_eq, and_true]
  all_goals omega

theorem glkReg_standsAt (o : Nat) : StandsAt o (glkReg o) := by
  unfold glkReg
  repeat refine standsAt_row ?_ (fun h => ?_)
  · exact standsAt_none
  all_goals simp only [Reg.off, Reg.inRange, Bool.and_eq_true, decide_eq_true_eq, and_true]
  all_goals omega

theorem mbuReg_standsAt {m r o : Nat} (hn : m < 16) (ho : mbuBase m + r = o) : StandsAt o (mbuReg m r) := by
  unfold mbuReg
  repeat refine standsAt_row ?_ (fun h => ?_)
  · exact standsAt_none
  all_goals simp only [Reg.off, Reg.inRange, Bool.and_eq_true, decide_eq_true_eq]
  all_goals omega

theorem coreReg_standsAt {n r o : Nat} (hn : n < 32) (ho : coreBase n + r = o) : StandsAt o (coreReg n r) := by
  unfold coreReg
  repeat refine standsAt_row ?_ (fun h => ?_)
  · exact standsAt_none
  all_goals simp only [Reg.off, Reg.inRange, Bool.and_eq_true, decide_eq_true_eq]
  all_goals omega

theorem psqReg_standsAt {q r o : Nat} (hn : q < 64) (ho : psqBase q + r = o) : StandsAt o (psqReg q r) := by
  unfold psqReg
  repeat refine standsAt_row ?_ (fun h => ?_)
  · exact standsAt_none
  all_goals simp only [Reg.off, Reg.inRange, Bool.and_eq_true, decide_eq_true_eq]
  all_goals omega

theorem clkReg_standsAt {c r o : Nat} (hn : c < 8) (ho : clkBase c + r = o) : StandsAt o (clkReg c r) := by
  unfold clkReg
  repeat refine standsAt_row ?_ (fun h => ?_)
  · exact standsAt_none
  all_goals simp only [Reg.off, Reg.inRange, Bool.and_eq_true, decide_eq_true_eq]
  all_goals omega

/-- Whatever the map answers at an offset of a register stands there (R27). -/
theorem regAt_standsAt (o : Nat) : StandsAt o (regAt o) := by
  unfold regAt
  dsimp only
  refine standsAt_ite (fun _ => cpxReg_standsAt o) fun _ => ?_
  refine standsAt_ite (fun _ => swdReg_standsAt o) fun _ => ?_
  refine standsAt_ite (fun _ => cmnReg_standsAt o) fun _ => ?_
  refine standsAt_ite (fun _ => fltReg_standsAt o) fun _ => ?_
  refine standsAt_ite (fun _ => pwrReg_standsAt o) fun _ => ?_
  refine standsAt_ite (fun _ => hdgReg_standsAt o) fun _ => ?_
  refine standsAt_ite (fun _ => shfReg_standsAt o) fun _ => ?_
  refine standsAt_ite (fun _ => glkReg_standsAt o) fun _ => ?_
  refine standsAt_ite (fun _ => standsAt_none) fun _ => ?_
  refine standsAt_ite (fun _ => mbuReg_standsAt (by omega) (by unfold mbuBase; omega)) fun _ => ?_
  refine standsAt_ite (fun _ => ?_) (fun _ => standsAt_none)
  refine standsAt_ite (fun _ => coreReg_standsAt (by omega) (by unfold coreBase; omega)) fun _ => ?_
  refine standsAt_ite (fun _ => psqReg_standsAt (by omega) (by unfold psqBase; omega)) fun _ => ?_
  exact standsAt_ite (fun _ => clkReg_standsAt (by omega) (by unfold clkBase; omega)) (fun _ => standsAt_none)

/-- Settles O24: each register is found at its own offset (`regAt_off`), and each row of each page answers a register of that
offset (`regAt_standsAt`). -/
theorem registerMapRoundTrip : Obligations.RegisterMapRoundTrip :=
  ⟨fun _ inRange reg => regAt_off inRange reg, fun o r _ found => regAt_standsAt o r found⟩

end Sys2Proof.Proofs
end

section
/-! SUPPORT. Two claims about changes of mode that fail on one thread: HOLD ends a pending STEP of an IDLE thread, and entry
from CONFIGURE wakes a thread whose wake time has passed, which moves its PC. -/
namespace Sys2Proof.Proofs
open Sys2Proof.Machine Sys2Proof.Laws

/-- Thread `g` as a command leaves it. -/
def threadAfter (c : Instr) (s : State) (g : Nat) : Thread :=
  match exec c s with
  | .next t => t.thr g
  | _ => s.thr g

theorem threadAfter_of_next {c : Instr} {s t : State} (g : Nat) (h : exec c s = .next t) : threadAfter c s g = t.thr g := by
  unfold threadAfter
  rw [h]

/-- RUN, with thread 0 IDLE and marked to stop after one instruction (R388). -/
def idleStepping : State := { State.reset with mode := .run, threads := [(0, { Thread.reset with step := true })] }

/-- Refutes O19: HOLD clears the STEP mark of every thread, also of an IDLE one, though the claim says that an IDLE thread keeps
everything. -/
theorem not_holdFreezesThreadsAndSequencers : ¬ Obligations.HoldFreezesThreadsAndSequencers := by
  intro h
  obtain ⟨t, he, -, -, idle, -⟩ := h.1 ⟨.host, false⟩ 0 idleStepping ⟨by decide, by decide, by decide⟩ (by decide)
  have kept : (t.thr 0).step = true := by rw [idle (by decide)]; decide
  have cleared : (threadAfter (.modeReqHold ⟨.host, false⟩) idleStepping 0).step = false := by decide
  rw [threadAfter_of_next 0 he, kept] at cleared
  cases cleared

theorem exec_leaveConfigure_due {s : State} {m : Mode} (hc : s.mode = .configure) (hm : m = .rehearse ∨ m = .run)
    (due : DueAtD0 s m) : exec .leaveConfigure s = .next (s.leaveConfigure m) := by
  obtain ⟨hp, later, boundary⟩ := due
  simp only [exec, execLeaveConfigure, hp]
  exact if_pos ⟨hc, hm, by simp [State.atBoundary, later, boundary]⟩

/-- CONFIGURE at a D0 boundary with a request for RUN pending; thread 0 was halted by CONFIGURE (cause 6) while it dozed until a
time that has come, with the instruction at 8 to follow. -/
def dozerHalted : State :=
  { State.reset with
    cycle := 1, pend := some .run, regs := [((Reg.swdCtl 0).off, 1)],
    threads := [(0, { Thread.reset with st := .halted, prior := .dozing, cause := 6, doze := .til 0 8 })] }

/-- That state in RUN, before its threads are placed. -/
def dozerEntered : State := ({ dozerHalted.runPins with mode := .run, pend := none, sptr := 0 }).repost.flushCaches.runAll

theorem dozerEntered_reg {r : Reg} (hr : r.inRange = true) (h : 0x1000 < r.off) : dozerEntered.reg r = r.reset := by
  have listed : dozerEntered.regs = [(0x1000, 1)] := by decide
  unfold State.reg
  rw [listed, Tab.get, if_neg (by omega), Tab.get, regReset, regAt_off hr (by omega)]

/-- No thread is a member of a domain or starts by itself, so only the listed thread is placed. -/
theorem dozerEntered_entryThreads : dozerEntered.entryThreads = [0] := by
  have placed : ∀ g ∈ upto 512, (dozerEntered.threadList.contains g || (dozerEntered.memberDom g).isSome ||
      bit (dozerEntered.tcb g) 4) = (g == 0) := by
    intro g hg
    have hg : g < 512 := List.mem_range.mp hg
    have budget : dozerEntered.reg (.ldgTbud g) = (Reg.ldgTbud 0).reset :=
      dozerEntered_reg (by simp only [Reg.inRange, decide_eq_true_eq]; omega) (by simp only [Reg.off]; omega)
    have control : dozerEntered.tcb g = (Reg.coreTctl 0 0).reset :=
      dozerEntered_reg (by simp only [thrReg, Reg.inRange, coreOf, locOf, Bool.and_eq_true, decide_eq_true_eq]; omega)
        (by simp only [thrReg, Reg.off, coreBase]; omega)
    have alone : dozerEntered.threadList = [0] := by decide
    have member : bit (Reg.ldgTbud 0).reset 31 = false := by decide
    have auto : bit (Reg.coreTctl 0 0).reset 4 = false := by decide
    simp [State.memberDom, State.rb, budget, control, alone, member, auto, beq_eq_decide]
  unfold State.entryThreads
  rw [List.filter_congr placed, List.filter_beq, upto, List.count_eq_one_of_mem List.nodup_range (List.mem_range.mpr (by decide))]
  rfl

/-- The dozing thread is awake at the instruction that follows its DOZE. -/
theorem dozerHalted_enters_at_8 : ((dozerHalted.leaveConfigure .run).thr 0).pc = 8 := by
  have placed : dozerEntered.each dozerEntered.entryThreads State.placeThread = dozerEntered.placeThread 0 := by
    rw [dozerEntered_entryThreads]
    rfl
  have unstarted : (dozerEntered.placeThread 0).autoPsqs = [] := by decide
  have entered : dozerHalted.leaveConfigure .run = (dozerEntered.placeThread 0).mbusStart := by
    change (let s := dozerEntered.each dozerEntered.entryThreads State.placeThread
      (s.each s.autoPsqs fun s q => if (s.psq q).st = .stopped then s.psqStart q none else s).mbusStart) = _
    rw [placed]
    dsimp only
    rw [unstarted]
    rfl
  rw [entered]
  decide

/-- Refutes O21: a thread that is no member, halted with cause 6 while DOZING until a time, resumes on leaving CONFIGURE; where its
wake time has come it goes on after its DOZE, though the claim says that its PC stays. -/
theorem not_configureStopsEverything : ¬ Obligations.ConfigureStopsEverything := by
  intro h
  obtain ⟨-, -, leave, -⟩ := h
  obtain ⟨t, he, -, -, -, -, -, -, -, -, -, -, threads⟩ :=
    leave .run 0 0 0 dozerHalted (by decide) (.inr rfl) ⟨by decide, by decide, by decide⟩
  have entered := exec_leaveConfigure_due (s := dozerHalted) (by decide) (.inr rfl) ⟨by decide, by decide, by decide⟩
  obtain ⟨pc, -⟩ := threads (by decide) (by decide) (by decide)
  rw [entered, Host.Outcome.next.injEq] at he
  rw [← he, dozerHalted_enters_at_8] at pc
  exact absurd pc (by decide)

end Sys2Proof.Proofs
end

section
/-! SUPPORT. Resets: what a memory reads as once the Gleaner's window holds what its shadow held, and once secure RAM is cleared. -/
namespace Sys2Proof.Proofs
open Sys2Proof.Machine Sys2Proof.Laws

/-- A table without the keys of `p` answers the default there, and elsewhere as before. -/
theorem get_filter_not {α : Type} {d : Nat → α} (t : Tab α) (p : Nat → Bool) (k : Nat) :
    Tab.get d (t.filter fun e => !p e.1) k = if p k = true then d k else Tab.get d t k := by
  induction t with
  | nil => simp [Tab.get]
  | cons e r ih =>
    obtain ⟨j, v⟩ := e
    cases hj : p j
    · by_cases hk : k = j
      · subst hk
        simp [Tab.get, hj]
      · simp [Tab.get, hj, hk, ih]
    · by_cases hk : k = j
      · subst hk
        simp [ih, hj]
      · simp [Tab.get, hj, hk, ih]

/-- One byte of the Gleaner's window takes what its shadow holds. -/
def settleByte (s : State) (i : Nat) : State := s.setCell (s.gleanBase + i) (s.cell (gshadowKey i))

theorem settleBytes_ecc {s : State} (l : List Nat) : (s.each l settleByte).ecc = s.ecc := by
  induction l generalizing s with
  | nil => rfl
  | cons i l ih => exact ih (s := settleByte s i)

theorem settleByte_cell_shadow {s : State} (hw : WindowFits s) {i : Nat} (hi : i < 256) (j : Nat) :
    (settleByte s i).cell (gshadowKey j) = s.cell (gshadowKey j) := by
  unfold settleByte
  unfold WindowFits at hw
  rw [setCell_cell, if_neg (by unfold gshadowKey; omega)]

/-- The shadow lies above every window, so no byte written is read again. -/
theorem settleBytes_cell {s : State} {l : List Nat} (hw : WindowFits s) (hl : ∀ i ∈ l, i < 256) (k : Nat) :
    (s.each l settleByte).cell k =
      if s.gleanBase ≤ k ∧ k - s.gleanBase ∈ l then s.cell (gshadowKey (k - s.gleanBase)) else s.cell k := by
  induction l generalizing s with
  | nil => simp [State.each]
  | cons i l ih =>
    have hi : i < 256 := hl i List.mem_cons_self
    have rest := ih (s := settleByte s i) hw (fun j hj => hl j (List.mem_cons_of_mem i hj))
    rw [settleByte_cell_shadow hw hi] at rest
    change ((settleByte s i).each l settleByte).cell k = _
    rw [rest]
    change (if s.gleanBase ≤ k ∧ k - s.gleanBase ∈ l then _ else (s.setCell (s.gleanBase + i) _).cell k) = _
    rw [setCell_cell]
    by_cases later : s.gleanBase ≤ k ∧ k - s.gleanBase ∈ l
    · rw [if_pos later, if_pos ⟨later.1, List.mem_cons_of_mem i later.2⟩]
      rfl
    · rw [if_neg later]
      by_cases here : k = s.gleanBase + i
      · subst here
        simp
      · rw [if_neg here, if_neg]
        rintro ⟨lo, hk⟩
        rcases List.mem_cons.mp hk with same | hk
        · exact here (by omega)
        · exact later ⟨lo, hk⟩

theorem settleWindow_ecc (s : State) : s.settleWindow.ecc = s.ecc := by
  unfold State.settleWindow
  split
  · exact settleBytes_ecc _
  · rfl

/-- Memory holds what an access read while the Gleaner tested its window (R194). -/
theorem settleWindow_cell {s : State} (hw : WindowFits s) (k : Nat) : s.settleWindow.cell k = s.byteAt k := by
  unfold State.settleWindow State.byteAt State.phys State.inWindow
  unfold WindowFits at hw
  by_cases testing : s.gleaner.ph = .test ∨ s.gleaner.ph = .restore
  · rw [if_pos testing]
    refine (settleBytes_cell hw (fun i hi => List.mem_range.mp hi) k).trans ?_
    by_cases window : s.gleanBase ≤ k ∧ k < s.gleanBase + 256
    · rw [if_pos ⟨window.1, List.mem_range.mpr (by omega)⟩, if_pos ⟨testing, by simpa using window⟩]
    · rw [if_neg, if_neg]
      · simpa [testing] using window
      · rintro ⟨lo, hi⟩
        exact window ⟨lo, by have := List.mem_range.mp hi; omega⟩
  · rw [if_neg testing, if_neg (fun h => testing h.1)]

theorem exec_warmReset_powered {s : State} (h : s.off ≠ .unpowered) :
    exec .warmReset s = .next { inOff s (if s.off = .heldCold ∨ s.off = .initCold then .heldCold else .heldWarm) with
      ram := s.settleWindow.ram, ecc := s.ecc } := by
  simp only [exec, execWarmReset, if_neg h, settleWindow_ecc, Bool.or_eq_true, beq_iff_eq]
  rfl

theorem isSecureKey_iff {k : Nat} : isSecureKey k = true ↔ 0x580000 ≤ k ∧ k < 0x590000 := by
  simp [isSecureKey]

/-- Settles O22: each reset by its definition; a warm reset keeps what an access read (`settleWindow_cell`), and the end of a warm
initialisation drops the bytes and marks of secure RAM alone (`get_filter_not`). -/
theorem resetsLeaveTheirState : Obligations.ResetsLeaveTheirState := by
  refine ⟨fun _ => rfl, fun _ => rfl, fun _ h => if_pos h, fun s on hw => ?_, fun good s => ⟨fun h => if_pos h, fun h => ?_, fun hc hw => ?_⟩,
    fun s h => if_pos h, fun s h => ?_, fun s hc hw => ?_⟩
  · exact ⟨_, exec_warmReset_powered on, rfl, fun k _ => settleWindow_cell hw k⟩
  · have cold : s.off ≠ .heldCold := by simp [h]
    exact (if_neg cold).trans (if_pos h)
  · exact (if_neg hc).trans (if_neg hw)
  · have cold : s.off ≠ .initCold := by simp [h]
    refine ⟨_, (if_neg cold).trans (if_pos h), rfl, fun k => ⟨?_, ?_⟩⟩
    · exact (get_filter_not s.ram isSecureKey k).trans (if_congr isSecureKey_iff rfl rfl)
    · exact (get_filter_not s.ecc isSecureKey k).trans (if_congr isSecureKey_iff rfl rfl)
  · exact (if_neg hc).trans (if_neg hw)

end Sys2Proof.Proofs
end

section
/-! SUPPORT. Mode requests: what a write of CPX_CTL asks for (R17 to R19), as Table 11 lists the transitions. -/
namespace Sys2Proof.Proofs
open Sys2Proof.Machine Sys2Proof.Laws

/-- A step taken for every element keeps what each step keeps. -/
theorem each_keep {α β : Type} (π : State → β) {f : State → α → State} (h : ∀ s a, π (f s a) = π s) (s : State) (l : List α) :
    π (s.each l f) = π s := by
  induction l generalizing s with
  | nil => rfl
  | cons a l ih => exact (ih (f s a)).trans (h s a)

theorem fld_setFld {w : Word} {hi lo v : Nat} (h : hi < 32) (hv : v < 2 ^ (hi + 1 - lo)) : fld (setFld w hi lo v) hi lo = v := by
  refine Nat.eq_of_testBit_eq fun j => ?_
  rw [testBit_fld]
  by_cases hj : j < hi + 1 - lo
  · rw [bit_setFld (by omega), if_pos (by omega), decide_eq_true hj, Bool.true_and, Nat.add_sub_cancel_left]
  · rw [decide_eq_false hj, Bool.false_and, Nat.testBit_lt_two_pow (hv.trans_le (Nat.pow_le_pow_right (by decide) (by omega)))]

theorem setRf_rf_self {s : State} {r : Reg} {hi lo v : Nat} (h : hi < 32) (hv : v < 2 ^ (hi + 1 - lo)) :
    (s.setRf r hi lo v).rf r hi lo = v := by
  unfold State.rf State.setRf
  rw [setReg_reg_self]
  exact fld_setFld h hv

/-! ### The write of CPX_CTL -/

/-- The write reaches the mode request on every path but the mailbox, in every mode but OFF: RETAIN leaves CPX_CTL open (R25). -/
theorem put_cpxCtl {s : State} {acc : Acc} (hp : acc.path ≠ .mailbox) (ho : s.mode ≠ .off) {code : Nat}
    (hc : fld (lo32 (BitVec.ofNat 64 code)) 2 0 = code) :
    s.put acc .cpxCtl code = (s.command acc 0x100 (s.modeRequest acc.path code)).1 := by
  have reached : s.reaches acc.path (Reg.off .cpxCtl) = true := by rw [State.reaches, bne_iff_ne.mpr hp, Bool.true_or]
  have window : ¬ (s.mode = .retain ∧ retainOpen (Reg.off .cpxCtl) = false) := fun h => absurd h.2 (by decide)
  have word : s.write32 acc (Reg.off .cpxCtl) (lo32 (BitVec.ofNat 64 code)) 0x100 =
      s.command acc 0x100 (s.modeRequest acc.path code) := by
    unfold State.write32
    rw [if_neg window, if_neg (by decide), regAt_off rfl (by decide)]
    dsimp only
    unfold State.writeReg
    rw [if_neg (by simp [Reg.caminOnly, Reg.caminCmd]), if_neg (by simp [State.secureBars])]
    dsimp only
    rw [hc]
  unfold State.put State.busWrite
  rw [if_neg (by simp [reached, ho])]
  exact congrArg Prod.fst word

theorem put_cpxCtl_unanswered {s : State} {acc : Acc} (h : s.mode = .off ∨ acc.path = .mailbox) (code : Nat) :
    s.put acc .cpxCtl code = s := by
  refine busWrite_unanswered (h.imp_right fun hm => ?_) .b32 _
  rw [hm]
  rfl

/-- In RETAIN a refused command is not reported (R353). -/
theorem command_refused_retain {s : State} (h : s.mode = .retain) (acc : Acc) (da : Nat) (t : State) :
    (s.command acc da (t, false)).1 = s := by
  unfold State.command
  rw [if_neg Bool.false_ne_true]
  exact if_pos (.inr ⟨h, by decide, by decide⟩)

/-! ### Table 11 -/

theorem later_d0 {s : State} {m : Mode} : Mode.later s.mode m s.heldFrom = some true ↔ (s.mode, m) ∈ atD0 s := by
  unfold atD0
  generalize s.mode = frm
  generalize s.heldFrom = held
  cases frm <;> cases m <;> cases held <;> decide

theorem later_now {s : State} {m : Mode} : Mode.later s.mode m s.heldFrom = some false ↔ (s.mode, m) ∈ noBoundary := by
  generalize s.mode = frm
  generalize s.heldFrom = held
  cases frm <;> cases m <;> cases held <;> decide

/-! ### A request -/

variable {s : State} {p : Path} {code : Nat} {m : Mode}

theorem modeRequest_hold (h : s.active = true) : s.modeRequest p 5 = ((s.enterHold (holdSrcOf p)).setRf .cpxCtl 2 0 5, true) := by
  exact if_pos ⟨rfl, h⟩

theorem modeRequest_pending (hm : modeOf code = some m) (now : ¬ (m = .hold ∧ s.active = true)) (hp : s.pend ≠ none) :
    s.modeRequest p code = (s, false) := by
  unfold State.modeRequest
  rw [hm]
  exact (if_neg now).trans (if_pos (Option.isSome_iff_ne_none.mpr hp))

theorem modeRequest_free (hm : modeOf code = some m) (now : ¬ (m = .hold ∧ s.active = true)) (hp : s.pend = none) :
    s.modeRequest p code =
      if m = s.mode then (s.setRf .cpxCtl 2 0 code, true)
      else match Mode.later s.mode m s.heldFrom with
        | none => (s, false)
        | some d0 => if d0 ∧ ¬ s.domEn 0 then (s, false)
            else ({ s.setRf .cpxCtl 2 0 code with pend := some m, pendCyc := s.cycle }, true) := by
  unfold State.modeRequest
  rw [hm]
  refine (if_neg now).trans ((if_neg ?_).trans ?_)
  · simp [hp]
  · rfl

/-- A request of Table 11 pends, where it waits for a boundary only with D0 enabled. -/
theorem modeRequest_pends (hm : modeOf code = some m) (now : ¬ (m = .hold ∧ s.active = true)) (hp : s.pend = none)
    (h : (s.mode, m) ∈ noBoundary ∨ ((s.mode, m) ∈ atD0 s ∧ s.domEn 0 = true)) :
    s.modeRequest p code = ({ s.setRf .cpxCtl 2 0 code with pend := some m, pendCyc := s.cycle }, true) := by
  have other : m ≠ s.mode := by
    rintro rfl
    generalize hx : s.mode = x at h
    rcases h with h | ⟨h, -⟩
    · cases x <;> simp [noBoundary] at h
    · have := later_d0.mpr (hx ▸ h)
      rw [hx] at this
      cases x <;> simp [Mode.later] at this
  rw [modeRequest_free hm now hp, if_neg other]
  rcases h with h | ⟨h, d0⟩
  · rw [later_now.mpr h]
    rfl
  · rw [later_d0.mpr h]
    simp [d0]

/-- Any other request, and one that waits for a boundary of D0 with D0 disabled, is refused. -/
theorem modeRequest_unlisted (hm : modeOf code = some m) (now : ¬ (m = .hold ∧ s.active = true)) (hp : s.pend = none)
    (other : s.mode ≠ m) (h : (s.mode, m) ∉ noBoundary) (hd : (s.mode, m) ∈ atD0 s → s.domEn 0 = false) :
    s.modeRequest p code = (s, false) := by
  rw [modeRequest_free hm now hp, if_neg other.symm]
  cases hl : Mode.later s.mode m s.heldFrom with
  | none => rfl
  | some d0 =>
    cases d0 with
    | false => exact absurd (later_now.mp hl) h
    | true => simp [hd (later_d0.mp hl)]

/-! ### HOLD at once -/

theorem toHalted_pend (s : State) (g cause bp : Nat) : (s.toHalted g cause bp).pend = s.pend := rfl

theorem haltThread_pend (s : State) (g cause : Nat) : (s.haltThread g cause).pend = s.pend := by
  unfold State.haltThread
  dsimp only
  repeat' split
  all_goals rfl

theorem psqHold_pend (s : State) (q : Nat) : (s.psqHold q).pend = s.pend := by
  unfold State.psqHold
  dsimp only
  split <;> rfl

theorem gleanStop_pend (s : State) : s.gleanStop.pend = s.pend := by
  unfold State.gleanStop
  dsimp only
  split <;> rfl

theorem gateAll_pend (s : State) : s.gateAll.pend = s.pend := by
  unfold State.gateAll
  refine each_keep State.pend (fun s n => ?_) s (upto 32)
  rfl

theorem holdUnits_pend (s : State) : (holdUnits s).pend = s.pend := by
  unfold holdUnits
  extract_lets u v
  calc v.gleanStop.gateAll.pend = v.pend := (gateAll_pend _).trans (gleanStop_pend v)
    _ = u.pend := each_keep State.pend psqHold_pend u _
    _ = s.pend := each_keep State.pend (fun s g => haltThread_pend (s.setThr g { s.thr g with step := false }) g 4) s _

/-- Before the units stop, the mode is HOLD, entered from the present mode, with nothing pending (R22). -/
theorem enterHold_modes (s : State) (src : HoldSrc) :
    (s.enterHold src).mode = .hold ∧ (s.enterHold src).pend = none ∧ (s.enterHold src).heldFrom = s.mode ∧
      (s.enterHold src).holdSrc = src ∧ (s.enterHold src).settled = false := by
  unfold State.enterHold
  extract_lets u v w c x
  have still := holdUnits_still x
  have pins : Still s w := by
    have hv : Still s v := tdrAbandon_still (freezePins_still (Still.refl s))
    show Still s (if v.mode = .run then v.dropOrders else v)
    split
    · exact dropOrders_still hv
    · exact hv
  exact ⟨still.mode, holdUnits_pend x, still.heldFrom.trans pins.mode, still.holdSrc, still.settled⟩

/-- The request shown in CPX_CTL leaves what HOLD has set. -/
theorem setRf_modes (u : State) (r : Reg) (hi lo v : Nat) :
    (u.setRf r hi lo v).mode = u.mode ∧ (u.setRf r hi lo v).pend = u.pend ∧ (u.setRf r hi lo v).heldFrom = u.heldFrom ∧
      (u.setRf r hi lo v).holdSrc = u.holdSrc ∧ (u.setRf r hi lo v).settled = u.settled := ⟨rfl, rfl, rfl, rfl, rfl⟩

/-! ### The rows -/

theorem modeRequests_row {acc : Acc} {r : Instr × Mode × Nat} (h : r ∈ modeRequests acc) :
    (∀ s, exec r.1 s = .next (s.put acc .cpxCtl r.2.2)) ∧ modeOf r.2.2 = some r.2.1 ∧ r.2.1 ≠ .hold ∧
      fld (lo32 (BitVec.ofNat 64 r.2.2)) 2 0 = r.2.2 := by
  simp only [modeRequests, List.mem_cons, List.not_mem_nil, or_false] at h
  rcases h with rfl | rfl | rfl | rfl
  all_goals exact ⟨fun _ => rfl, rfl, by simp, rfl⟩

theorem exec_modeReqHold {acc : Acc} {s : State} (hp : acc.path ≠ .mailbox) (ho : s.mode ≠ .off) :
    exec (.modeReqHold acc) s = .next (s.command acc 0x100 (s.modeRequest acc.path 5)).1 :=
  congrArg Host.Outcome.next (put_cpxCtl hp ho (by decide))

/-- HOLD is no transition of Table 11 that takes effect later. -/
theorem hold_unlisted (s : State) : (s.mode, Mode.hold) ∉ noBoundary ∧ (s.mode, Mode.hold) ∉ atD0 s := by
  rw [← later_now, ← later_d0]
  generalize s.mode = frm
  cases frm <;> simp [Mode.later]

theorem modeReqHold_refused {acc : Acc} {s : State} (now : s.active = false) (h : s.mode ≠ .hold ∨ s.pend ≠ none) :
    s.modeRequest acc.path 5 = (s, false) := by
  have off : ¬ (Mode.hold = .hold ∧ s.active = true) := by simp [now]
  by_cases hp : s.pend = none
  · have other : s.mode ≠ .hold := h.resolve_right (not_not.mpr hp)
    exact modeRequest_unlisted rfl off hp other (hold_unlisted s).1 (fun hd => absurd hd (hold_unlisted s).2)
  · exact modeRequest_pending rfl off hp

/-- Settles O18: a request is a write of CPX_CTL (`put_cpxCtl`), and `modeRequest` answers it as Table 11 lists the transition. -/
theorem modeRequestsFollowTable11 : Obligations.ModeRequestsFollowTable11 := by
  refine ⟨fun acc s hp ho free r hr => ?_, fun acc s o r hr h => ?_, fun acc s o ha => ?_, fun acc s o hm hp => ?_,
    fun acc s o h => ?_, fun acc s h r hr => ?_, fun acc s h => ?_⟩
  · obtain ⟨row, code, hold, word⟩ := modeRequests_row hr
    have later : ¬ (r.2.1 = .hold ∧ s.active = true) := fun h => hold h.1
    rw [row, put_cpxCtl hp ho word]
    refine ⟨fun same => ?_, fun listed => ?_⟩
    · rw [modeRequest_free code later free, if_pos same.symm, command_accepted]
    · rw [modeRequest_pends code later free listed, command_accepted]
  · obtain ⟨row, code, hold, word⟩ := modeRequests_row hr
    have later : ¬ (r.2.1 = .hold ∧ s.active = true) := fun h => hold h.1
    have refused : s.modeRequest acc.path r.2.2 = (s, false) := by
      by_cases free : s.pend = none
      · obtain ⟨other, unlisted, d0⟩ := h.resolve_left (not_not.mpr free)
        exact modeRequest_unlisted code later free other unlisted d0
      · exact modeRequest_pending code later free
    rw [row, put_cpxCtl o.1 o.2.1 word, refused, command_refused o]
  · obtain ⟨mode, pend, from_, src, settled⟩ := enterHold_modes s (holdSrcOf acc.path)
    have entered := exec_modeReqHold o.1 o.2.1
    rw [modeRequest_hold ha, command_accepted] at entered
    obtain ⟨mode', pend', from', src', settled'⟩ := setRf_modes (s.enterHold (holdSrcOf acc.path)) .cpxCtl 2 0 5
    have shown : holdSrcOf acc.path = if acc.path = .camin then .camin else .cpxCtl := by cases acc.path <;> rfl
    exact ⟨_, entered, mode'.trans mode, pend'.trans pend, from'.trans from_, (src'.trans src).trans shown, settled'.trans settled,
      setRf_rf_self (by decide) (by decide)⟩
  · have now : ¬ (Mode.hold = .hold ∧ s.active = true) := by simp [State.active, hm]
    rw [exec_modeReqHold o.1 o.2.1, modeRequest_free rfl now hp, if_pos hm.symm, command_accepted]
  · have refused : s.modeRequest acc.path 5 = (s, false) := by
      rcases h with h | ⟨hm, hp⟩
      · exact modeReqHold_refused (by simp [State.active, h]) (.inl (by simp [h]))
      · exact modeReqHold_refused (by simp [State.active, hm]) (.inr hp)
    rw [exec_modeReqHold o.1 o.2.1, refused, command_refused o]
  · obtain ⟨row, -⟩ := modeRequests_row hr
    exact (row s).trans (congrArg Host.Outcome.next (put_cpxCtl_unanswered h _))
  · by_cases unanswered : s.mode = .off ∨ acc.path = .mailbox
    · exact congrArg Host.Outcome.next (put_cpxCtl_unanswered unanswered 5)
    · obtain ⟨ho, hp⟩ := not_or.mp unanswered
      have hm : s.mode = .retain := by tauto
      have refused := modeReqHold_refused (acc := acc) (s := s) (by simp [State.active, hm]) (.inl (by simp [hm]))
      rw [Idle, exec_modeReqHold hp ho, refused, command_refused_retain hm]

end Sys2Proof.Proofs
end

section
/-! SUPPORT. The aperture (R28, R29): Table 15 and the windows, a read by its granules, and what a write to memory leaves. -/
namespace Sys2Proof.Proofs
open Sys2Proof.Machine Sys2Proof.Laws

/-! ### What is open -/

theorem sizeLen_cases (size : Size) : sizeLen size = 1 ∨ sizeLen size = 2 ∨ sizeLen size = 4 ∨ sizeLen size = 8 := by
  cases size <;> simp [sizeLen]

theorem regionOpen_iff (s : State) (acc : Acc) (o : Nat) (w : Bool) :
    s.regionOpen acc o w = true ↔ ∃ r ∈ table15, r.1 ≤ o ∧ o ≤ r.2.1 ∧
      (if s.mode = .configure then (if w then r.2.2.2.1 else r.2.2.1) else (if w then r.2.2.2.2.2 else r.2.2.2.2.1)) = true ∧
      (r.1 = 0x580000 → acc.secure = true ∧ s.rb .cpxSwipe 30 = false) := by
  unfold State.regionOpen
  simp only [table15, List.mem_cons, List.not_mem_nil, or_false, exists_eq_or_imp, exists_eq_left, beq_eq_decide]
  generalize acc.secure = secure
  generalize s.rb .cpxSwipe 30 = wiping
  by_cases cfg : s.mode = .configure
  all_goals cases w
  all_goals cases secure
  all_goals cases wiping
  all_goals simp [cfg]
  all_goals omega

theorem inAwin_iff (s : State) (o n : Nat) (w : Bool) :
    s.inAwin o n w = true ↔ ∃ i, i < 4 ∧ s.rb (.cpxAwin i) 31 = true ∧ (w = true → s.rb (.cpxAwin i) 30 = true) ∧
      4096 * s.rf (.cpxAwin i) 11 0 ≤ o ∧ o + n ≤ 4096 * s.rf (.cpxAwin i) 11 0 + 4096 * 2 ^ s.rf (.cpxAwin i) 15 12 := by
  unfold State.inAwin State.rb State.rf upto
  cases w <;> simp [List.any_eq_true, and_assoc]

theorem apertureOk_iff (s : State) (acc : Acc) (o n : Nat) (w : Bool) :
    s.apertureOk acc o n w = true ↔ s.mode ≠ .retain ∧ o % n = 0 ∧ s.regionOpen acc o w = true ∧
      (s.mode = .configure ∨ acc.path = .camin ∨ s.inAwin o n w = true) := by
  simp [State.apertureOk, and_assoc, or_assoc]

theorem regionOpen_lt {s : State} {acc : Acc} {o : Nat} {w : Bool} (h : s.regionOpen acc o w = true) : o < 0xE00000 := by
  by_contra hge
  unfold State.regionOpen at h
  simp (disch := omega) only [if_neg] at h
  cases h

/-- An open access lies below the Gleaner's shadow, in whichever copy of the process image. -/
theorem apertureKey_fits {s : State} {acc : Acc} {size : Size} {o : Nat} {w : Bool}
    (h : s.apertureOk acc o (sizeLen size) w = true) : s.apertureKey o + sizeLen size ≤ 0x1010000 := by
  obtain ⟨-, -, region, -⟩ := (apertureOk_iff s acc o _ w).mp h
  have ho := regionOpen_lt region
  have hn := sizeLen_cases size
  unfold State.apertureKey State.liveKey piKey
  split_ifs <;> omega

/-! ### Reads -/

theorem yield_untested {s : State} (h : s.gleaner.ph ≠ .test) (k n : Nat) : s.yield k n = s := if_neg fun ht => h ht.1

/-- A read of granules that need no correction changes nothing (R190). -/
theorem passRead_unfixed {s : State} {k n : Nat} (h : s.gleaner.ph ≠ .test) (hm : ∀ g ∈ granules k n, s.mark g ≠ .fixable) :
    s.passRead k n = s := by
  unfold State.passRead
  rw [yield_untested h]
  generalize granules k n = l at hm
  induction l with
  | nil => rfl
  | cons g l ih =>
    rw [List.foldl_cons, if_neg (hm g List.mem_cons_self)]
    exact ih fun g hg => hm g (List.mem_cons_of_mem _ hg)

theorem touchRead_clean {s : State} {k n : Nat} (h : Clean s k n) (agent : Nat) : s.touchRead k n agent = (s, none) := by
  obtain ⟨test, clean⟩ := h
  have good : s.badGran k n = none := List.find?_eq_none.mpr fun g hg => by simp [clean g hg]
  unfold State.touchRead
  rw [passRead_unfixed test fun g hg => by simp [clean g hg]]
  dsimp only
  rw [good]

theorem touchRead_bad {s : State} {k n g : Nat} (test : s.gleaner.ph ≠ .test) (one : granules k n = [g]) (bad : s.mark g = .bad)
    (agent : Nat) : s.touchRead k n agent = (s.recordUe g agent, some g) := by
  have found : s.badGran k n = some g := by simp [State.badGran, one, bad]
  unfold State.touchRead
  rw [passRead_unfixed test fun g' hg => by simp_all]
  dsimp only
  rw [found]

/-- The record of an uncorrectable error is CPX_UEREC alone (R191). -/
theorem recordUe_frame (s : State) (g agent : Nat) :
    ∃ regs, s.recordUe g agent = { s with regs := regs } ∧ RegsBut [.cpxUerec] s { s with regs := regs } := by
  unfold State.recordUe
  split
  · exact ⟨s.regs, rfl, fun _ _ => rfl⟩
  · split
    · exact ⟨s.regs, rfl, fun _ _ => rfl⟩
    · exact ⟨_, rfl, setReg_regsBut s .cpxUerec _⟩

/-! ### Writes -/

/-- Only memory, its check bits and scrubs, the Gleaner and registers may differ. -/
def MemoryFrame (s t : State) : Prop :=
  ∃ ram ecc scrubs regs gleaner, t = { s with ram := ram, ecc := ecc, scrubs := scrubs, regs := regs, gleaner := gleaner }

theorem MemoryFrame.refl (s : State) : MemoryFrame s s := ⟨_, _, _, _, _, rfl⟩

theorem MemoryFrame.trans {s t u : State} (h : MemoryFrame s t) (k : MemoryFrame t u) : MemoryFrame s u := by
  obtain ⟨_, _, _, _, _, rfl⟩ := h
  obtain ⟨_, _, _, _, _, rfl⟩ := k
  exact ⟨_, _, _, _, _, rfl⟩

theorem memoryFrame_foldl {α : Type} {f : State → α → State} (h : ∀ s a, MemoryFrame s (f s a)) (l : List α) (s : State) :
    MemoryFrame s (l.foldl f s) := by
  induction l generalizing s with
  | nil => exact .refl s
  | cons a l ih => exact (h s a).trans (ih _)

theorem yield_memoryFrame (s : State) (k n : Nat) : MemoryFrame s (s.yield k n) := by
  unfold State.yield
  split
  · exact ⟨_, _, _, _, _, rfl⟩
  · exact .refl s

theorem writeMarks_memoryFrame (s : State) (k n : Nat) : MemoryFrame s (s.writeMarks k n) := by
  refine memoryFrame_foldl (fun s g => ?_) _ s
  have counted : MemoryFrame s (if s.mark g = .fixable ∧ partGran k n g then
      (s.bump (.cpxEccnt ((regionOf g).elim 7 Prod.fst)) 1).noteCe else s) := by
    split
    · exact ⟨_, _, _, _, _, rfl⟩
    · exact .refl s
  have marked (u : State) (m : EccMark) : MemoryFrame u { u.setMark g m with scrubs := u.scrubs.filter (· != g) } :=
    ⟨_, _, _, _, _, rfl⟩
  have injected (v : State) : MemoryFrame v (if v.rb .cpxEinj 31 ∧ granOf v.injectKey = g then
      (v.setMark g (if v.rf .cpxEinj 30 29 = 1 then .fixable else .bad)).setRb .cpxEinj 31 false else v) := by
    split
    · exact ⟨_, _, _, _, _, rfl⟩
    · exact .refl v
  exact (counted.trans (marked _ _)).trans (injected _)

theorem putBytes_memoryFrame (s : State) (k : Nat) (bs : List Byte) : MemoryFrame s (s.putBytes k bs) := by
  induction bs generalizing s k with
  | nil => exact .refl s
  | cons b r ih =>
    refine .trans ?_ (ih (s.putByte k b) (k + 1))
    unfold State.putByte
    dsimp only
    split <;> exact ⟨_, _, _, _, _, rfl⟩

theorem memWrite_memoryFrame (s : State) (k : Nat) (bs : List Byte) : MemoryFrame s (s.memWrite k bs) :=
  ((yield_memoryFrame s k bs.length).trans (writeMarks_memoryFrame _ k bs.length)).trans (putBytes_memoryFrame _ k bs)

theorem getD_toBytes {n v i : Nat} (h : i < n) : (toBytes n v).getD i 0 = BitVec.ofNat 8 (v >>> (8 * i)) := by
  induction n generalizing v i with
  | zero => omega
  | succ n ih =>
    cases i with
    | zero => simp [toBytes]
    | succ i =>
      rw [toBytes, List.getD_cons_succ, ih (by omega), ← Nat.shiftRight_add]
      congr 2
      omega

/-! ### The two commands -/

variable {s : State} {acc : Acc} {size : Size} {off : BitVec 24}

theorem apertureOpen_iff : s.apertureOpen acc = true ↔ s.mode ≠ .off ∧ acc.path ≠ .mailbox := by simp [State.apertureOpen]

theorem exec_apertureRead (hp : acc.path ≠ .mailbox) (ho : s.mode ≠ .off) :
    exec (.apertureRead acc size off) s = .next (s.apertureRead acc (sizeLen size) off.toNat) :=
  congrArg Host.Outcome.next (if_pos (apertureOpen_iff.mpr ⟨ho, hp⟩))

theorem exec_apertureWrite (hp : acc.path ≠ .mailbox) (ho : s.mode ≠ .off) (val : DWord) :
    exec (.apertureWrite acc size off val) s = .next (s.apertureWrite acc (sizeLen size) off.toNat val) :=
  congrArg Host.Outcome.next (if_pos (apertureOpen_iff.mpr ⟨ho, hp⟩))

theorem apertureRefuse_open (h : Open s acc) (o : Nat) :
    s.apertureRefuse acc o =
      { s with reports := s.reports ++ [⟨s.cycle + 1, 0x04, pathSkind acc.path, 0, BitVec.ofNat 32 o, 1, false⟩] } := by
  rw [State.apertureRefuse, pathSidx_open h, report_open h]

theorem apertureOpen_closed (h : s.mode = .off ∨ acc.path = .mailbox) : ¬ s.apertureOpen acc = true := by
  rw [apertureOpen_iff]
  tauto

theorem setRead_readData (s : State) (p : Path) (v : DWord) : (s.setRead p v).readData p = v := get_put_same _ _ _

/-- Settles O26: what is open by `regionOpen_iff` and `inAwin_iff`; a read by the errors of its granules (`touchRead_clean`,
`touchRead_bad`); a write by `memWrite_byteAt`. -/
theorem apertureFollowsTable15 : Obligations.ApertureFollowsTable15 := by
  refine ⟨regionOpen_iff, fun s acc o n w => ?_, fun acc size off s hp ho ok clean => ?_,
    fun acc size off g s hp ho ok test one bad => ?_, fun acc size off s o closed => ?_, fun acc size off val s o closed => ?_,
    fun acc size off val j s o hw ok => ?_, fun acc size off s h => ?_, fun acc size off val s h => ?_⟩
  · rw [apertureOk_iff, inAwin_iff]
  · rw [exec_apertureRead hp ho, State.apertureRead, if_pos ok]
    dsimp only
    rw [touchRead_clean clean]
  · have read : s.apertureRead acc (sizeLen size) off.toNat = ((s.recordUe g 3).apertureBad g).setRead acc.path 0 := by
      rw [State.apertureRead, if_pos ok]
      dsimp only
      rw [touchRead_bad test one bad]
    obtain ⟨regs, recorded, others⟩ := recordUe_frame s g 3
    have hr : s.mode ≠ .retain := ((apertureOk_iff ..).mp ok).1
    have reported : State.apertureBad { s with regs := regs } g = { s with
        regs := regs, reports := s.reports ++ [⟨s.cycle + 1, 0x41, 8, (regionOf g).elim 7 Prod.fst, ueWord g, 3, false⟩] } :=
      report_open (s := ({ s with regs := regs } : State)) (acc := acc) ⟨hp, ho, hr⟩ 0x41 8 _ _ _ _
    rw [recorded, reported] at read
    exact ⟨_, (exec_apertureRead hp ho).trans (congrArg Host.Outcome.next read), setRead_readData _ _ _, rfl, others, rfl⟩
  · rw [exec_apertureRead o.1 o.2.1, State.apertureRead, if_neg (by simp [closed]), apertureRefuse_open o]
  · rw [exec_apertureWrite o.1 o.2.1, State.apertureWrite, if_neg (by simp [closed]), apertureRefuse_open o]
  · have written : s.apertureWrite acc (sizeLen size) off.toNat val =
        s.memWrite (s.apertureKey off.toNat) (toBytes (sizeLen size) val.toNat) := if_pos ok
    refine ⟨_, (exec_apertureWrite o.1 o.2.1 val).trans (congrArg Host.Outcome.next written), fun hj => ?_, ?_⟩
    · rw [memWrite_byteAt hw hj (by rw [toBytes_length]; exact apertureKey_fits ok), toBytes_length]
      split
      · exact getD_toBytes (by omega)
      · rfl
    · obtain ⟨_, _, _, _, _, frame⟩ := memWrite_memoryFrame s (s.apertureKey off.toNat) (toBytes (sizeLen size) val.toNat)
      rw [frame]
  · exact congrArg Host.Outcome.next (if_neg (apertureOpen_closed h))
  · exact congrArg Host.Outcome.next (if_neg (apertureOpen_closed h))

end Sys2Proof.Proofs
end

section
/-! SUPPORT. A claim about the switch between REHEARSE and RUN that fails on a pin that no register of the Hedgerow lists. -/
namespace Sys2Proof.Proofs
open Sys2Proof.Machine Sys2Proof.Laws

/-- REHEARSE at a D0 boundary with a request for RUN pending; pin 0 keeps a value to present, but no register of pin 0 is listed. -/
def unlistedPin : State :=
  { State.reset with
    mode := .rehearse, cycle := 1, pend := some .run, regs := [((Reg.swdCtl 0).off, 1)],
    pins := [(0, { Pin.reset with reh := some (true, true) })] }

/-- The value that a pin keeps to present in REHEARSE, as a command leaves it. -/
def rehearsedAfter (c : Instr) (s : State) (p : Nat) : Option (Bool × Bool) :=
  match exec c s with
  | .next t => (t.pin p).reh
  | _ => (s.pin p).reh

theorem rehearsedAfter_of_next {c : Instr} {s t : State} (p : Nat) (h : exec c s = .next t) :
    rehearsedAfter c s p = (t.pin p).reh := by
  unfold rehearsedAfter
  rw [h]

/-- Refutes O20: the switch to RUN clears the kept value of the pins that the register store lists; a pin that has no register there
keeps its value, though the claim says that every pin loses it: it lacks the hypothesis that only listed pins keep one. -/
theorem not_modeChangesTakeEffectAtTheirPoint : ¬ Obligations.ModeChangesTakeEffectAtTheirPoint := by
  intro h
  obtain ⟨-, -, switch, -⟩ := h
  obtain ⟨t, he, -, -, cleared, -⟩ := switch 0 unlistedPin (by decide) ⟨by decide, by decide, by decide⟩
  have kept : rehearsedAfter .rehearseRunSwitch unlistedPin 0 = some (true, true) := by decide
  rw [rehearsedAfter_of_next 0 he, cleared] at kept
  cases kept

end Sys2Proof.Proofs
end

section
/-! SUPPORT. What a command outside the changes of mode leaves as it is: of each group of commands, the modes and their records,
the clock's counts and the queue stay, and the memories keep their canonical form (`Still`). -/
namespace Sys2Proof.Proofs
open Sys2Proof.Machine Sys2Proof.Laws

/-- If the outcome is a next state, it is still against `s0`. -/
def Stays (s0 : State) : Host.Outcome State Fault Refusal → Prop
  | .next t => Still s0 t
  | _ => True

variable {s0 s : State}

theorem stays_ite {p : Prop} [Decidable p] {a b : Host.Outcome State Fault Refusal} (ha : Stays s0 a) (hb : Stays s0 b) :
    Stays s0 (if p then a else b) := by
  split
  · exact ha
  · exact hb

/-! ### Thread instructions: the shapes of their bodies -/

theorem bitOp_still (g op : Nat) (idx : In → Nat) (f : Bool → Bool) (hk : Still s0 s) : Still s0 (s.bitOp g op idx f) :=
  instr_still _ _ _ hk fun _ _ h => h

theorem bit1_still (g op : Nat) (f : In → Bool) (hk : Still s0 s) : Still s0 (s.bit1 g op f) :=
  instr_still _ _ _ hk fun _ _ h => h

theorem fieldOp_still (g op : Nat) (v : In → Nat) (hk : Still s0 s) : Still s0 (s.fieldOp g op v) :=
  instr_still _ _ _ hk fun _ _ h => h

theorem mulOp_still (g op : Nat) (f : In → Nat) (v : In → Flags → Bool) (hk : Still s0 s) : Still s0 (s.mulOp g op f v) :=
  instr_still _ _ _ hk fun _ _ h => setThr_still _ _ h

theorem macOp_still (g op : Nat) (k : In → Int) (hk : Still s0 s) : Still s0 (s.macOp g op k) :=
  instr_still _ _ _ hk fun _ _ h => setThr_still _ _ h

theorem divOp_still (g op : Nat) (sgn : Bool) (hk : Still s0 s) : Still s0 (s.divOp g op sgn) :=
  instr_still _ _ _ hk fun _ _ h => setThr_still _ _ h

theorem fpOp_still (g op : Nat) (f : In → Nat → FpRes) (hk : Still s0 s) : Still s0 (s.fpOp g op f) :=
  instr_still _ _ _ hk fun _ _ h => h

theorem fpCmpOp_still (g op : Nat) (sig : Bool) (hk : Still s0 s) : Still s0 (s.fpCmpOp g op sig) :=
  instr_still _ _ _ hk fun _ _ h => h

theorem asking_still (g op : Nat) (f : In → State → State × Bool) (hk : Still s0 s)
    (hf : ∀ c t, Still s0 t → Still s0 (f c t).1) : Still s0 (s.asking g op f) := instr_still _ _ _ hk hf

theorem pinOp_still (g op : Nat) (f : Bool → Bool) (hk : Still s0 s) : Still s0 (s.pinOp g op f) := by
  refine instr_still _ _ _ hk fun c t h => ?_
  dsimp only
  split
  · exact drivePort_still _ _ _ h
  · exact h

/-! ### Thread instructions with bodies of their own -/

theorem rete_stays (g : Tid) : Stays s (execRete g s) := by
  refine instr_still _ _ _ (.refl s) fun c t h => ?_
  dsimp only
  split
  · rename_i e
    exact ptrWord_still h e
  · split
    · rename_i e
      exact ptrWord_still h e
    · exact setThr_still _ _ (touchAll_still _ _ h)

theorem doze_stays (g : Tid) : Stays s (execDoze g s) := by
  refine instr_still _ _ _ (.refl s) fun c t h => ?_
  dsimp only
  split <;> exact setThr_still _ _ h

theorem swathWait_stays (g : Tid) : Stays s (execSwathWait g s) := by
  refine instr_still _ _ _ (.refl s) fun c t h => ?_
  split
  · exact swathWait_still _ h
  · exact h

theorem wait_stays (g : Tid) : Stays s (execWait g s) := by
  refine instr_still _ _ _ (.refl s) fun c t h => ?_
  dsimp only
  split
  · exact setThr_still _ _ (ite_still (lockTry_still _ _ h) h)
  · exact setThr_still _ _ h

theorem slotW_stays (g : Tid) : Stays s (execSlotW g s) := by
  refine instr_still _ _ _ (.refl s) fun c t h => ?_
  dsimp only
  split
  · exact h
  split
  · exact report_still _ _ _ _ _ _ h
  · exact setReg_still _ _ (lag_still _ _ h)

theorem psqAct_stays (g : Tid) : Stays s (execPsqAct g s) := by
  refine asking_still _ _ _ (.refl s) fun c t h => ?_
  have checked := actionCheck_still c.g (8 * clusterOf c.g + natFld c.h.xf 2 0) (BitVec.ofNat 64 (c.v 0)) false h
  dsimp only
  split
  · exact holdAction_still _ _ _ _ h
  split
  · exact queueAction_still _ _ checked
  · exact checked

/-! ### What else happens to threads -/

theorem threadStopAtBoundary_stays (g : Tid) : Stays s (execThreadStopAtBoundary g s) :=
  ite_still (stopNow_still _ (.refl s)) (.refl s)

theorem dozeWake_stays (g : Tid) : Stays s (execDozeWake g s) := by
  unfold execDozeWake
  dsimp only
  split
  · exact ite_still (wakeDoze_still _ (.refl s)) (.refl s)
  · exact .refl s

theorem eventEntry_stays (g : Tid) : Stays s (execEventEntry g s) := by
  have divided := finishDiv_still g.toNat (.refl s)
  unfold execEventEntry
  dsimp only
  split
  · exact .refl s
  split
  · exact noteIssue_still _ _ _ (threadFault_still _ _ _ (recordUe_still _ _ divided))
  · have saved := fun k b cells gen r => putMem_still g.toNat k (.near 4) cells gen (putMem_still g.toNat k (.near 0) b r divided)
    exact endStep_still _ _ (noteIssue_still _ _ _ (ite_still (clrFlag_still _ _ (setThr_still _ _ (saved _ _ _ _ _)))
      (setThr_still _ _ (saved _ _ _ _ _))))

theorem breakpointHit_stays (g : Tid) : Stays s (execBreakpointHit g s) := by
  unfold execBreakpointHit
  dsimp only
  split
  · exact .refl s
  · refine ite_still (upd_holdReq_still _ ?_) ?_
    all_goals exact bump_still _ _ (setCore_still _ _ (toHalted_still _ _ _ (setThr_still _ _ (finishDiv_still _ (.refl s)))))

theorem icacheFill_stays (g : Tid) : Stays s (execIcacheFill g s) := by
  unfold execIcacheFill
  dsimp only
  refine stays_ite (.refl s) ?_
  split
  · exact .refl s
  · exact stays_ite (fillCache_still _ _ (setThr_still _ _ (.refl s))) (setCore_still _ _ (setThr_still _ _ (.refl s)))

theorem postedWritePerform_stays (n : BitVec 5) : Stays s (execPostedWritePerform n s) :=
  each_still (upd_posted_still _ (.refl s)) fun _ w h => putRuns_still w.cells h

theorem storeBufferDrain_stays (g : Tid) : Stays s (execStoreBufferDrain g s) := by
  unfold execStoreBufferDrain
  dsimp only
  refine stays_ite (.refl s) ?_
  split
  · exact .refl s
  · have taken := fun r => setThr_still g.toNat { s.thr g.toNat with sb := r } (.refl s)
    exact stays_ite (putRuns_still _ (taken _)) (stays_ite (taken _)
      (foldl_still (taken _) fun _ _ h => post_still _ _ _ _ _ _ _ _ h))

/-! ### Sequencers -/

theorem shiftStallRelease_stays (q : BitVec 6) : Stays s (execShiftStallRelease q s) :=
  stays_ite (ite_still (outb_still _ _ (setPsq_still _ _ (.refl s))) (inb_still _ _ (setPsq_still _ _ (.refl s)))) (.refl s)

theorem psqDlyExpiry_stays (q : BitVec 6) : Stays s (execPsqDlyExpiry q s) := by
  unfold execPsqDlyExpiry
  dsimp only
  split
  · exact .refl s
  · exact stays_ite (setPsq_still _ _ (.refl s)) (.refl s)

theorem psqCntc_stays (q : BitVec 6) : Stays s (execPsqCntc q s) := by
  refine engine_still _ _ _ (.refl s) fun t w h => psqNext_still _ ?_
  exact ite_still (setRb_still _ _ _ h) (ite_still (setCnt_still _ _ _ (setRb_still _ _ _ h))
    (pwm_still _ _ (setCnt_still _ _ _ (setRb_still _ _ _ h))))

theorem reflexFire_stays (q : BitVec 6) (r : BitVec 2) : Stays s (execReflexFire q r s) := by
  unfold execReflexFire
  dsimp only
  split
  · exact .refl s
  · have fired := fun p r i b q l c => setRb_still (s0 := s) r i b (change_still q l c (setPsq_still q p (.refl s)))
    exact stays_ite (setPsq_still _ _ (.refl s)) (ite_still (setRb_still _ _ _ (fired _ _ _ _ _ _ _)) (fired _ _ _ _ _ _ _))

theorem counterTick_stays (q : BitVec 6) (k : BitVec 1) : Stays s (execCounterTick q k s) :=
  stays_ite (countUp_still _ _ (.refl s)) (.refl s)

theorem edgeRecognised_stays (q : BitVec 6) (l : BitVec 3) : Stays s (execEdgeRecognised q l s) := by
  unfold execEdgeRecognised
  dsimp only
  split
  · exact .refl s
  · exact stays_ite (.refl s) (stays_ite (setLane_still _ _ _ (.refl s)) (countEdge_still _ _ _
      (ite_still (setFlagAt_still _ _ _ (setLane_still _ _ _ (.refl s))) (setLane_still _ _ _ (.refl s)))))

theorem triggerBitsSet_thread_stays (g : Tid) (q : BitVec 6) (mask : Byte) : Stays s (execTriggerBitsSet (.thread g) q mask s) :=
  ite_still (portPut_still _ _ _ _ (.refl s)) (.refl s)

theorem captureFifoRead_stays (src : PortSrc) (q : BitVec 6) (l : BitVec 3) : Stays s (execCaptureFifoRead src q l s) := by
  cases src with
  | thread g => exact ite_still (popCap_still _ _ (.refl s)) (.refl s)
  | bus acc => exact busRead_still _ _ _ (.refl s)

/-! ### Pins -/

theorem parkEnd_stays (p : Byte) : Stays s (execParkEnd p s) := by
  unfold execParkEnd
  dsimp only
  split
  · exact .refl s
  · exact stays_ite (setPin_still _ _ (.refl s)) (.refl s)

theorem laneEdge_stays (p : Byte) (lvl : Bool) (ph : BitVec 3) : Stays s (execLaneEdge p lvl ph s) :=
  stays_ite (.refl s) (refreshLanes_still _ _ (setPin_still _ _ (.refl s)))

theorem loadSenseFinding_stays (p : Byte) (f : BitVec 2) : Stays s (execLoadSenseFinding p f s) :=
  stays_ite (.refl s) (ite_still (setRf_still _ _ _ _ (.refl s)) (report_still _ _ _ _ _ _ (setRf_still _ _ _ _ (.refl s))))

theorem tdrComplete_stays (fail pol : Bool) (rt : BitVec 11) : Stays s (execTdrComplete fail pol rt s) := by
  unfold execTdrComplete
  split
  · exact .refl s
  · exact upd_tdrPin_still _ (setReg_still _ _ (.refl s))

/-! ### Time, swaths and sheaves -/

theorem slewUnit_stays : Stays s (execSlewUnit s) := stays_ite (.refl s) (upd_commons_still _ (setReg_still _ _ (.refl s)))

theorem budgetExpiry_stays (who : Member) : Stays s (execBudgetExpiry who s) := by
  cases who with
  | thread g =>
    unfold execBudgetExpiry
    dsimp only
    split
    · exact checkThread_still _ _ _ (.refl s)
    · exact .refl s
  | mover m => exact stays_ite (checkMover_still _ _ _ _ (.refl s)) (.refl s)

theorem commitComplete_stays : Stays s (execCommitComplete s) := by
  unfold execCommitComplete
  split
  · exact .refl s
  · exact stays_ite (finishCommit_still _ (upd_commits_still _ (.refl s))) (.refl s)

/-! ### Movers, the Gleaner, wipes and supplies -/

theorem moverFlagStart_stays (m : BitVec 5) : Stays s (execMoverFlagStart m s) :=
  stays_ite (clrFlag_still _ _ (moverStart_still _ (.refl s))) (.refl s)

theorem moverChainComplete_stays (m : BitVec 5) : Stays s (execMoverChainComplete m s) := by
  refine stays_ite (ite_still (setFlag_still _ _ ?_) ?_) (.refl s)
  all_goals exact setMover_still _ _ (moverStat_still _ _ _ (setWord_still _ _ (.refl s)))

theorem scrubWrite_stays : Stays s (execScrubWrite s) := by
  unfold execScrubWrite
  split
  · exact .refl s
  · exact stays_ite (.refl s) (upd_scrubs_still _ (ite_still (setMark_still _ _ (.refl s)) (.refl s)))

theorem gleanerTest_stays (bad : Option BadBit) : Stays s (execGleanerTest bad s) := by
  have testing := fun x => upd_gleaner_still x (.refl s)
  refine stays_ite (stays_ite (gleanFail_still _ _ _ (setRb_still _ _ _ (testing _))) ?_) (.refl s)
  cases bad with
  | none => exact testing _
  | some x => exact gleanFail_still _ _ _ (testing _)

theorem gleanerRestore_stays : Stays s (execGleanerRestore s) := by
  have restored := fun x => upd_scrubs_still x (each_still (l := granules s.gleanBase 256) (f := fun s k => s.setMark k .clean)
    (each_still (l := upto 256) (f := fun t i => t.setCell (s.gleanBase + i) (t.cell (gshadowKey i))) (.refl s)
      fun _ _ h => setCell_still _ _ h) fun _ _ h => setMark_still _ _ h)
  exact stays_ite (stays_ite (upd_gleaner_still _ (restored _)) (gleanAdvance_still (restored _))) (.refl s)

theorem gleanerRetry_stays : Stays s (execGleanerRetry s) := stays_ite (gleanCopy_still (upd_gleaner_still _ (.refl s))) (.refl s)

theorem wipeComplete_stays : Stays s (execWipeComplete s) :=
  stays_ite (report_still _ _ _ _ _ _ (setRb_still _ _ _ (setRb_still _ _ _ (zeroSecure_still (.refl s))))) (.refl s)

theorem supplySample_stays (r : BitVec 4) (mv : Half) : Stays s (execSupplySample r mv s) :=
  stays_ite trivial (stays_ite (.refl s) (sample1_still _ _ (.refl s)))

/-! ### Faults and orders -/

theorem faultReport_stays : Stays s (execFaultReport s) := by
  unfold execFaultReport
  split
  · exact .refl s
  · exact record_still _ (.refl s)

theorem standingOrderExecute_stays : Stays s (execStandingOrderExecute s) := by
  refine stays_ite ?_ (.refl s)
  split
  · exact runOrder_still _ (.refl s)
  · exact .refl s

/-! ### Medium boundary units -/

theorem linkUp_stays (m : BitVec 4) (ifu : BitVec 3) (spu : BitVec 2) (sdtx sdrx : Half) :
    Stays s (execLinkUp m ifu spu sdtx sdrx s) := by
  refine stays_ite (ite_still (setReg_still _ _ ?_) ?_) (.refl s)
  all_goals exact setRf_still _ _ _ _ (setRf_still _ _ _ _ (setRb_still _ _ _ (.refl s)))

theorem linkDown_stays (m : BitVec 4) : Stays s (execLinkDown m s) :=
  ite_still (setRb_still _ _ _ (linkFall_still _ (.refl s))) (linkFall_still _ (.refl s))

theorem probeTimeout_stays (m : BitVec 4) : Stays s (execProbeTimeout m s) := stays_ite (setMbu_still _ _ (.refl s)) (.refl s)

theorem anComplete_stays (m : BitVec 4) (page : Half) : Stays s (execAnComplete m page s) :=
  stays_ite (setReg_still _ _ (setRb_still _ _ _ (.refl s))) (.refl s)

theorem forwardLaunch_stays (m : BitVec 4) (raw : DWord) : Stays s (execForwardLaunch m raw s) :=
  stays_ite (.refl s) (stays_ite (setMbu_still _ _ (setRb_still _ _ _ (.refl s))) (setRb_still _ _ _ (.refl s)))

theorem doorbell_stays (m : BitVec 4) : Stays s (execDoorbell m s) :=
  stays_ite (each_still (clrFlag_still _ _ (.refl s)) fun _ _ h => readHead_still _ _ h) (.refl s)

theorem descriptorLoad_stays (m : BitVec 4) (j : BitVec 6) : Stays s (execDescriptorLoad m j s) := by
  have wanted := fun x => setMbu_still m.toNat x (.refl s)
  unfold execDescriptorLoad
  dsimp only
  refine stays_ite (.refl s) (stays_ite (wanted _) ?_)
  split
  · exact txFinish_still _ _ _ _ (report_still _ _ _ _ _ _ (still_fst ‹_› (touchRead_still _ _ _ (wanted _))))
  rename_i fetched
  have fetched := still_fst fetched (touchRead_still _ _ _ (wanted _))
  refine stays_ite (txFinish_still _ _ _ _ (report_still _ _ _ _ _ _ fetched)) ?_
  split
  · exact txFinish_still _ _ _ _ (report_still _ _ _ _ _ _ (still_fst ‹_› (touchRead_still _ _ _ fetched)))
  · exact setHead_still _ _ _ (still_fst ‹_› (touchRead_still _ _ _ fetched))

theorem frameLaunch_stays (m : BitVec 4) (j : BitVec 6) (raw : DWord) : Stays s (execFrameLaunch m j raw s) := by
  unfold execFrameLaunch
  dsimp only
  split
  · exact .refl s
  refine stays_ite (.refl s) (stays_ite (stays_ite (.refl s) (txFinish_still _ _ _ _ (mbuCount_still _ _ (.refl s))))
    (stays_ite (.refl s) (stays_ite ?_ (txFinish_still _ _ _ _ (ite_still (mbuCount_still _ _ ?_) (mbuCount_still _ _ ?_))))))
  · exact txFinish_still _ _ _ _ (mbuCount_still _ _ (launchLate_still _ _ _ _ (.refl s)))
  · exact launchLate_still _ _ _ _ (setMbu_still _ _ (.refl s))
  · exact setMbu_still _ _ (.refl s)

theorem transmitComplete_stays (m : BitVec 4) (j : BitVec 6) : Stays s (execTransmitComplete m j s) :=
  stays_ite (.refl s) (readHead_still _ _ (complete_still _ _ (.refl s)))

theorem mbuTdrComplete_stays (m : BitVec 4) (fail pol : Bool) (rt : BitVec 11) : Stays s (execMbuTdrComplete m fail pol rt s) :=
  stays_ite (setReg_still _ _ (setMbu_still _ _ (.refl s))) (.refl s)

theorem frameReceive_stays (m : BitVec 4) (fr : Frame) : Stays s (execFrameReceive m fr s) := by
  unfold execFrameReceive
  extract_lets m good fwd _ arrived forwarded flawed coded short overflowed extracted drop
  have harrived : Still s arrived := setMbu_still _ _ (.refl s)
  have hforwarded : Still s forwarded := by
    dsimp only [forwarded, fwd]
    split
    · exact forwardDone_still _ _ _ _ harrived
    · exact harrived
  have hflawed : Still s flawed := ite_still hforwarded (mbuCount_still _ _ hforwarded)
  have hcoded : Still s coded := ite_still (mbuCount_still _ _ hflawed) hflawed
  have hshort : Still s short := ite_still (mbuCount_still _ _ hcoded) hcoded
  have hoverflowed : Still s overflowed := ite_still (mbuCount_still _ _ hshort) hshort
  have hextracted : Still s extracted := by
    dsimp only [extracted, fwd]
    split
    · exact ite_still (extracts_still _ _ hoverflowed) hoverflowed
    · exact hoverflowed
  exact stays_ite (.refl s) (stays_ite (mbuCount_still _ _ hforwarded) (ite_still hextracted (ringWrite_still _ _ _ _ hextracted)))

end Sys2Proof.Proofs
end

section
/-! SUPPORT. The invariant `Legal` under every operation that may change a mode: register writes, the changes of Table 11, HOLD and
the resets. -/
namespace Sys2Proof.Proofs
open Sys2Proof.Machine Sys2Proof.Laws

variable {s t : State}

/-- The invariant speaks of nothing that a still operation changes. -/
theorem legal_of_still (h : Still s t) (hl : Legal s) : Legal t where
  ram := h.ram hl.ram
  chip := h.chip hl.chip
  sptr := h.sptr ▸ hl.sptr
  queue := by
    unfold queueWf
    rw [h.pending]
    exact hl.queue
  off := by
    rw [h.mode, h.off]
    exact hl.off
  held hm := by
    rw [h.heldFrom]
    exact hl.held (h.mode.symm.trans hm)
  free hm := by
    rw [h.heldFrom, h.holdSrc, h.settled]
    exact hl.free fun hs => hm (h.mode.trans hs)

theorem legal_ite {p : Prop} [Decidable p] {a b : State} (ha : Legal a) (hb : Legal b) : Legal (if p then a else b) := by
  split
  · exact ha
  · exact hb

theorem active_iff : s.active = true ↔ s.mode = .rehearse ∨ s.mode = .run := by simp [State.active]

theorem legal_live (hl : Legal s) (on : s.mode ≠ .off) : s.off = .live := by
  by_contra h
  exact on (hl.off.mpr h)

/-- A change of mode outside OFF and HOLD, which leaves no record of a HOLD. -/
theorem legal_enter (hl : Legal s) (on : s.mode ≠ .off) {m : Mode} (hm : m ≠ .off) (hh : m ≠ .hold) (p : Option Mode) :
    Legal { s with mode := m, pend := p, heldFrom := .off, holdSrc := .none, settled := false } where
  ram := hl.ram
  chip := hl.chip
  sptr := hl.sptr
  queue := hl.queue
  off := by simp [hm, legal_live hl on]
  held h := absurd h hh
  free _ := ⟨rfl, rfl, rfl⟩

/-- The same from a mode other than HOLD, which holds no such record. -/
theorem legal_change (hl : Legal s) (on : s.mode ≠ .off) (unheld : s.mode ≠ .hold) {m : Mode} (hm : m ≠ .off) (hh : m ≠ .hold)
    (p : Option Mode) : Legal { s with mode := m, pend := p } := by
  obtain ⟨held, src, settled⟩ := hl.free unheld
  have entered := legal_enter hl on hm hh p
  rwa [← held, ← src, ← settled] at entered

theorem legal_rewind (hl : Legal s) : Legal { s with sptr := 0 } :=
  ⟨hl.ram, hl.chip, Nat.zero_lt_succ _, hl.queue, hl.off, hl.held, hl.free⟩

/-! ### HOLD -/

theorem enterHold_legal (hl : Legal s) (ha : s.active = true) (src : HoldSrc) : Legal (s.enterHold src) := by
  unfold State.enterHold
  extract_lets u v w c x
  have hv : Still s v := tdrAbandon_still (freezePins_still (Still.refl s))
  have hw : Still s w := ite_still (dropOrders_still hv) hv
  have was := active_iff.mp ha
  have entered : Legal x :=
    { ram := hw.ram hl.ram
      chip := hw.chip hl.chip
      sptr := hw.sptr ▸ hl.sptr
      queue := (legal_of_still hw hl).queue
      off := by
        have on : s.mode ≠ .off := by rcases was with h | h <;> simp [h]
        have live : w.off = .live := hw.off.trans (legal_live hl on)
        simp [live, x]
      held := fun _ => by
        show w.mode = .rehearse ∨ w.mode = .run
        rwa [hw.mode]
      free := fun h => absurd rfl h }
  exact legal_of_still (holdUnits_still x) entered

theorem holdSettled_legal (hl : Legal s) (hm : s.mode = .hold) : Legal { s with settled := true } :=
  ⟨hl.ram, hl.chip, hl.sptr, hl.queue, hl.off, hl.held, fun h => absurd hm h⟩

theorem returnHold_legal (hl : Legal s) (hm : s.mode = .hold) : Legal s.returnHold := by
  have back := hl.held hm
  have entered : Legal
      { s with mode := s.heldFrom, pend := none, sptr := 0, heldFrom := .off, holdSrc := .none, settled := false } :=
    legal_rewind (legal_enter hl (by simp [hm]) (by rcases back with h | h <;> simp [h]) (by rcases back with h | h <;> simp [h]) none)
  refine legal_of_still ?_ entered
  refine runAll_still (moversReturn_still (each_still (tmrReturn_still (thawPins_still (each_still (repost_still (.refl _))
    fun t g h => ?_))) fun _ q h => psqReturn_still q h))
  dsimp only
  split
  · exact resume_still _ _ h
  · split
    · exact setThr_still _ _ h
    · exact h

/-! ### Register writes -/

theorem modeRequest_legal (hl : Legal s) (p : Path) (code : Nat) : Legal (s.modeRequest p code).1 := by
  unfold State.modeRequest
  cases modeOf code with
  | none => exact hl
  | some m =>
    have shown {u : State} (hu : Legal u) : Legal (u.setRf .cpxCtl 2 0 code) := legal_of_still (setRf_still _ _ _ _ (.refl u)) hu
    dsimp only
    split
    · exact shown (enterHold_legal hl (by tauto) _)
    split
    · exact hl
    split
    · exact shown hl
    split
    · exact hl
    split
    · exact hl
    · exact shown (legal_of_still (upd_pendCyc_still s.cycle (upd_pend_still (some m) (.refl s))) hl)

theorem refuse_legal (hl : Legal s) (acc : Acc) (code off : Nat) : Legal (s.refuse acc code off).1 :=
  legal_of_still (refuse_still acc code off (.refl s)) hl

theorem writeReg_legal (hl : Legal s) (acc : Acc) (r : Reg) (v : Word) (da : Nat) : Legal (s.writeReg acc r v da).1 := by
  by_cases hr : r = .cpxCtl
  · subst hr
    unfold State.writeReg
    split
    · exact refuse_legal hl _ _ _
    split
    · exact refuse_legal hl _ _ _
    · show Legal (s.command acc da _).1
      unfold State.command
      split
      · exact modeRequest_legal hl _ _
      · exact refuse_legal hl _ _ _
  · exact legal_of_still (writeReg_still hr v da) hl

theorem write32_legal (hl : Legal s) (acc : Acc) (o : Nat) (v : Word) (da : Nat) : Legal (s.write32 acc o v da).1 := by
  unfold State.write32
  split
  · exact refuse_legal hl _ _ _
  split
  · exact refuse_legal hl _ _ _
  split
  · exact refuse_legal hl _ _ _
  · exact writeReg_legal hl _ _ _ _

theorem write64_legal (hl : Legal s) (acc : Acc) (o : Nat) (v : DWord) : Legal (s.write64 acc o v).1 :=
  write32_legal (write32_legal hl _ _ _ _) _ _ _ _

theorem busWrite_legal (hl : Legal s) (acc : Acc) (size : Size) (o : Nat) (v : DWord) : Legal (s.busWrite acc size o v) := by
  unfold State.busWrite
  split
  · exact hl
  split
  · exact write32_legal hl _ _ _ _
  · exact legal_ite (write64_legal hl _ _ _) (refuse_legal hl _ _ _)
  · exact refuse_legal hl _ _ _

theorem put_legal (hl : Legal s) (acc : Acc) (r : Reg) (v : Nat) : Legal (s.put acc r v) := busWrite_legal hl _ _ _ _

theorem putChcmd_legal (hl : Legal s) (acc : Acc) (u : LockUnit) (cmd ch : Nat) : Legal (s.putChcmd acc u cmd ch) := by
  cases u with
  | cluster c => exact put_legal hl _ _ _
  | complex => exact put_legal hl _ _ _

theorem mailboxAccess_legal (hl : Legal s) (k : Nat) : Legal (s.mailboxAccess k).1 := by
  unfold State.mailboxAccess
  dsimp only
  split
  · exact refuse_legal hl _ _ _
  split
  · split
    · exact write64_legal hl _ _ _
    · exact write32_legal hl _ _ _ _
  · exact legal_of_still (mailboxRead_still _ _ (.refl s)) hl

/- `State.mailbox` is unfolded as a function, not at `s`: compared at `s` with its body, the kernel would reduce the whole access. -/
theorem mailbox_legal (hl : Legal s) : Legal s.mailbox := by
  generalize hf : State.mailbox = f
  delta State.mailbox at hf
  subst hf
  beta_reduce
  extract_lets c d k t u
  have accessed : Legal (u.mailboxAccess k).1 :=
    mailboxAccess_legal (legal_of_still (passRead_still _ _ (clrFlag_still _ _ (.refl s))) hl) k
  generalize u.mailboxAccess k = r at accessed ⊢
  obtain ⟨v, code⟩ := r
  exact legal_of_still (setFlag_still _ _ (setWord_still _ _ (setWord_still _ _ (setWord_still _ _ (.refl v))))) accessed

/-! ### The changes of Table 11 -/

theorem enterConfigure_legal (hl : Legal s) (on : s.mode ≠ .off) : Legal s.enterConfigure := by
  unfold State.enterConfigure
  extract_lets fromHold a b c d e f g
  have ha : Still s a := ite_still (dropOrders_still (.refl s)) (.refl s)
  have hb : Legal b := legal_enter (legal_of_still ha hl) (by rwa [ha.mode]) (m := .configure) (by decide) (by decide) none
  have hc : Still b c := ite_still (tmrReturn_still (thawPins_still (.refl b))) (.refl b)
  have hd : Still b d := each_still hc fun _ _ h => ite_still (boundary_still _ h) h
  have he : Still b e := configureSheaves_still (finishCommits_still hd)
  have hf : Still b f := each_still he fun _ _ h => haltThread_still _ _ (setThr_still _ _ h)
  have hg : Still b g := each_still hf fun _ _ h => psqConfigure_still _ h
  exact legal_of_still (gateAll_still (moversConfigure_still (mbusConfigure_still hg))) hb

theorem leaveConfigure_legal (hl : Legal s) (hc : s.mode = .configure) {m : Mode} (hm : m = .rehearse ∨ m = .run) :
    Legal (s.leaveConfigure m) := by
  unfold State.leaveConfigure
  extract_lets a b c d
  have ha : Still s a := ite_still (rehearsePins_still (.refl s)) (runPins_still (.refl s))
  have entered : Legal { a with mode := m, pend := none, sptr := 0 } :=
    legal_rewind (legal_change (legal_of_still ha hl) (by simp [ha.mode, hc]) (by simp [ha.mode, hc])
      (by rcases hm with rfl | rfl <;> decide) (by rcases hm with rfl | rfl <;> decide) none)
  have hb : Legal b := legal_of_still (runAll_still (flushCaches_still (repost_still (.refl _)))) entered
  have hc : Still b c := each_still (.refl b) fun _ _ h => placeThread_still _ h
  have hd : Still b d := each_still hc fun _ _ h => ite_still (psqStart_still _ _ h) h
  exact legal_of_still (mbusStart_still hd) hb

/-! ### Resets -/

/-- A reset leaves the block in a kind of OFF, whatever memory it keeps. -/
theorem toOff_legal (hl : Legal s) {p : OffPhase} (hp : p ≠ .live) {ram : List Host.Cell} (hr : Memory.wf ram = true)
    (ecc : Tab EccMark) : Legal { s.toOff p with ram := ram, ecc := ecc } :=
  ⟨hr, hl.chip, Nat.zero_lt_succ _, hl.queue, ⟨fun _ => hp, fun _ => rfl⟩, nofun, fun _ => ⟨rfl, rfl, rfl⟩⟩

/-- Initialisation leaves the block in CONFIGURE. -/
theorem afterInit_legal (hl : Legal s) {ram : List Host.Cell} (hr : Memory.wf ram = true) (ecc : Tab EccMark) :
    Legal { afterInit s with ram := ram, ecc := ecc } :=
  ⟨hr, hl.chip, Nat.zero_lt_succ _, hl.queue, ⟨nofun, fun h => absurd rfl h⟩, nofun, fun _ => ⟨rfl, rfl, rfl⟩⟩

/-- Within OFF one phase follows another. -/
theorem offPhase_legal (hl : Legal s) (off : s.off ≠ .live) {p : OffPhase} (hp : p ≠ .live) : Legal { s with off := p } :=
  ⟨hl.ram, hl.chip, hl.sptr, hl.queue, ⟨fun _ => hp, fun _ => hl.off.mpr off⟩, hl.held, hl.free⟩

end Sys2Proof.Proofs
end

section
/-! SUPPORT. Every command keeps the invariant `Legal`: most of them are still, and what the others change is in its place. -/
namespace Sys2Proof.Proofs
open Sys2Proof.Machine Sys2Proof.Laws

/-- If the outcome is a next state, it is legal. -/
def Lawful : Host.Outcome State Fault Refusal → Prop
  | .next t => Legal t
  | _ => True

variable {s : State}

theorem lawful_of_stays {o : Host.Outcome State Fault Refusal} (h : Stays s o) (hl : Legal s) : Lawful o := by
  cases o with
  | next t => exact legal_of_still h hl
  | _ => trivial

theorem lawful_ite {p : Prop} [Decidable p] {a b : Host.Outcome State Fault Refusal} (ha : Lawful a) (hb : Lawful b) :
    Lawful (if p then a else b) := by
  split
  · exact ha
  · exact hb

/-- A command that acts under a condition needs to be lawful where it holds. -/
theorem lawful_dite {p : Prop} [Decidable p] {a b : Host.Outcome State Fault Refusal} (ha : p → Lawful a) (hb : Lawful b) :
    Lawful (if p then a else b) := by
  split
  · exact ha ‹_›
  · exact hb

/-! ### Writes of registers by commands of their own -/

theorem lockReleaseHost_lawful (hl : Legal s) (acc : Acc) (u : LockUnit) (lock : BitVec 9) :
    Lawful (execLockReleaseHost acc u lock s) := by
  cases u with
  | cluster c => exact put_legal hl _ _ _
  | complex => exact put_legal hl _ _ _

theorem triggerBitsSet_lawful (hl : Legal s) (src : PortSrc) (q : BitVec 6) (mask : Byte) :
    Lawful (execTriggerBitsSet src q mask s) := by
  cases src with
  | thread g => exact lawful_of_stays (triggerBitsSet_thread_stays g q mask) hl
  | bus acc => exact put_legal hl _ _ _

/-! ### Changes of mode -/

theorem holdSettled_lawful (hl : Legal s) : Lawful (execHoldSettled s) :=
  lawful_dite (fun h => holdSettled_legal hl h.1) hl

theorem returnFromHold_lawful (hl : Legal s) : Lawful (execReturnFromHold s) := by
  show Legal (if _ then _ else _)
  split
  · exact returnHold_legal hl (And.left ‹_›)
  · exact hl

theorem enterConfigure_lawful (hl : Legal s) : Lawful (execEnterConfigure s) := by
  refine lawful_dite (fun h => enterConfigure_legal hl ?_) hl
  obtain ⟨-, ⟨active, -⟩ | ⟨held, -⟩⟩ := h
  · rcases active_iff.mp active with m | m <;> simp [m]
  · simp [held]

theorem leaveConfigure_lawful (hl : Legal s) : Lawful (execLeaveConfigure s) := by
  unfold execLeaveConfigure
  split
  · exact lawful_dite (fun ⟨configured, target, _⟩ => leaveConfigure_legal hl configured target) hl
  · exact hl

theorem rehearseRunSwitch_lawful (hl : Legal s) : Lawful (execRehearseRunSwitch s) := by
  have run := runPins_still (.refl s)
  have rehearse := dropOrders_still (rehearsePins_still (.refl s))
  refine lawful_dite (fun h => ?_) (lawful_dite (fun h => ?_) hl)
  · exact legal_change (legal_of_still run hl) (by simp [run.mode, h.1]) (by simp [run.mode, h.1]) (by decide) (by decide) none
  · exact legal_change (legal_of_still rehearse hl) (by simp [rehearse.mode, h.1]) (by simp [rehearse.mode, h.1])
      (by decide) (by decide) none

theorem enterRetain_lawful (hl : Legal s) : Lawful (execEnterRetain s) := by
  have stopped := mbusRetain_still (gleanStop_still (freezePins_still (.refl s)))
  refine lawful_dite (fun h => ?_) hl
  exact legal_change (legal_of_still stopped hl) (by simp [stopped.mode, h.1]) (by simp [stopped.mode, h.1])
    (by decide) (by decide) none

theorem retainExit_lawful (hl : Legal s) : Lawful (execRetainExit s) := by
  refine lawful_dite (fun h => ?_) hl
  exact legal_of_still (syncLost_still _ (flushCaches_still (thawPins_still (.refl _))))
    (legal_change hl (by simp [h.1]) (by simp [h.1]) (m := .configure) (by decide) (by decide) none)

/-! ### Resets -/

theorem warmReset_lawful (hl : Legal s) : Lawful (execWarmReset s) := by
  refine lawful_dite (fun _ => hl) (toOff_legal hl ?_ ((settleWindow_still (.refl s)).ram hl.ram) _)
  split <;> decide

theorem resetRelease_lawful (hl : Legal s) (good : Bool) : Lawful (execResetRelease good s) := by
  have phase : ∀ p, p ≠ OffPhase.live → (if good then p else .failed) ≠ OffPhase.live := by
    cases good <;> simp
  exact lawful_dite (fun h => offPhase_legal hl (by simp [h]) (phase _ (by decide)))
    (lawful_dite (fun h => offPhase_legal hl (by simp [h]) (phase _ (by decide))) hl)

theorem initComplete_lawful (hl : Legal s) : Lawful (execInitComplete s) :=
  lawful_ite (afterInit_legal hl rfl _) (lawful_ite (afterInit_legal hl (wf_filter _ hl.ram) _) hl)

/-! ### The commands -/

/-- Each command keeps the invariant. -/
theorem exec_lawful (c : Instr) (hl : Legal s) : Lawful (exec c s) := by
  cases c with
  -- thread instructions (Tables 33 to 45)
  | mov g | ldi g | clr g | sext g | zext g | bswap g | satnS g | satnU g | add g | addc g | sub g | subc g | addSs g
  | addSu g | subSs g | subSu g | neg g | abs g | addi g | minS g | minU g | maxS g | maxU g | and g | or g | xor g
  | andn g | orn g | xnor g | not g | andi g | ori g | xori g | shl g | shr g | sar g | rol g | ror g | shli g | shri g
  | sari g | roli g | rori g | clz g | ctz g | popc g | brev g | bfxU g | bfxS g =>
    exact lawful_of_stays (alu_still _ _ _ (.refl s)) hl
  | cmp g | cmn g | cmpi g | tst g | tsti g | btst g | btstr g | bld g | tcmp g =>
    exact lawful_of_stays (test_still _ _ _ (.refl s)) hl
  | bset g | bclr g | btgl g | bsetr g | bclrr g | btglr g => exact lawful_of_stays (bitOp_still _ _ _ _ (.refl s)) hl
  | bmov g | bnot g | band g | bor g | bxor g | bandn g => exact lawful_of_stays (bit1_still _ _ _ (.refl s)) hl
  | bfi g | bfc g => exact lawful_of_stays (fieldOp_still _ _ _ (.refl s)) hl
  | mulU g | mulS g | mulL g | mulhU g | mulhS g => exact lawful_of_stays (mulOp_still _ _ _ _ (.refl s)) hl
  | macU g | macS g | msuU g | msuS g => exact lawful_of_stays (macOp_still _ _ _ (.refl s)) hl
  | divU g | divS g => exact lawful_of_stays (divOp_still _ _ _ (.refl s)) hl
  | fadd g | fsub g | fmul g | fdiv g | fsqrt g | fma g | fmsub g | fmin g | fmax g | fneg g | fabs g | fcpys g | fclass g
  | fcvtf g | fcvtiS g | fcvtiU g | icvtf g | frint g =>
    exact lawful_of_stays (fpOp_still _ _ _ (.refl s)) hl
  | fcmp g | fcmpS g => exact lawful_of_stays (fpCmpOp_still _ _ _ (.refl s)) hl
  | nop g | fenceL g | sync g => exact lawful_of_stays (effect_still _ _ _ (.refl s) fun _ _ h => h) hl
  | flgSet g | flgClr g | accClr g => exact lawful_of_stays (effect_still _ _ _ (.refl s) fun _ _ h => setThr_still _ _ h) hl
  | fenceS g | fenceA g | fenceX g => exact lawful_of_stays (effect_still _ _ _ (.refl s) fun _ _ h => fenceStores_still _ h) hl
  | cacheInv g => exact lawful_of_stays (effect_still _ _ _ (.refl s) fun _ _ h => cacheInv_still _ h) hl
  | evfSet g => exact lawful_of_stays (effect_still _ _ _ (.refl s) fun _ _ h => setFlag_still _ _ h) hl
  | evfClr g => exact lawful_of_stays (effect_still _ _ _ (.refl s) fun _ _ h => clrFlag_still _ _ h) hl
  | swap g | lea g | bstf g | b g | jmp g | call g | ret g | cbr g | djnz g | bbs g | bbc g | accX g | evfTst g | chs g
  | sheafStat g =>
    exact lawful_of_stays (instr_still _ _ _ (.refl s) fun _ _ h => h) hl
  | loop g | loopi g | lbrk g | muld g => exact lawful_of_stays (instr_still _ _ _ (.refl s) fun _ _ h => setThr_still _ _ h) hl
  | chr g => exact lawful_of_stays (instr_still _ _ _ (.refl s) fun _ _ h => setChan_still _ _ h) hl
  | thrStart g => exact lawful_of_stays (instr_still _ _ _ (.refl s) fun _ _ h => ite_still (startThread_still _ h) h) hl
  | thrEnd g => exact lawful_of_stays (instr_still _ _ _ (.refl s) fun _ _ h => toIdle_still _ (setThr_still _ _ h)) hl
  | chw g | che g | chd g => exact lawful_of_stays (asking_still _ _ _ (.refl s) fun _ _ h => setChan_still _ _ h) hl
  | lockTry g => exact lawful_of_stays (asking_still _ _ _ (.refl s) fun _ _ h => lockTry_still _ _ h) hl
  | lockRel g => exact lawful_of_stays (asking_still _ _ _ (.refl s) fun _ _ h => lockRel_still _ _ h) hl
  | sheafOpen g | sheafJoin g => exact lawful_of_stays (asking_still _ _ _ (.refl s) fun _ _ h => sheafJoin_still _ _ _ h) hl
  | sheafClose g => exact lawful_of_stays (asking_still _ _ _ (.refl s) fun _ _ h => sheafClose_still _ _ h) hl
  | pinSet g | pinClr g | pinTgl g => exact lawful_of_stays (pinOp_still _ _ _ (.refl s)) hl
  | rete g => exact lawful_of_stays (rete_stays g) hl
  | doze g => exact lawful_of_stays (doze_stays g) hl
  | swathWait g => exact lawful_of_stays (swathWait_stays g) hl
  | wait g => exact lawful_of_stays (wait_stays g) hl
  | slotW g => exact lawful_of_stays (slotW_stays g) hl
  | psqAct g => exact lawful_of_stays (psqAct_stays g) hl
  -- what else happens to threads and cores
  | threadStopAtBoundary g => exact lawful_of_stays (threadStopAtBoundary_stays g) hl
  | eventEntry g => exact lawful_of_stays (eventEntry_stays g) hl
  | dozeWake g => exact lawful_of_stays (dozeWake_stays g) hl
  | icacheFill g => exact lawful_of_stays (icacheFill_stays g) hl
  | breakpointHit g => exact lawful_of_stays (breakpointHit_stays g) hl
  | storeBufferDrain g => exact lawful_of_stays (storeBufferDrain_stays g) hl
  | postedWritePerform n => exact lawful_of_stays (postedWritePerform_stays n) hl
  | dozeEnter n | wakeStart n => exact lawful_of_stays (stays_ite (setCore_still _ _ (.refl s)) (.refl s)) hl
  | wakeComplete n => exact lawful_of_stays (ite_still (wakeCore_still _ (.refl s)) (.refl s)) hl
  -- sequencers
  | psqSet q | psqTgl q | psqOe q =>
    exact lawful_of_stays (engine_still _ _ _ (.refl s) fun _ _ h => psqNext_still _ (changeMask_still _ _ _ _ _ h)) hl
  | psqOutb q => exact lawful_of_stays (engine_still _ _ _ (.refl s) fun _ _ h => outb_still _ _ h) hl
  | psqInb q => exact lawful_of_stays (engine_still _ _ _ (.refl s) fun _ _ h => inb_still _ _ h) hl
  | psqDly q => exact lawful_of_stays (engine_still _ _ _ (.refl s) fun _ _ h => setPsq_still _ _ h) hl
  | psqWlvl q | psqWedg q | psqWcnt q => exact lawful_of_stays (engine_still _ _ _ (.refl s) fun _ _ h => psqWait_still _ _ h) hl
  | psqWtrg q =>
    exact lawful_of_stays (engine_still _ _ _ (.refl s) fun _ _ h =>
      ite_still (psqNext_still _ (clrTrig_still _ _ h)) (psqWait_still _ _ h)) hl
  | psqSig q => exact lawful_of_stays (engine_still _ _ _ (.refl s) fun _ _ h => psqNext_still _ (setFlag_still _ _ h)) hl
  | psqLdv q => exact lawful_of_stays (engine_still _ _ _ (.refl s) fun _ _ h => psqNext_still _ (vwrite_still _ _ _ _ h)) hl
  | psqDjnz q =>
    exact lawful_of_stays (engine_still _ _ _ (.refl s) fun _ _ h =>
      ite_still (psqNext_still _ (vwrite_still _ _ _ _ h)) (psqGo_still _ _ (vwrite_still _ _ _ _ h))) hl
  | psqJmp q => exact lawful_of_stays (engine_still _ _ _ (.refl s) fun _ _ h => psqGo_still _ _ h) hl
  | psqBlv q =>
    exact lawful_of_stays (engine_still _ _ _ (.refl s) fun _ _ h => ite_still (psqGo_still _ _ h) (psqNext_still _ h)) hl
  | psqRarm q =>
    exact lawful_of_stays (engine_still _ _ _ (.refl s) fun _ _ h =>
      psqNext_still _ (ite_still (setRb_still _ _ _ (setRb_still _ _ _ h)) (setRb_still _ _ _ h))) hl
  | psqEnd q =>
    exact lawful_of_stays (engine_still _ _ _ (.refl s) fun _ _ h =>
      ite_still (setFlag_still _ _ (psqHalt_still _ _ h)) (psqHalt_still _ _ h)) hl
  | psqCntc q => exact lawful_of_stays (psqCntc_stays q) hl
  | shiftStallRelease q => exact lawful_of_stays (shiftStallRelease_stays q) hl
  | psqDlyExpiry q => exact lawful_of_stays (psqDlyExpiry_stays q) hl
  | actionLevel q | actionDrive q =>
    exact lawful_of_stays (runAction_still _ _ _ (.refl s) fun _ _ h => changeMask_still _ _ _ _ _ h) hl
  | actionTrig q => exact lawful_of_stays (runAction_still _ _ _ (.refl s) fun _ _ h => setTrig_still _ _ h) hl
  | actionLoad q => exact lawful_of_stays (runAction_still _ _ _ (.refl s) fun _ _ h => vwrite_still _ _ _ _ h) hl
  | shiftRegisterWrite g q k val | valueSetPort g q val =>
    exact lawful_of_stays (ite_still (portPut_still _ _ _ _ (.refl s)) (.refl s)) hl
  | shiftRegisterRead g q k => exact lawful_of_stays (ite_still (readSh_still _ _ (.refl s)) (.refl s)) hl
  | captureFifoRead src q l => exact lawful_of_stays (captureFifoRead_stays src q l) hl
  | edgeRecognised q l => exact lawful_of_stays (edgeRecognised_stays q l) hl
  | reflexFire q r => exact lawful_of_stays (reflexFire_stays q r) hl
  | counterTick q k => exact lawful_of_stays (counterTick_stays q k) hl
  -- pins
  | laneEdge p lvl ph => exact lawful_of_stays (laneEdge_stays p lvl ph) hl
  | parkEnd p => exact lawful_of_stays (parkEnd_stays p) hl
  | loadSenseFinding p f => exact lawful_of_stays (loadSenseFinding_stays p f) hl
  | tdrComplete fail pol rt => exact lawful_of_stays (tdrComplete_stays fail pol rt) hl
  -- swaths, sheaves, time and timers
  | swathBoundary d => exact lawful_of_stays (ite_still (boundary_still _ (.refl s)) (.refl s)) hl
  | budgetExpiry who => exact lawful_of_stays (budgetExpiry_stays who) hl
  | commitComplete => exact lawful_of_stays commitComplete_stays hl
  | deadlock set => exact lawful_of_stays (examine_still _ (.refl s)) hl
  | slewUnit => exact lawful_of_stays slewUnit_stays hl
  | watchdogExpiry => exact lawful_of_stays (ite_still (syncLost_still _ (.refl s)) (.refl s)) hl
  | timerFire ch => exact lawful_of_stays (ite_still (tmrFire_still _ (.refl s)) (.refl s)) hl
  -- memories, movers, supplies, faults and orders
  | moverFlagStart m => exact lawful_of_stays (moverFlagStart_stays m) hl
  | moverChainComplete m => exact lawful_of_stays (moverChainComplete_stays m) hl
  | moverDescriptorDone m => exact lawful_of_stays (stays_ite (moverStep_still _ (.refl s)) (.refl s)) hl
  | gleanerCopy => exact lawful_of_stays (ite_still (gleanCopy_still (.refl s)) (.refl s)) hl
  | gleanerTest bad => exact lawful_of_stays (gleanerTest_stays bad) hl
  | scrubWrite => exact lawful_of_stays scrubWrite_stays hl
  | gleanerRestore => exact lawful_of_stays gleanerRestore_stays hl
  | gleanerRetry => exact lawful_of_stays gleanerRetry_stays hl
  | wipeComplete => exact lawful_of_stays wipeComplete_stays hl
  | faultReport => exact lawful_of_stays faultReport_stays hl
  | standingOrderExecute => exact lawful_of_stays standingOrderExecute_stays hl
  | tamperInput | lifecycleChange => exact lawful_of_stays (startWipe_still _ (.refl s)) hl
  | supplySample r mv => exact lawful_of_stays (supplySample_stays r mv) hl
  -- medium boundary units
  | linkUp m ifu spu sdtx sdrx => exact lawful_of_stays (linkUp_stays m ifu spu sdtx sdrx) hl
  | linkDown m => exact lawful_of_stays (linkDown_stays m) hl
  | probeTimeout m => exact lawful_of_stays (probeTimeout_stays m) hl
  | doorbell m => exact lawful_of_stays (doorbell_stays m) hl
  | anComplete m page => exact lawful_of_stays (anComplete_stays m page) hl
  | frameReceive m fr => exact lawful_of_stays (frameReceive_stays m fr) hl
  | forwardLaunch m raw => exact lawful_of_stays (forwardLaunch_stays m raw) hl
  | descriptorLoad m j => exact lawful_of_stays (descriptorLoad_stays m j) hl
  | transmitComplete m j => exact lawful_of_stays (transmitComplete_stays m j) hl
  | frameLaunch m j raw => exact lawful_of_stays (frameLaunch_stays m j raw) hl
  | mbuTdrComplete m fail pol rt => exact lawful_of_stays (mbuTdrComplete_stays m fail pol rt) hl
  -- the aperture and reads of registers
  | apertureRead acc size off => exact lawful_of_stays (ite_still (apertureRead_still _ _ _ (.refl s)) (.refl s)) hl
  | apertureWrite acc size off val => exact lawful_of_stays (ite_still (apertureWrite_still _ _ _ _ (.refl s)) (.refl s)) hl
  | wideReadLow acc size off | timerCaptureRead acc size ch | programRamRead acc q | globalChannelPeek acc =>
    exact lawful_of_stays (busRead_still _ _ _ (.refl s)) hl
  -- writes of registers
  | registerWrite acc size off val | debugRegisterWrite acc n val | commonsTimeWrite acc val | timerCompareWrite acc ch val
  | timerIntervalWrite acc ch val | actionOfferHost acc q act =>
    exact busWrite_legal hl _ _ _ _
  | modeReqConfigure acc | modeReqRehearse acc | modeReqRun acc | modeReqRetain acc | modeReqHold acc
  | domainEnable acc d grace | domainDisable acc d grace | coreTcmdStart acc g | coreTcmdStop acc g | coreTcmdClear acc g
  | debugHalt acc g | debugResume acc g | debugStep acc g | rateAdjustWrite acc val | slewWrite acc val
  | stepRequest acc val | timerEnable acc ch ctl | timerTriggerGo acc ch | psqStart acc q | psqStop acc q
  | programRamWrite acc q val | eventFlagSetHost acc c w mask | eventFlagClearHost acc c w mask | pinConfigWrite acc p val
  | pinSlotWrite acc p hi val | tdrStart acc p | anRestart acc m anen adv | queueEnable acc m j cfg | queueStop acc m j
  | mbuEnable acc m ctl | mbuTdrStart acc m | orderArm acc o ctl | orderDisarm acc o | faultLogPop acc seq =>
    exact put_legal hl _ _ _
  | forceClose acc u ch | discard acc u ch | channelReset acc u ch => exact putChcmd_legal hl _ _ _ _
  | lockReleaseHost acc u lock => exact lockReleaseHost_lawful hl acc u lock
  | triggerBitsSet src q mask => exact triggerBitsSet_lawful hl src q mask
  -- modes and resets
  | servoMailboxCommand => exact lawful_ite (mailbox_legal hl) hl
  | holdSettled => exact holdSettled_lawful hl
  | returnFromHold => exact returnFromHold_lawful hl
  | enterConfigure => exact enterConfigure_lawful hl
  | leaveConfigure => exact leaveConfigure_lawful hl
  | rehearseRunSwitch => exact rehearseRunSwitch_lawful hl
  | enterRetain => exact enterRetain_lawful hl
  | retainExit => exact retainExit_lawful hl
  | warmReset => exact warmReset_lawful hl
  | initComplete => exact initComplete_lawful hl
  | powerOnReset => exact toOff_legal hl (by decide) rfl _
  | powerRemoval => exact toOff_legal hl (by decide) rfl _
  | resetRelease good => exact resetRelease_lawful hl good

end Sys2Proof.Proofs
end

section
/-! SUPPORT. The passing of time keeps the invariant `Legal`: what it queues names only units that the block has, and what it does
else is still but for the clock's counts and a HOLD. -/
namespace Sys2Proof.Proofs
open Sys2Proof.Machine Sys2Proof.Laws

/-- Every command of a list names units that the block has. -/
def Sound (l : List Instr) : Prop := ∀ c ∈ l, c.wf = true

section lists
variable {α : Type} {l m : List Instr}

theorem sound_of_all (h : l.all Instr.wf = true) : Sound l := List.all_eq_true.mp h

theorem sound_nil : Sound [] := nofun

theorem sound_cons {c : Instr} (hc : c.wf = true) (h : Sound l) : Sound (c :: l) := List.forall_mem_cons.mpr ⟨hc, h⟩

theorem sound_append (hl : Sound l) (hm : Sound m) : Sound (l ++ m) := List.forall_mem_append.mpr ⟨hl, hm⟩

theorem sound_ite {p : Prop} [Decidable p] (hl : Sound l) (hm : Sound m) : Sound (if p then l else m) := by
  split
  · exact hl
  · exact hm

theorem sound_map (k : List α) {f : α → Instr} (h : ∀ a, (f a).wf = true) : Sound (k.map f) := by
  intro c hc
  obtain ⟨a, -, rfl⟩ := List.mem_map.mp hc
  exact h a

theorem sound_flatMap (k : List α) {f : α → List Instr} (h : ∀ a, Sound (f a)) : Sound (k.flatMap f) := by
  intro c hc
  obtain ⟨a, -, ha⟩ := List.mem_flatMap.mp hc
  exact h a c ha

/-- A command that comes under a condition. -/
theorem sound_when {p : Prop} [Decidable p] {c : Instr} (hc : c.wf = true) : Sound (if p then [c] else []) :=
  sound_ite (sound_cons hc sound_nil) sound_nil

end lists

variable {s : State}

/-! ### What a cycle brings before the threads issue -/

theorem modeCmds_sound (s : State) : Sound s.modeCmds :=
  sound_ite (sound_of_all rfl) sound_nil

theorem boundaryCmds_sound (s : State) : Sound s.boundaryCmds := sound_append (sound_map _ fun _ => rfl) (sound_map _ fun _ => rfl)

theorem threadCmds_sound (s : State) : Sound s.threadCmds :=
  sound_append (sound_append (sound_append (sound_append
    (sound_map _ fun _ => rfl) (sound_map _ fun _ => rfl)) (sound_map _ fun _ => rfl)) (sound_map _ fun _ => rfl)) (sound_when rfl)

theorem timeCmds_sound (s : State) : Sound s.timeCmds :=
  sound_append (sound_append (sound_append (sound_ite sound_nil (sound_of_all rfl)) (sound_map _ fun _ => rfl)) (sound_when rfl))
    (sound_map _ fun _ => rfl)

theorem memCmds_sound (s : State) : Sound s.memCmds :=
  sound_append (sound_map _ fun _ => rfl) (sound_ite sound_nil (sound_cons rfl sound_nil))

theorem moverCmds_sound (s : State) : Sound s.moverCmds :=
  sound_flatMap _ fun _ => sound_append (sound_ite (sound_cons rfl sound_nil) (sound_when rfl)) (sound_when rfl)

theorem portCmds_sound (s : State) : Sound s.portCmds :=
  sound_append (sound_when rfl) (sound_flatMap _ fun _ =>
    sound_append (sound_append (sound_when rfl) (sound_map _ fun _ => rfl)) (sound_map _ fun _ => rfl))

theorem pinCmds_sound (s : State) : Sound s.pinCmds := sound_map _ fun _ => rfl

theorem wakeCmds_sound (s : State) : Sound s.wakeCmds := sound_flatMap _ fun _ => sound_of_all rfl

theorem cycleCmds_sound (s : State) : Sound s.cycleCmds := by
  have early := sound_append (sound_append (modeCmds_sound s) (boundaryCmds_sound s)) (threadCmds_sound s)
  have units := sound_append (sound_append (sound_append early (timeCmds_sound s)) (memCmds_sound s)) (moverCmds_sound s)
  exact sound_append (sound_append (sound_append units (portCmds_sound s)) (pinCmds_sound s)) (wakeCmds_sound s)

/-! ### What threads and sequencers execute in a cycle -/

theorem threadRowsA_wf (g : Tid) : (threadRowsA.all fun r => (r.2 g).wf) = true := rfl
theorem threadRowsB_wf (g : Tid) : (threadRowsB.all fun r => (r.2 g).wf) = true := rfl
theorem threadRowsC_wf (g : Tid) : (threadRowsC.all fun r => (r.2 g).wf) = true := rfl
theorem threadRowsD_wf (g : Tid) : (threadRowsD.all fun r => (r.2 g).wf) = true := rfl

theorem threadRows_wf (g : Tid) : (threadRows.all fun r => (r.2 g).wf) = true := by
  simp only [threadRows, List.all_append, threadRowsA_wf, threadRowsB_wf, threadRowsC_wf, threadRowsD_wf, Bool.and_self]

theorem rowFor_wf (op : Nat) (g : Tid) : (rowFor op g).wf = true := by
  unfold rowFor
  split
  · exact List.all_eq_true.mp (threadRows_wf g) _ (List.mem_of_find?_eq_some ‹_›)
  · rfl

theorem coreCmd_wf {n : Nat} {c : Nat × Instr} (h : s.coreCmd n = some c) : c.2.wf = true := by
  unfold State.coreCmd at h
  split at h
  · cases h
  split at h
  · cases h
    rfl
  split at h
  · cases h
    rfl
  split at h
  · cases h
    exact rowFor_wf _ _
  · cases h
    rfl
  · cases h

theorem mem_putInPlace {c d : Nat × Instr} {l : List (Nat × Instr)} (h : d ∈ putInPlace c l) : d = c ∨ d ∈ l := by
  induction l with
  | nil => simpa [putInPlace] using h
  | cons e r ih =>
    simp only [putInPlace] at h
    split at h
    · simpa using h
    · grind

/-- The commands put in place are those given. -/
theorem mem_foldl_putInPlace {d : Nat × Instr} {k l : List (Nat × Instr)} (h : d ∈ k.foldl (fun l c => putInPlace c l) l) :
    d ∈ k ∨ d ∈ l := by
  induction k generalizing l with
  | nil => exact .inr h
  | cons c r ih =>
    obtain hr | hp := ih h
    · exact .inl (List.mem_cons_of_mem _ hr)
    · obtain rfl | hd := mem_putInPlace hp
      · exact .inl List.mem_cons_self
      · exact .inr hd

theorem issueCmds_sound (s : State) : Sound s.issueCmds := by
  intro c hc
  obtain ⟨d, hd, rfl⟩ := List.mem_map.mp hc
  obtain hd | hd := mem_foldl_putInPlace hd
  · obtain ⟨n, -, hn⟩ := List.mem_filterMap.mp hd
    exact coreCmd_wf hn
  · cases hd

theorem engineRows_wf (q : BitVec 6) : (engineRows.all fun r => (r q).wf) = true := rfl

theorem engineRow_wf (w : Word) (q : BitVec 6) : (engineRow w q).wf = true := by
  unfold engineRow
  cases h : engineRows[fld w 31 27 - 1]? with
  | none => rfl
  | some f => exact List.all_eq_true.mp (engineRows_wf q) f (List.mem_of_getElem? h)

theorem engineCmds_sound (s : State) (q : Nat) : Sound (s.engineCmds q) := by
  have row (w : Word) (k : BitVec 6) : Sound [engineRow w k] := sound_cons (engineRow_wf w k) sound_nil
  unfold State.engineCmds
  dsimp only
  refine sound_ite (sound_cons rfl sound_nil) ?_
  split
  · exact sound_ite (sound_cons rfl (row _ _)) sound_nil
  · exact sound_ite (row _ _) sound_nil

theorem actionRow_wf (a : DWord) (q : BitVec 6) : (actionRow a q).wf = true := by
  unfold actionRow
  split
  · rfl
  split
  · rfl
  split
  · rfl
  · rfl

theorem seqCmds_sound (s : State) (q : Nat) : Sound (s.seqCmds q) :=
  sound_append (sound_append (sound_append (sound_append
    (sound_map _ fun _ => rfl) (sound_map _ fun _ => rfl)) (engineCmds_sound s q))
    (sound_map _ fun a => actionRow_wf a _)) (sound_map _ fun _ => rfl)

theorem lastCmds_sound (s : State) : Sound s.lastCmds :=
  sound_append (sound_append (sound_append
    (sound_map _ fun _ => rfl) (sound_when rfl)) (sound_ite (sound_map _ fun _ => rfl) sound_nil))
    (sound_ite (sound_map _ fun _ => rfl) sound_nil)

theorem issuePhase_sound (s : State) : Sound s.issuePhase :=
  sound_append (sound_append (issueCmds_sound s) (sound_flatMap _ fun q => seqCmds_sound s q)) (lastCmds_sound s)

/-! ### The tick -/

theorem legal_enqueue (hl : Legal s) {l : List Instr} (h : Sound l) (b : Bool) :
    Legal { s with half := b, pending := s.pending ++ l } where
  ram := hl.ram
  chip := hl.chip
  sptr := hl.sptr
  queue := by
    show (s.pending ++ l).all Instr.wf = true
    rw [List.all_append, Bool.and_eq_true]
    exact ⟨hl.queue, List.all_eq_true.mpr h⟩
  off := hl.off
  held := hl.held
  free := hl.free

/-- The clock's counts go on. -/
theorem legal_count (hl : Legal s) (n : Nat) {p : Nat} (hp : p < 32) : Legal { s with cycle := n, sptr := p } :=
  ⟨hl.ram, hl.chip, hp, hl.queue, hl.off, hl.held, hl.free⟩

theorem beginCycle_legal (hl : Legal s) : Legal s.beginCycle :=
  legal_count (legal_of_still (slewCycle_still (advanceTime_still (.refl s))) hl) _ (Nat.mod_lt _ (by decide))

theorem acceptHold_legal (hl : Legal s) : Legal s.acceptHold := by
  unfold State.acceptHold
  split
  · exact hl
  · refine legal_ite hl ?_
    have taken := legal_of_still (upd_holdReq_still none (.refl s)) hl
    dsimp only
    split
    · exact enterHold_legal taken ‹_› _
    · exact taken

theorem openCycle_legal (hl : Legal s) : Legal s.openCycle := by
  refine legal_of_still (startFills_still (.refl _)) (acceptHold_legal (legal_of_still (s := s) ?_ hl))
  exact each_still (each_still (.refl s) fun _ _ h => finishDiv_still _ h) fun _ _ h => flagCaptures_still _ _ h

theorem tick_legal (hl : Legal s) : Legal s.tick := by
  unfold State.tick
  refine legal_ite (legal_count hl _ hl.sptr) (legal_ite ?_ (legal_ite ?_ ?_))
  · exact legal_enqueue (legal_count hl _ hl.sptr) (modeCmds_sound s) _
  · exact legal_enqueue (legal_of_still (countDozes_still (.refl s)) hl) (issuePhase_sound _) _
  · exact legal_enqueue (openCycle_legal (beginCycle_legal (legal_of_still (endCycle_still (.refl s)) hl))) (cycleCmds_sound _) _

/-! ### The invariant -/

/-- The command at the front leaves the queue. -/
theorem legal_pop {c : Instr} {r : List Instr} (hl : Legal s) (h : s.pending = c :: r) : Legal { s with pending := r } where
  ram := hl.ram
  chip := hl.chip
  sptr := hl.sptr
  queue := by
    have whole := hl.queue
    unfold queueWf at whole
    rw [h, List.all_cons, Bool.and_eq_true] at whole
    exact whole.2
  off := hl.off
  held := hl.held
  free := hl.free

theorem step_lawful (hl : Legal s) : Lawful (step s) := by
  unfold step
  split
  · exact tick_legal hl
  · exact exec_lawful _ (legal_pop hl ‹_›)

/-- Settles O29, command by command (`exec_lawful`) and for the passing of time (`tick_legal`). -/
theorem everyStepKeepsLegal : Obligations.EveryStepKeepsLegal := by
  intro s t hl ht
  have lawful := step_lawful hl
  rwa [ht] at lawful

end Sys2Proof.Proofs
end

section
/-! SUPPORT. Two claims about swaths and the ledger that fail: a boundary also brings the slot enables of its domain's pins into
force (R303), and the late thread's abort of one context reaches the configuration word of a context that the block does not have. -/
namespace Sys2Proof.Proofs
open Sys2Proof.Machine Sys2Proof.Laws

theorem swathBoundary_due {d : BitVec 2} {s : State} (h : s.boundaryDue d.toNat = true) :
    exec (.swathBoundary d) s = .next (s.boundary d.toNat) := by
  simp only [exec, execSwathBoundary, h, if_true]

theorem budgetExpiry_due {g : Tid} {s : State} {p : Part} (h : s.budgetDue g.toNat = some p) :
    exec (.budgetExpiry (.thread g)) s = .next (s.checkThread g.toNat p 0) := by
  simp only [exec, execBudgetExpiry, h]

/-! ### A boundary and the pins -/

theorem each_fixed {α : Type} {s : State} {l : List α} {f : State → α → State} (h : ∀ a ∈ l, f s a = s) : s.each l f = s := by
  induction l with
  | nil => rfl
  | cons a l ih => exact (congrArg (·.each l f) (h a List.mem_cons_self)).trans (ih fun b hb => h b (List.mem_cons_of_mem a hb))

/-- Where no LDG_MBUD is listed, each reads its reset value, whose EN is 0 (R37). -/
theorem ldgMbud_unlisted {s : State} (h : ∀ e ∈ s.regs, e.1 < 0x1100 ∨ 0x1180 ≤ e.1) {m : Nat} (hm : m ∈ upto 32) :
    s.rb (.ldgMbud m) 31 = false := by
  have hm : m < 32 := List.mem_range.mp hm
  have unlisted : (Reg.ldgMbud m).off ∉ s.regs.map Prod.fst := by
    intro listed
    obtain ⟨e, he, at_m⟩ := List.mem_map.mp listed
    have := h e he
    simp only [Reg.off] at at_m
    omega
  have word : s.reg (.ldgMbud m) = (Reg.ldgMbud m).reset := by
    unfold State.reg
    rw [get_of_unlisted unlisted, regReset, regAt_off (by simpa [Reg.inRange] using hm) (by simp only [Reg.off]; omega)]
  unfold State.rb
  rw [word]
  change bit (Reg.ldgMbud 0).reset 31 = false
  decide

theorem boundaryMovers_unregistered {s : State} (h : ∀ e ∈ s.regs, e.1 < 0x1100 ∨ 0x1180 ≤ e.1) (d : Nat) :
    s.boundaryMovers d = s :=
  each_fixed fun _ hm => if_neg fun registered => by simp [ldgMbud_unlisted h hm] at registered

theorem startMovers_unregistered {s : State} (h : ∀ e ∈ s.regs, e.1 < 0x1100 ∨ 0x1180 ≤ e.1) (d : Nat) :
    s.startMovers d = s :=
  each_fixed fun _ hm => if_neg fun registered => by simp [ldgMbud_unlisted h hm] at registered

/-- RUN at a boundary of D0, with PERIOD 2,000. Pin 0 belongs to core 0 and latches on D0; an earlier cycle wrote EN of its slot 0,
whose user is the private port, and the pin has no user yet. -/
def slotWaits : State :=
  { State.reset with
    mode := .run, cycle := 1,
    regs := [((Reg.swdCtl 0).off, 1), ((Reg.swdPeriod 0).off, 2000), ((Reg.hdgCfg 0).off, 0), ((Reg.hdgSlot 0 0).off, 0x8000)],
    held := [((Reg.hdgSlot 0 0).off, some ⟨0, none, 0⟩)] }

theorem slotWaits_boundary_user : ((slotWaits.boundary 0).pin 0).user = some (0, 0) := by
  unfold State.boundary
  dsimp only
  rw [boundaryMovers_unregistered (by decide), if_neg (by decide), startMovers_unregistered (by decide)]
  decide

/-- Refutes O38: the boundary brings the slot enables of its domain's pins into force, and a pin takes its new user (R303, R304),
though the claim says that no pin changes. -/
theorem not_boundariesBeginSwaths : ¬ Obligations.BoundariesBeginSwaths := by
  intro h
  obtain ⟨-, taken, -⟩ := h
  obtain ⟨t, he, -, -, -, -, -, -, -, -, -, -, -, -, -, -, -, pins, -⟩ := taken 0 slotWaits (by decide) (by decide)
  rw [swathBoundary_due (by decide), Host.Outcome.next.injEq] at he
  have kept : t.pin 0 = slotWaits.pin 0 := by unfold State.pin; rw [pins]
  have user : (t.pin 0).user = some (0, 0) := he ▸ slotWaits_boundary_user
  rw [kept] at user
  exact absurd user (by decide)

/-! ### A late thread and its sheaves -/

/-- The part of a thread that its swath began one cycle ago. -/
def partOfD0 : Part := ⟨0, 0, 0, false, false, 0, false⟩

/-- An OPEN generation that thread 0 has joined. -/
def joinedByThread0 : Ctx := { Ctx.reset with st := .opened, joined := 1, members := [0] }

/-- RUN in cycle 1 of a swath of D0, with thread 0 at its BUDGET of 1 cycle and a member of contexts 0 and 512, though the block has
256 contexts: SHF_CTX of context 512 would stand at the offset of SHF_CRES of context 0. -/
def joinsContext512 : State :=
  { State.reset with
    mode := .run, cycle := 1,
    regs := [((Reg.ldgTbud 0).off, 0x80000001)],
    ctxs := [(0, joinedByThread0), (512, joinedByThread0)],
    threads := [(0, { Thread.reset with st := .ready, part := some partOfD0 })] }

/-- The outcome that the abort of context 0 records reads as the mark of a fault sheaf in context 512, which therefore stays. -/
theorem joinsContext512_late_ctx : ((joinsContext512.checkThread 0 partOfD0 0).ctx 512).st = .opened := by decide

/-- Refutes O39: LATE aborts the thread's sheaves one after another, and the abort of context 0 turns context 512 into a fault sheaf
before its turn, though the claim says that every sheaf of the domain aborts: it lacks the hypothesis that the context is one of the
256 that the block has. -/
theorem not_theLedgerReportsLateMembers : ¬ Obligations.TheLedgerReportsLateMembers := by
  intro h
  obtain ⟨-, late, -⟩ := h
  obtain ⟨t, he, -, -, -, -, -, -, -, aborts, -⟩ := late 0 partOfD0 joinsContext512 (by decide) (by decide) (by decide)
    (by decide) (by decide) (by decide) (by decide) (.inl (by decide))
  rw [budgetExpiry_due (p := partOfD0) (by decide), Host.Outcome.next.injEq] at he
  have aborted : (t.ctx 512).st = .aborted := aborts 512 (by decide) (by decide) (by decide) (.inl (by decide))
  have opened : (t.ctx 512).st = .opened := he ▸ joinsContext512_late_ctx
  rw [opened] at aborted
  cases aborted

end Sys2Proof.Proofs
end

section
/-! SUPPORT. Two claims that fail only on states that no run reaches: an initialisation that ends while the mode is RUN, and a
posted write that carries a byte into the Gleaner's shadow. -/
namespace Sys2Proof.Proofs
open Sys2Proof.Machine Sys2Proof.Laws

/-- RUN with the slot pointer at 5, though the kind of OFF is that of a power-on initialisation. -/
def initialisingInRun : State := { State.reset with mode := .run, off := .initCold, sptr := 5 }

/-- Refutes O32: INIT_COMPLETE looks at the kind of OFF and not at the mode, so that it also sets the slot pointer to 0 in a state that
is initialising and in RUN: the claim lacks the hypothesis that the two agree (`Legal.off`). -/
theorem not_slotPointersAdvanceEveryCycle : ¬ Obligations.SlotPointersAdvanceEveryCycle := by
  intro h
  obtain ⟨-, -, moves, -⟩ := h
  have ended : exec .initComplete initialisingInRun = .next (afterInit initialisingInRun) := rfl
  rcases moves _ _ _ ended with kept | ⟨-, off | off | cmd | cmd⟩
  · exact absurd kept (by decide)
  · exact absurd off (by decide)
  · exact absurd off (by decide)
  · cases cmd
  · cases cmd

/-- What a command leaves of the state, read by `f`; `f s` where it answers none. -/
def readAfter {α : Type} (f : State → α) (c : Instr) (s : State) : α :=
  match exec c s with
  | .next t => f t
  | _ => f s

theorem readAfter_of_next {α : Type} (f : State → α) {c : Instr} {s t : State} (h : exec c s = .next t) :
    readAfter f c s = f t := by
  unfold readAfter
  rw [h]

/-- The Gleaner restores the window from 0 on, which its shadow serves; a posted write of core 0 that is due carries the byte 1 to
the first byte of that shadow. -/
def postedIntoShadow : State :=
  { State.reset with
    gleaner := { Gleaner.reset with ph := .restore },
    posted := [⟨0, 0, 0, 0, false, 0, [(gshadowKey 0, 1)], none⟩] }

/-- Refutes O45: a byte posted to the Gleaner's shadow is read at the offset that the shadow serves, which the write does not carry:
the claim lacks the hypothesis that a posted write carries bytes of the memories alone. -/
theorem not_storesReachMemoryInOrder : ¬ Obligations.StoresReachMemoryInOrder := by
  intro h
  obtain ⟨-, performed, -⟩ := h
  obtain ⟨t, he, -, -, kept⟩ := performed 0 postedIntoShadow (by unfold WindowFits; decide)
  have read : readAfter (·.byteAt 0) (.postedWritePerform 0) postedIntoShadow = 1 := by decide
  rw [readAfter_of_next _ he, kept 0 (by decide) (by decide)] at read
  exact absurd read (by decide)

end Sys2Proof.Proofs
end

section
/-! SUPPORT. Two claims about the faults of thread instructions that fail: the error that a process-image write meets in filling its
line also aborts the sheaf (R224), and RETE reads its words after its operands, of which it has none (R78). -/
namespace Sys2Proof.Proofs
open Sys2Proof.Machine Sys2Proof.Laws

/-- The thread's issue of an opcode begins, and `p` holds of it. -/
def begins (s : State) (g op : Nat) (p : Issue → Bool) : Bool :=
  match s.begin g op with
  | .go x => p x
  | _ => false

theorem begins_go {s : State} {g op : Nat} {p : Issue → Bool} (h : begins s g op p = true) :
    ∃ x, s.begin g op = .go x ∧ p x = true := by
  unfold begins at h
  split at h
  · exact ⟨_, ‹_›, h⟩
  · cases h

/-- The operands of an issue end in a fault. -/
def operandsFault (x : Issue) (g : Nat) : Bool :=
  match x.gather g with
  | .error (.fault _ _ _) => true
  | _ => false

theorem operandsFault_stop {x : Issue} {g : Nat} (h : operandsFault x g = true) :
    ∃ code db s, x.gather g = .error (.fault code db s) := by
  unfold operandsFault at h
  split at h
  · exact ⟨_, _, _, ‹_›⟩
  · cases h

/-- An instruction has no operands that could stop it. -/
def operandsOwn (x : Issue) (g : Nat) : Bool :=
  match x.gather g with
  | .ok y => (List.zip x.r.opds y.ps).all fun e => Place.own e.2 e.1.use.writes
  | .error _ => false

theorem operandsOwn_ok {x : Issue} {g : Nat} (h : operandsOwn x g = true) : ∃ y, x.gather g = .ok y ∧ OwnPlaces x y := by
  unfold operandsOwn at h
  split at h
  · exact ⟨_, ‹_›, h⟩
  · cases h

/-- RUN in a slot of thread 0, which is READY with the context `t`, on a core that does not doze. -/
def thread0Issues (t : Thread) : State :=
  { State.reset with
    mode := .run, regs := [((Reg.coreSlot 0 0).off, 0)], cores := [(0, { Core.reset with dz := 0 })],
    threads := [(0, { t with st := .ready })] }

/-- The instruction MOV of 4 bytes from an immediate to the start of the process image, in code RAM at 0; the thread is a member of
context 0, which is OPEN and holds no line yet, and the first granule of the live image holds an uncorrectable error. -/
def movFillsBadLine : State :=
  { thread0Issues { Thread.reset with mem := some (0, 1) } with
    ram := [(1, 0x80), (2, 0x0C), (7, 0x40), (11, 0x50)], ecc := [(piKey false 0, .bad)],
    ctxs := [(0, { Ctx.reset with st := .opened, uid := 1, joined := 1, members := [0] })] }

/-- Refutes O15: a process-image write whose line cannot be filled ends in ECC_UE, and the generation aborts at once (R224), though the
claim says that the contexts are as they were when the issue began. -/
theorem not_threadFaultsAreRecordedAndHaveNoEffect : ¬ Obligations.ThreadFaultsAreRecordedAndHaveNoEffect := by
  intro h
  obtain ⟨x, begun, hx⟩ := begins_go (s := movFillsBadLine) (g := 0) (op := 0x001)
    (p := fun x => x.holds 0 && operandsFault x 0 && decide (x.s.ctxs = movFillsBadLine.ctxs)) (by decide +kernel)
  simp only [Bool.and_eq_true, decide_eq_true_eq] at hx
  obtain ⟨⟨holds, faults⟩, opened⟩ := hx
  obtain ⟨code, db, s', stops⟩ := operandsFault_stop faults
  obtain ⟨t, he, -, -, -, -, -, -, -, -, -, -, -, -, -, -, ctxs, -⟩ :=
    h (.mov, 0x001) 0 movFillsBadLine s' x code db (by simp [threadOps]) begun holds stops (.inl (by decide))
  have aborted : readAfter (fun u => decide (u.ctxs = movFillsBadLine.ctxs)) (.mov 0) movFillsBadLine = false := by
    decide +kernel
  rw [readAfter_of_next _ he, ctxs, opened] at aborted
  exact absurd aborted (by decide)

/-- The instruction RETE in code RAM at 0; the word of its window that holds the PC to return to has an uncorrectable error. -/
def reteMeetsError : State :=
  { thread0Issues .reset with ram := [(2, 0x20), (3, 0x08)], ecc := [(nearKey 0 0, .bad)] }

/-- Refutes O16: RETE has no operand that could stop its issue, and yet it faults where a word that it returns to cannot be read (R191),
and the fault is reported, though the claim says that every such issue leaves the reports as they are. -/
theorem not_ownInstructionsWriteOnlyTheirOperands : ¬ Obligations.OwnInstructionsWriteOnlyTheirOperands := by
  intro h
  obtain ⟨x, begun, hx⟩ := begins_go (s := reteMeetsError) (g := 0) (op := 0x104)
    (p := fun x => x.holds 0 && operandsOwn x 0) (by decide)
  simp only [Bool.and_eq_true] at hx
  obtain ⟨holds, own⟩ := hx
  obtain ⟨y, gathered, places⟩ := operandsOwn_ok own
  obtain ⟨t, he, frame, -⟩ := h.1 (.rete, 0x104) 0 reteMeetsError x y (by simp [ownOps, threadOps]) ⟨begun, holds, gathered⟩ places
    (by unfold WindowFits; decide) (by decide)
  have reported : readAfter (fun u => u.reports.length) (.rete 0) reteMeetsError = 1 := by decide
  have unreported : t.reports = reteMeetsError.reports := by rw [frame]
  rw [readAfter_of_next _ he, unreported] at reported
  exact absurd reported (by decide)

end Sys2Proof.Proofs
end

section
/-! SUPPORT. The driver of thread instructions: that every one of them issues through it, how an issue of it ends, what its beginning
establishes, and what the note of an issue changes (R56, R110). -/
namespace Sys2Proof.Proofs
open Sys2Proof.Machine Sys2Proof.Laws

/-! ### One issue -/

/-- Every thread instruction is one issue of its opcode, with a body of its own. -/
theorem threadOps_issue : ∀ p ∈ threadOps, ∀ (g : Tid) (s : State), ∃ body, exec (p.1 g) s = .next (s.instr g.toNat p.2 body) := by
  simp only [threadOps, List.forall_mem_append, List.forall_mem_cons, List.not_mem_nil, false_implies, implies_true, and_true]
  repeat' apply And.intro
  all_goals exact fun g s => ⟨_, rfl⟩

section
variable {s : State} {g op : Nat} {x : Issue} {body : In → State → Except Stop Act}

theorem instr_no (h : s.begin g op = .no) : s.instr g op body = s := by simp only [State.instr, h]

theorem instr_bad {t : State} (h : s.begin g op = .bad t) : s.instr g op body = t := by simp only [State.instr, h]

theorem instr_false (h : s.begin g op = .go x) (hc : x.holds g = false) :
    s.instr g op body = x.close g (x.s.pass g x.h x.r x.ws) := by
  simp only [State.instr, h, hc, Bool.false_eq_true, if_false]

theorem instr_stops {e : Stop} (h : s.begin g op = .go x) (hc : x.holds g = true) (he : x.gather g = .error e) :
    s.instr g op body = x.stop g s e := by
  simp only [State.instr, h, hc, he, if_true]

theorem instr_done {y : Gathered} {a : Act} (h : Runs s g op x y) (ha : body y.c y.s = .ok a) : s.instr g op body = Done x g y a := by
  obtain ⟨begun, holds, gathered⟩ := h
  simp only [State.instr, begun, holds, gathered, ha, if_true, Done]

/-- The words of an issue that goes on: its opcode has a row, which it fits (R84). -/
theorem begin_go_row (h : s.begin g op = .go x) : x.h.op = op ∧ x.h.row = some x.r := by
  unfold State.begin at h
  dsimp only at h
  split at h
  · cases h
  split at h
  · cases h
  · cases h
  · cases h
  · split at h
    · cases h
    · rename_i hd ws _ other
      split at h
      · cases h
      · rename_i r row
        split at h
        · cases h
        · cases h
          refine ⟨?_, row⟩
          by_contra differs
          refine other ⟨differs, ?_⟩
          unfold Head.row at row
          split at row
          · cases row
          · rename_i found
            rw [found]
            rfl

theorem row_fits {h : Head} {r : OpRow} (hr : h.row = some r) :
    rowOf h.op = some r ∧ h.sz ∈ r.szs ∧ xfOk r.xf h.sz h.xf = true := by
  unfold Head.row at hr
  split at hr
  · cases hr
  · rename_i found
    split at hr
    · rename_i fits
      cases hr
      exact ⟨found, fits.2.1, fits.2.2.2⟩
    · cases hr

/-- The row of an issue is that of its opcode. -/
theorem begin_go_rowOf (h : s.begin g op = .go x) : rowOf op = some x.r := by
  obtain ⟨hop, row⟩ := begin_go_row h
  exact hop ▸ (row_fits row).1

/-- What a body sees of an issue (R110). -/
theorem gather_sees {y : Gathered} (h : x.gather g = .ok y) :
    ∃ u wk ps, y.c = ⟨g, x.h, (x.s.thr g).pc, (x.s.thr g).pc + BitVec.ofNat 32 (4 * (1 + x.h.n)), Flags.of (x.s.thr g).flg,
      (State.values u g x.h wk x.r.opds ps).2, x.ws⟩ := by
  unfold Issue.gather at h
  dsimp only at h
  split at h
  · cases h
  · cases h
    exact ⟨_, _, _, rfl⟩

end

/-- An instruction performs its effect if its body answers it wherever the issue runs. -/
theorem performs_of_body {cmd : Tid → Instr} {op : Nat} {f : In → State → Act} (body : In → State → Except Stop Act)
    (hc : ∀ g s, exec (cmd g) s = .next (s.instr g.toNat op body))
    (hb : ∀ g s x y, Runs s g op x y → body y.c y.s = .ok (f y.c y.s)) : Performs cmd op f := by
  intro g s x y h
  rw [hc, instr_done h (hb _ _ _ _ h)]

/-! ### Registers beside those named -/

/-- Only registers differ, and of these only those of a list. -/
structure OnlyRegs (l : List Reg) (s t : State) : Prop where
  frame : ∃ regs, t = { s with regs := regs }
  regs : RegsBut l s t

theorem OnlyRegs.refl (l : List Reg) (s : State) : OnlyRegs l s s := ⟨⟨s.regs, rfl⟩, fun _ _ => rfl⟩

theorem OnlyRegs.trans {l : List Reg} {s t u : State} (h : OnlyRegs l s t) (k : OnlyRegs l t u) : OnlyRegs l s u := by
  refine ⟨?_, fun r hr => (k.regs r hr).trans (h.regs r hr)⟩
  obtain ⟨x, ht⟩ := h.frame
  obtain ⟨y, hu⟩ := k.frame
  exact ⟨y, by rw [hu, ht]⟩

theorem OnlyRegs.ite {l : List Reg} {p : Prop} [Decidable p] {s a b : State} (ha : OnlyRegs l s a) (hb : OnlyRegs l s b) :
    OnlyRegs l s (if p then a else b) := by
  split
  · exact ha
  · exact hb

theorem setReg_onlyRegs {l : List Reg} (s : State) {r : Reg} (hr : r ∈ l) (v : Word) : OnlyRegs l s (s.setReg r v) :=
  ⟨⟨_, rfl⟩, fun _ hx => setReg_reg_other s v fun e => hx (e ▸ List.mem_map_of_mem hr)⟩

/-! ### The note of an issue -/

section
variable (s : State) (g : Nat) (spill : Bool) (l : Nat)

/-- The registers that the note of an issue may change. -/
def countRegs : List Reg := [.coreTissue (coreOf g) (locOf g), .coreSpillcnt (coreOf g), .pwrDzstat (coreOf g)]

/-- The counts of an issue: CORE_TISSUE, and where they apply CORE_SPILLCNT and the delayed issues of PWR_DZSTAT. -/
def countIssue : State :=
  let s1 := s.bump (thrReg .coreTissue g) 1
  let s2 := if spill then s1.bump (.coreSpillcnt (coreOf g)) 1 else s1
  if g ∈ (s.core (coreOf g)).delayed then s2.bumpRf (.pwrDzstat (coreOf g)) 15 0 1 else s2

theorem countIssue_onlyRegs : OnlyRegs (countRegs g) s (countIssue s g spill) := by
  have issues : OnlyRegs (countRegs g) s (s.bump (thrReg .coreTissue g) 1) := setReg_onlyRegs s (by simp [countRegs, thrReg]) _
  have spills : OnlyRegs (countRegs g) s
      (if spill then (s.bump (thrReg .coreTissue g) 1).bump (.coreSpillcnt (coreOf g)) 1 else s.bump (thrReg .coreTissue g) 1) :=
    .ite (issues.trans (setReg_onlyRegs _ (by simp [countRegs]) _)) issues
  exact .ite (spills.trans (setReg_onlyRegs _ (by simp [countRegs]) _)) spills

/-- The note of an issue is its counts, and what the core and the thread keep of it. -/
theorem noteIssue_eq : ∃ c, s.noteIssue g spill l = ((countIssue s g spill).setCore (coreOf g) c).setThr g
    { s.thr g with next := s.cycle + l, skipBp := false } := by
  obtain ⟨regs, frame⟩ := (countIssue_onlyRegs s g spill).frame
  have cycle : (countIssue s g spill).cycle = s.cycle := by rw [frame]
  have thr : (countIssue s g spill).thr g = s.thr g := by rw [frame]; rfl
  rw [← cycle, ← thr]
  exact ⟨_, rfl⟩

/-- What the note of an issue changes. -/
theorem noteIssue_spec :
    CoresDiffer s (s.noteIssue g spill l) ∧
    (∀ j, (s.noteIssue g spill l).thr j = if j = g then { s.thr g with next := s.cycle + l, skipBp := false } else s.thr j) ∧
    OnlyAt (coreOf g) s.core (s.noteIssue g spill l).core ∧ RegsBut (countRegs g) s (s.noteIssue g spill l) := by
  obtain ⟨c, e⟩ := noteIssue_eq s g spill l
  obtain ⟨⟨regs, frame⟩, others⟩ := countIssue_onlyRegs s g spill
  rw [e]
  refine ⟨?_, fun j => ?_, fun j hj => ?_, fun r hr => others r hr⟩
  · rw [frame]
    exact ⟨_, _, _, rfl⟩
  · rw [setThr_thr, frame]
    rfl
  · rw [frame]
    exact (setCore_core _ _ _ _).trans (if_neg hj)

/-- A thread whose record changes in an issue that is then noted. -/
theorem noteIssue_moved (th : Thread) :
    let t := (s.setThr g th).noteIssue g spill l
    t = { s with threads := t.threads, cores := t.cores, regs := t.regs } ∧
    t.thr g = { th with next := s.cycle + l, skipBp := false } ∧ OnlyAt g s.thr t.thr ∧ OnlyAt (coreOf g) s.core t.core ∧
    RegsBut (countRegs g) s t := by
  obtain ⟨frame, threads, cores, regs⟩ := noteIssue_spec (s.setThr g th) g spill l
  obtain ⟨a, b, c, e⟩ := frame
  refine ⟨?_, ?_, fun j hj => ?_, cores, regs⟩
  · rw [e]
    rfl
  · rw [threads, if_pos rfl, setThr_self]
    rfl
  · rw [threads, if_neg hj]
    exact setThr_onlyAt s g th j hj

end

/-! ### Latencies -/

/-- Every figure of a base latency takes at least one cycle. -/
def lasts : Machine.Lat → Bool
  | .fix n => decide (0 < n)
  | .fp a b => decide (0 < a) && decide (0 < b)
  | _ => true

theorem opRows_last : opRows.all (fun r => lasts r.lat) = true := by decide

theorem divLat_pos (w : Nat) (sgn : Bool) (a b : Nat) : 0 < divLat w sgn a b := by
  unfold divLat
  dsimp only
  repeat' split
  all_goals omega

theorem latOf_pos {l : Machine.Lat} (h : lasts l = true) (hd : Head) (ct : Bool) (vals : Option (List Nat)) : 0 < latOf hd l ct vals := by
  cases l with
  | fix n => exact of_decide_eq_true h
  | fp a b =>
    obtain ⟨ha, hb⟩ : 0 < a ∧ 0 < b := by simpa [lasts] using h
    simp only [latOf]
    split <;> assumption
  | glob => dsimp only [latOf]; split <;> omega
  | div =>
    dsimp only [latOf]
    split
    · exact divLat_pos _ _ _ _
    · omega
  | fdiv => dsimp only [latOf]; repeat' split
            all_goals omega
  | fsqrt => dsimp only [latOf]; repeat' split
             all_goals omega

theorem pass_lasts {s t : State} {g op : Nat} {x : Issue} (h : s.begin g op = .go x) : 0 < (t.pass g x.h x.r x.ws).2 := by
  have row : x.r ∈ opRows := List.mem_of_find?_eq_some (begin_go_rowOf h)
  have lasts := List.all_eq_true.mp opRows_last _ row
  exact Nat.add_pos_left (Nat.add_pos_left (latOf_pos lasts _ _ _) _) _

/-! ### Issues that do not run -/

theorem begin_unissued {s : State} {g op : Nat} (hl : s.issuer (coreOf g) ≠ some (g, false)) (hr : s.issuer (coreOf g) ≠ some (g, true))
    (hd : (s.thr g).div = none) : s.begin g op = .no := by
  have other : s.issues g = false := by
    unfold State.issues
    cases hi : s.issuer (coreOf g) with
    | none => rfl
    | some e =>
      obtain ⟨t, b⟩ := e
      have ht : t ≠ g := by
        rintro rfl
        cases b
        · exact hl hi
        · exact hr hi
      simp [ht]
  unfold State.begin
  simp [finishDiv_none hd, other]

/-- The end of an issue alone and outside a STEP is its note. -/
theorem close_alone {x : Issue} {g : Nat} (hs : x.step = false) (hp : x.s.pairWith g x.h = none) (r : State × Nat) :
    x.close g r = r.1.noteIssue g x.spill r.2 := by
  simp [Issue.close, State.endStep, hp, hs]

/-- The thread as a false condition moves it: on to the next instruction in sequence (R90, R128). -/
def passed (x : Issue) (g : Nat) : Thread :=
  endCheck (fld (x.s.tcbNow g) 11 8) ((x.s.thr g).pc + BitVec.ofNat 32 (4 * (1 + x.h.n))) [3, 2, 1, 0] (x.s.thr g)

theorem pass_moves (x : Issue) (g : Nat) : (x.s.pass g x.h x.r x.ws).1 = x.s.setThr g (passed x g) := rfl

/-- A false condition moves the thread to the next instruction, notes the issue and does nothing else (R90). -/
theorem close_pass {s : State} {g op : Nat} {x : Issue} (h : s.begin g op = .go x) (hs : x.step = false)
    (hp : x.s.pairWith g x.h = none) :
    let t := x.close g (x.s.pass g x.h x.r x.ws)
    t = { x.s with threads := t.threads, cores := t.cores, regs := t.regs } ∧
    t.thr g = { passed x g with next := (t.thr g).next, skipBp := false } ∧
    x.s.cycle < (t.thr g).next ∧ OnlyAt g x.s.thr t.thr ∧ OnlyAt (coreOf g) x.s.core t.core ∧ RegsBut (countRegs g) x.s t := by
  have lasts := pass_lasts (t := x.s) h
  rw [close_alone hs hp, pass_moves]
  obtain ⟨frame, thread, others, cores, regs⟩ := noteIssue_moved x.s g x.spill (x.s.pass g x.h x.r x.ws).2 (passed x g)
  refine ⟨frame, ?_, ?_, others, cores, regs⟩
  · rw [thread]
  · rw [thread]
    exact Nat.lt_add_of_pos_right lasts

/-- Settles O14: every thread instruction is an issue through the driver (`threadOps_issue`), which ends in one of its four ways. -/
theorem threadCommandsActOnTheirIssueOnly : Obligations.ThreadCommandsActOnTheirIssueOnly := by
  refine ⟨fun p g s hp h => ?_, fun p g s t hp h => ?_, fun p g s x hp h hc => ?_, fun p g s x e hp h hc he => ?_,
    fun _ _ _ hl hr hd => begin_unissued hl hr hd, fun p g s x hp h hc hs hw => ?_⟩
  all_goals obtain ⟨body, issue⟩ := threadOps_issue p hp g s
  · exact issue.trans (congrArg _ (instr_no h))
  · exact issue.trans (congrArg _ (instr_bad h))
  · exact issue.trans (congrArg _ (instr_false h hc))
  · exact issue.trans (congrArg _ (instr_stops h hc he))
  · exact ⟨_, issue.trans (congrArg _ (instr_false h hc)), close_pass h hs hw⟩

end Sys2Proof.Proofs
end

section
/-! SUPPORT. The arithmetic of the instructions as words: the model's results and flags of sums and integers, as bit vectors of the
operand's width (R88), and the values that a body sees, each of its operand's width. -/
namespace Sys2Proof.Proofs
open Sys2Proof.Machine Sys2Proof.Laws

/-! ### Integers modulo a width -/

theorem ofInt_sub (w : Nat) (a b : Int) : BitVec.ofInt w (a - b) = BitVec.ofInt w a - BitVec.ofInt w b := by
  rw [Int.sub_eq_add_neg, BitVec.ofInt_add, BitVec.ofInt_neg, BitVec.sub_eq_add_neg]

theorem wrap_eq_toNat (w : Nat) (i : Int) : wrap w i = (BitVec.ofInt w i).toNat := (BitVec.toNat_ofInt i).symm

theorem signed_eq_toInt {w : Nat} (hw : 0 < w) (v : Nat) : signed w v = (BitVec.ofNat w v).toInt := by
  have twice : 2 ^ w = 2 * 2 ^ (w - 1) := by rw [← Nat.pow_succ', Nat.succ_eq_add_one, Nat.sub_add_cancel hw]
  unfold signed
  rw [BitVec.toInt_eq_toNat_cond, BitVec.toNat_ofNat]
  dsimp only
  exact if_congr (by omega) rfl rfl

/-- An integer fits the signed range exactly when its word reads as it (R88). -/
theorem fitsS_iff {w : Nat} (hw : 0 < w) (i : Int) : fitsS w i = true ↔ (BitVec.ofInt w i).toInt = i := by
  have twice : (2 ^ w : Int) = 2 * 2 ^ (w - 1) := by
    rw [← pow_succ', Nat.sub_add_cancel hw]
  have half : (((2 ^ w : Nat) : Int) + 1) / 2 = 2 ^ (w - 1) := by push_cast; omega
  have whole : ((2 ^ w : Nat) : Int) / 2 = 2 ^ (w - 1) := by push_cast; omega
  simp only [fitsS, Bool.and_eq_true, decide_eq_true_eq]
  constructor
  · rintro ⟨low, high⟩
    rw [BitVec.toInt_ofInt]
    push_cast at low high
    exact Int.bmod_eq_of_le (by rw [whole]; exact low) (by rw [half]; exact high)
  · intro reads
    have low := BitVec.le_toInt (BitVec.ofInt w i)
    have high := BitVec.toInt_lt (x := BitVec.ofInt w i)
    rw [reads] at low high
    push_cast
    exact ⟨low, high⟩

/-! ### Flags (R88) -/

theorem nz_toNat {w : Nat} (f : Flags) (r : BitVec w) : f.nz w r.toNat = signFlags f r := by
  have zero : (r.toNat % 2 ^ w == 0) = (r == 0#w) := by
    rw [Nat.mod_eq_of_lt r.isLt, Bool.eq_iff_iff, beq_iff_eq, beq_iff_eq, ← BitVec.toNat_inj, BitVec.toNat_ofNat, Nat.zero_mod]
  unfold Flags.nz signFlags
  rw [zero, BitVec.msb_eq_getLsbD_last]
  rfl

theorem decide_ne_toInt {w : Nat} (hw : 0 < w) (i : Int) : (!fitsS w i) = decide ((BitVec.ofInt w i).toInt ≠ i) := by
  rw [Bool.eq_iff_iff, Bool.not_eq_true', Bool.eq_false_iff, ne_eq, fitsS_iff hw, decide_eq_true_eq]

/-- A difference and its flags, as words of the operands' width. -/
theorem subRes_eq {w a b : Nat} (hw : 0 < w) (ha : a < 2 ^ w) (hb : b < 2 ^ w) (f : Flags) (bin : Nat) :
    subRes w f a b bin = ⟨(BitVec.ofNat w a - BitVec.ofNat w b - BitVec.ofNat w bin).toNat,
      diffFlags f (BitVec.ofNat w a) (BitVec.ofNat w b) bin⟩ := by
  have result : BitVec.ofInt w ((a : Int) - b - bin) = BitVec.ofNat w a - BitVec.ofNat w b - BitVec.ofNat w bin := by
    simp only [ofInt_sub, BitVec.ofInt_natCast]
  have exact_ : BitVec.ofInt w ((BitVec.ofNat w a).toInt - (BitVec.ofNat w b).toInt - bin) =
      BitVec.ofNat w a - BitVec.ofNat w b - BitVec.ofNat w bin := by
    simp only [ofInt_sub, BitVec.ofInt_natCast, BitVec.ofInt_toInt]
  unfold subRes diffFlags withV
  dsimp only
  rw [wrap_eq_toNat, result, nz_toNat, signed_eq_toInt hw, signed_eq_toInt hw, decide_ne_toInt hw, exact_, BitVec.toNat_ofNat,
    BitVec.toNat_ofNat, Nat.mod_eq_of_lt ha, Nat.mod_eq_of_lt hb]

/-! ### The values that a body sees -/

theorem foldl_bits_lt (b : Nat → Bool) (n : Nat) : (upto n).foldl (fun m i => m + b2n (b i) * 2 ^ i) 0 < 2 ^ n := by
  unfold upto
  induction n with
  | zero => exact Nat.one_pos
  | succ n ih =>
    have one : b2n (b n) ≤ 1 := by cases b n <;> decide
    have top : b2n (b n) * 2 ^ n ≤ 1 * 2 ^ n := Nat.mul_le_mul_right _ one
    rw [List.range_succ, List.foldl_append, Nat.pow_succ]
    simp only [List.foldl_cons, List.foldl_nil]
    omega

theorem value_lt (s : State) (g bits : Nat) {u : Use} (wk : Wk) (p : Place) (hu : u ≠ .addr) :
    (s.value g bits u wk p).2 < 2 ^ bits := by
  have pos : 0 < 2 ^ bits := Nat.two_pow_pos bits
  unfold State.value
  dsimp only
  rw [if_neg hu]
  cases p with
  | pin sub q => exact foldl_bits_lt _ bits
  | port q n =>
    dsimp only
    split
    · exact Nat.mod_lt _ pos
    · exact pos
  | _ => exact Nat.mod_lt _ pos

/-- The value of an operand fits its width; that of a pure destination is 0. -/
theorem values_lt {g : Nat} {h : Head} {wk : Wk} {os : List Opd} {ps : List Place} {o : Opd} {i : Nat} (s : State) (ho : os[i]? = some o)
    (hu : o.use ≠ .addr) : (s.values g h wk os ps).2.getD i 0 < 2 ^ h.bits o.wid := by
  induction os generalizing s ps i with
  | nil => cases ho
  | cons d os ih =>
    cases ps with
    | nil => exact Nat.two_pow_pos _
    | cons p ps =>
      unfold State.values
      dsimp only
      cases i with
      | zero =>
        cases ho
        split
        · exact Nat.two_pow_pos _
        · exact value_lt s g _ wk p hu
      | succ i => split <;> exact ih _ ho

/-- A source or target at operand `i` of the row is seen with its width. -/
theorem sees_lt {s : State} {g op : Nat} {x : Issue} {y : Gathered} {o : Opd} {i : Nat} (h : Runs s g op x y)
    (ho : x.r.opds[i]? = some o) (hu : o.use ≠ .addr) : y.c.v i < 2 ^ x.h.bits o.wid := by
  obtain ⟨u, wk, ps, sees⟩ := gather_sees h.2.2
  rw [In.v, sees]
  exact values_lt u ho hu

/-- SZ of an issue is one of those that its row lists, and it is the width that the body sees. -/
theorem sees_size {s : State} {g op : Nat} {x : Issue} {y : Gathered} (h : Runs s g op x y) : y.c.h = x.h ∧ y.c.g = g ∧ x.h.sz ∈ x.r.szs := by
  obtain ⟨u, wk, ps, sees⟩ := gather_sees h.2.2
  rw [sees]
  exact ⟨rfl, rfl, (row_fits (begin_go_row h.1).2).2.1⟩

theorem szBits_pos (sz : Nat) : 0 < szBits sz := by
  unfold szBits
  rw [Nat.shiftLeft_eq]
  exact Nat.mul_pos (by omega) (Nat.two_pow_pos sz)

/-- An operand of width SZ, where SZ is an integer size, has the bits of SZ. -/
theorem bits_sz {h : Head} (hsz : h.sz ∈ szAny) : h.bits .sz = szBits h.sz := by
  have integer : h.sz ≠ 4 := by
    rintro four
    rw [four] at hsz
    exact absurd hsz (by decide)
  exact if_neg integer

/-- A source of width SZ is seen with the bits of SZ. -/
theorem sees_sz {s : State} {g op : Nat} {x : Issue} {y : Gathered} {o : Opd} {i : Nat} (h : Runs s g op x y) (hr : x.r.szs = szAny)
    (ho : x.r.opds[i]? = some o) (hu : o.use ≠ .addr) (hw : o.wid = .sz) : y.c.v i < 2 ^ y.c.w := by
  obtain ⟨head, -, size⟩ := sees_size h
  rw [In.w, head, ← bits_sz (hr ▸ size), ← hw]
  exact sees_lt h ho hu

/-- A bit of a value that fits its width is that bit of its word. -/
theorem testBit_arg {c : In} {i : Nat} (h : c.v i < 2 ^ c.w) (b : Nat) : (c.v i).testBit b = (arg c i).getLsbD b := by
  rw [arg, BitVec.getLsbD_ofNat]
  by_cases hb : b < c.w
  · rw [decide_eq_true hb, Bool.true_and]
  · rw [decide_eq_false hb, Bool.false_and]
    exact Nat.testBit_lt_two_pow (h.trans_le (Nat.pow_le_pow_right (by omega) (by omega)))

end Sys2Proof.Proofs
end

section
/-! SUPPORT. Branches, calls, returns and hardware loops (Table 37): the targets, and each row's effect. -/
namespace Sys2Proof.Proofs
open Sys2Proof.Machine Sys2Proof.Laws

/-! ### Targets -/

theorem target_ahead (pc : Word) (i : Int) : BitVec.ofInt 32 (pc.toNat + i) = pc + BitVec.ofInt 32 i := by
  rw [BitVec.ofInt_add, BitVec.ofInt_natCast, BitVec.ofNat_toNat, BitVec.setWidth_eq]

theorem targetRel_eq (c : In) (i : Nat) : c.targetRel i = Sys2Proof.relTarget c i := by
  have payload : BitVec.ofNat 27 (fld (c.words.getD i 0) 26 0) = (c.words.getD i 0).setWidth 27 := by
    apply BitVec.eq_of_toNat_eq
    simp [fld, natFld]
  unfold In.targetRel relTarget
  rw [target_ahead, signed_eq_toInt (by omega), payload, BitVec.ofInt_mul]
  rfl

theorem jump_unless {p : Prop} [Decidable p] {b : Bool} (h : b = true ↔ ¬ p) (a : Word) : goIf b a = if p then .seq else .jump a := by
  unfold goIf
  by_cases hp : p
  · rw [if_pos hp, if_neg fun hb => h.mp hb hp]
  · rw [if_neg hp, if_pos (h.mpr hp)]

/-! ### The rows -/

theorem performs_cbr : Performs .cbr 0x108 (fun c s => ⟨s, [], some (diffFlags c.fl (arg c 0) (arg c 1) 0),
    if (diffFlags c.fl (arg c 0) (arg c 1) 0).holds c.h.xf then .jump (relTarget c 2) else .seq, 0⟩) := by
  refine performs_of_body _ (fun _ _ => rfl) fun g s x y h => ?_
  have row : x.r = row1 0x108 szAny s01 .cond [src, src, targetRel] := (Option.some.inj (begin_go_rowOf h.1)).symm
  have fits (i : Nat) (hi : i < 2) : y.c.v i < 2 ^ y.c.w := by
    refine sees_sz (o := src) h (by rw [row]; rfl) ?_ (by decide) rfl
    rw [row]
    match i with
    | 0 => rfl
    | 1 => rfl
  dsimp only
  rw [subRes_eq (w := y.c.w) (szBits_pos _) (fits 0 (by omega)) (fits 1 (by omega)), targetRel_eq]
  rfl

theorem performs_djnz : Performs .djnz 0x109 (fun c s => ⟨s, [out 0 (arg c 0 - 1#c.w).toNat], some (signFlags c.fl (arg c 0 - 1#c.w)),
    if arg c 0 - 1#c.w = 0#c.w then .seq else .jump (relTarget c 1), 0⟩) := by
  refine performs_of_body _ (fun _ _ => rfl) fun g s x y h => ?_
  have less : wrap y.c.w ((y.c.v 0 : Int) - 1) = (arg y.c 0 - 1#y.c.w).toNat := by
    rw [wrap_eq_toNat, ofInt_sub, BitVec.ofInt_natCast]
    rfl
  have ends : ((arg y.c 0 - 1#y.c.w).toNat != 0) = true ↔ ¬ arg y.c 0 - 1#y.c.w = 0#y.c.w := by
    rw [bne_iff_ne, ne_eq, ← BitVec.toNat_inj, BitVec.toNat_ofNat, Nat.zero_mod]
  dsimp only
  rw [less, nz_toNat, targetRel_eq, jump_unless ends]

/-- The bit that BBS and BBC test. -/
theorem tested_bit {s : State} {g op : Nat} {x : Issue} {y : Gathered} (h : Runs s g op x y) (hop : op = 0x10A ∨ op = 0x10B) :
    (y.c.v 0).testBit y.c.h.xf = (arg y.c 0).getLsbD y.c.h.xf := by
  have row : x.r = row1 op szAny s01 .bit [src, targetRel] := by
    rcases hop with rfl | rfl <;> exact (Option.some.inj (begin_go_rowOf h.1)).symm
  exact testBit_arg (sees_sz (o := src) h (by rw [row]; rfl) (by rw [row]; rfl) (by decide) rfl) _

theorem performs_bbs : Performs .bbs 0x10A (fun c s => ⟨s, [], some { c.fl with b := (arg c 0).getLsbD c.h.xf },
    if (arg c 0).getLsbD c.h.xf then .jump (relTarget c 1) else .seq, 0⟩) := by
  refine performs_of_body _ (fun _ _ => rfl) fun g s x y h => ?_
  dsimp only
  rw [tested_bit h (.inl rfl), targetRel_eq]
  rfl

theorem performs_bbc : Performs .bbc 0x10B (fun c s => ⟨s, [], some { c.fl with b := (arg c 0).getLsbD c.h.xf },
    if (arg c 0).getLsbD c.h.xf then .seq else .jump (relTarget c 1), 0⟩) := by
  refine performs_of_body _ (fun _ _ => rfl) fun g s x y h => ?_
  dsimp only
  rw [tested_bit h (.inr rfl), targetRel_eq, jump_unless (p := (arg y.c 0).getLsbD y.c.h.xf = true) (by simp)]

theorem startLoop_eq (s : State) (c : In) (i n : Nat) (le : Word) :
    s.startLoop c i n le =
      ⟨s.setThr c.g ((s.thr c.g).setLoop i ⟨c.nxt, le, BitVec.ofNat 32 n⟩), [], none, if n = 0 then .jump le else .seq, 0⟩ := by
  unfold State.startLoop goIf
  simp only [beq_iff_eq]

/-- RETE that can read both words (R78). -/
theorem rete_returns {g : Tid} {s : State} {x : Issue} {y : Gathered} {w1 w2 : Wk} {pc flg : Nat} (h : Runs s g.toNat 0x104 x y)
    (h1 : y.s.ptrWord g.toNat .start 0 4 = .ok (w1, pc)) (h2 : y.s.ptrWord g.toNat w1 4 4 = .ok (w2, flg)) :
    exec (.rete g) s = .next (Done x g.toNat y (returnsTo (y.s.touchAll w2.reads 1) g.toNat pc flg)) := by
  refine congrArg Host.Outcome.next (instr_done h ?_)
  dsimp only
  rw [(sees_size h).2.1, h1]
  dsimp only
  rw [h2]
  rfl

/-- Settles O5, row by row of Table 37. -/
theorem branchesAndLoopsTransferControl : Obligations.BranchesAndLoopsTransferControl := by
  refine ⟨?_, ?_, ?_, ?_, performs_cbr, performs_djnz, performs_bbs, performs_bbc, ?_, ?_, ?_,
    fun g s x y w1 w2 pc flg h h1 h2 => rete_returns h h1 h2⟩
  · refine performs_of_body _ (fun _ _ => rfl) fun g s x y _ => ?_
    rw [target_ahead]
  · exact performs_of_body _ (fun _ _ => rfl) fun _ _ _ _ _ => rfl
  · exact performs_of_body _ (fun _ _ => rfl) fun _ _ _ _ _ => rfl
  · exact performs_of_body _ (fun _ _ => rfl) fun _ _ _ _ _ => rfl
  · refine performs_of_body _ (fun _ _ => rfl) fun g s x y _ => ?_
    rw [startLoop_eq, targetRel_eq]
  · refine performs_of_body _ (fun _ _ => rfl) fun g s x y _ => ?_
    rw [startLoop_eq, targetRel_eq]
  · exact performs_of_body _ (fun _ _ => rfl) fun _ _ _ _ _ => rfl

end Sys2Proof.Proofs
end

section
/-! SUPPORT. What a write of memory leaves beside the bytes: the Gleaner outside TEST, and every register but the counts of errors and
an armed injection (R190, R195). -/
namespace Sys2Proof.Proofs
open Sys2Proof.Machine Sys2Proof.Laws

/-- The Gleaner is the same, and of the registers only those of `memRegs` may differ. -/
structure Quiet (s t : State) : Prop where
  gleaner : t.gleaner = s.gleaner
  regs : RegsBut memRegs s t

theorem Quiet.refl (s : State) : Quiet s s := ⟨rfl, fun _ _ => rfl⟩

theorem Quiet.trans {s t u : State} (h : Quiet s t) (k : Quiet t u) : Quiet s u :=
  ⟨k.gleaner.trans h.gleaner, fun r hr => (k.regs r hr).trans (h.regs r hr)⟩

theorem quiet_foldl {α : Type} {f : State → α → State} (h : ∀ s a, Quiet s (f s a)) (l : List α) (s : State) : Quiet s (l.foldl f s) := by
  induction l generalizing s with
  | nil => exact .refl s
  | cons a l ih => exact (h s a).trans (ih _)

theorem setReg_quiet (s : State) {r : Reg} (hr : r ∈ memRegs) (v : Word) : Quiet s (s.setReg r v) :=
  ⟨rfl, fun _ hx => setReg_reg_other s v fun e => hx (e ▸ List.mem_map_of_mem hr)⟩

theorem regionOf_lt (k : Nat) : (regionOf k).elim 7 Prod.fst < 8 := by
  unfold regionOf
  repeat' split
  all_goals simp

theorem writeMarks_quiet (s : State) (k n : Nat) : Quiet s (s.writeMarks k n) := by
  refine quiet_foldl (fun s g => ?_) _ s
  have counter : .cpxEccnt ((regionOf g).elim 7 Prod.fst) ∈ memRegs :=
    List.mem_append_right _ (List.mem_map_of_mem (List.mem_range.mpr (regionOf_lt g)))
  have counted : Quiet s (if s.mark g = .fixable ∧ partGran k n g then
      (s.bump (.cpxEccnt ((regionOf g).elim 7 Prod.fst)) 1).noteCe else s) := by
    split
    · exact (setReg_quiet s counter _).trans (setReg_quiet (r := .fltCnt 0x40) _ (by simp [memRegs]) _)
    · exact .refl s
  have marked (u : State) (m : EccMark) : Quiet u { u.setMark g m with scrubs := u.scrubs.filter (· != g) } := ⟨rfl, fun _ _ => rfl⟩
  have injected (v : State) : Quiet v (if v.rb .cpxEinj 31 ∧ granOf v.injectKey = g then
      (v.setMark g (if v.rf .cpxEinj 30 29 = 1 then .fixable else .bad)).setRb .cpxEinj 31 false else v) := by
    split
    · refine .trans (t := v.setMark g _) ⟨rfl, fun _ _ => rfl⟩ (setReg_quiet (r := .cpxEinj) _ (by simp [memRegs]) _)
    · exact .refl v
  exact (counted.trans (marked _ _)).trans (injected _)

theorem putBytes_quiet (s : State) (k : Nat) (bs : List Byte) : Quiet s (s.putBytes k bs) := by
  induction bs generalizing s k with
  | nil => exact .refl s
  | cons b r ih =>
    refine .trans ?_ (ih (s.putByte k b) (k + 1))
    unfold State.putByte
    dsimp only
    split <;> exact ⟨rfl, fun _ _ => rfl⟩

theorem yield_regsBut (s : State) (k n : Nat) : RegsBut memRegs s (s.yield k n) := by
  unfold State.yield
  split
  · exact fun x hx => setReg_reg_other (r := .cpxGyield) _ _ fun e => hx (e ▸ List.mem_map_of_mem (by simp [memRegs]))
  · exact fun _ _ => rfl

theorem memWrite_regsBut (s : State) (k : Nat) (bs : List Byte) : RegsBut memRegs s (s.memWrite k bs) :=
  fun r hr => (((writeMarks_quiet _ k bs.length).trans (putBytes_quiet _ k bs)).regs r hr).trans (yield_regsBut s k bs.length r hr)

/-- A write while the Gleaner does not test leaves the Gleaner (R195). -/
theorem memWrite_gleaner {s : State} (hp : s.gleaner.ph ≠ .test) (k : Nat) (bs : List Byte) : (s.memWrite k bs).gleaner = s.gleaner := by
  have stays : s.yield k bs.length = s := if_neg fun h => hp h.1
  rw [State.memWrite, stays]
  exact ((writeMarks_quiet s k bs.length).trans (putBytes_quiet _ k bs)).gleaner

/-- A write moves no window of the Gleaner. -/
theorem memWrite_windowFits {s : State} (hw : WindowFits s) (k : Nat) (bs : List Byte) : WindowFits (s.memWrite k bs) := by
  have marked := (marked_sameStore s k bs.length).base
  have stored := (putBytes_quiet ((s.yield k bs.length).writeMarks k bs.length) k bs).gleaner
  refine windowFits_of_base (.trans ?_ marked) hw
  unfold State.gleanBase
  rw [State.memWrite, stored]

/-! ### Bytes of one write -/

/-- The bytes of a write read as written. -/
theorem memWrite_bytesAt {s : State} (hw : WindowFits s) {k : Nat} {bs : List Byte} (hk : k + bs.length ≤ 0x1010000) :
    (s.memWrite k bs).bytesAt k bs.length = bs := by
  refine bytesAt_eq fun i hi => ?_
  rw [memWrite_byteAt hw (by omega) hk, if_pos ⟨by omega, by omega⟩, Nat.add_sub_cancel_left]

theorem memWrite_wordAt {s : State} (hw : WindowFits s) {k : Nat} (hk : k + 4 ≤ 0x1010000) (v : Nat) :
    (s.memWrite k (toBytes 4 v)).bytesAt k 4 = toBytes 4 v := by
  have read := memWrite_bytesAt hw (bs := toBytes 4 v) (k := k) (by rwa [toBytes_length])
  rwa [toBytes_length] at read

/-- Bytes below a write read as before. -/
theorem memWrite_bytesAt_below {s : State} (hw : WindowFits s) {j n k : Nat} {bs : List Byte} (hj : j + n ≤ k)
    (hk : k + bs.length ≤ 0x1010000) : (s.memWrite k bs).bytesAt j n = s.bytesAt j n := by
  refine List.map_congr_left fun i hi => ?_
  have inside : i < n := List.mem_range.mp hi
  rw [memWrite_byteAt hw (by omega) hk, if_neg (by omega)]

end Sys2Proof.Proofs
end

section
/-! SUPPORT. Event entry (R77): the two words saved in the window, and the thread's record at its vector. -/
namespace Sys2Proof.Proofs
open Sys2Proof.Machine Sys2Proof.Laws

/-! ### A word saved in the window -/

/-- A word stored at window offset `o` by the thread, as an event entry saves PC and FLG. -/
def saveWord (g o v : Nat) (s : State) : State :=
  s.putMem g s.cycle (.near o) ((s.keysOf g 32 (.near o)).zip (toBytes 4 v)) none

/-- What saved words may change: memory and what it notes, and the thread's store buffer; the Gleaner only in TEST. -/
structure Saves (g : Nat) (s t : State) : Prop where
  frame : ∃ threads ram ecc scrubs regs gleaner,
    t = { s with threads := threads, ram := ram, ecc := ecc, scrubs := scrubs, regs := regs, gleaner := gleaner }
  gleaner : s.gleaner.ph ≠ .test → t.gleaner = s.gleaner
  regs : RegsBut memRegs s t
  thread : t.thr g = { s.thr g with sb := (t.thr g).sb }
  others : OnlyAt g s.thr t.thr

theorem Saves.refl (g : Nat) (s : State) : Saves g s s := ⟨⟨_, _, _, _, _, _, rfl⟩, fun _ => rfl, fun _ _ => rfl, rfl, fun _ _ => rfl⟩

theorem Saves.trans {g : Nat} {s t u : State} (h : Saves g s t) (k : Saves g t u) : Saves g s u := by
  refine ⟨?_, fun hp => ?_, fun r hr => (k.regs r hr).trans (h.regs r hr), ?_, fun j hj => (k.others j hj).trans (h.others j hj)⟩
  · obtain ⟨_, _, _, _, _, _, ht⟩ := h.frame
    obtain ⟨_, _, _, _, _, _, hu⟩ := k.frame
    exact ⟨_, _, _, _, _, _, by rw [hu, ht]⟩
  · have same := h.gleaner hp
    rw [k.gleaner (by rwa [same]), same]
  · rw [k.thread, h.thread]

theorem memWrite_saves (g : Nat) (s : State) (k : Nat) (bs : List Byte) : Saves g s (s.memWrite k bs) := by
  obtain ⟨ram, ecc, scrubs, regs, gleaner, frame⟩ := memWrite_memoryFrame s k bs
  have threads (j : Nat) : (s.memWrite k bs).thr j = s.thr j := by
    rw [frame]
    rfl
  exact ⟨⟨s.threads, ram, ecc, scrubs, regs, gleaner, frame⟩, fun hp => memWrite_gleaner hp k bs, memWrite_regsBut s k bs,
    by rw [threads], fun j _ => threads j⟩

theorem putRuns_saves (g : Nat) (s : State) (cells : List (Nat × Byte)) : Saves g s (s.putRuns cells) := by
  unfold State.putRuns
  induction runs cells generalizing s with
  | nil => exact .refl g s
  | cons r l ih => exact (memWrite_saves g s r.1 r.2).trans (ih _)

theorem saveWord_saves (g o v : Nat) (s : State) : Saves g s (saveWord g o v s) := by
  unfold saveWord State.putMem
  split
  · exact ⟨⟨_, s.ram, s.ecc, s.scrubs, s.regs, s.gleaner, rfl⟩, fun _ => rfl, fun _ _ => rfl, by simp [State.buffer, setThr_self],
      setThr_onlyAt s g _⟩
  · exact putRuns_saves g s _

/-! ### Where the words go -/

theorem memRegs_low : ∀ o ∈ memRegs.map Reg.off, o < 0x20000 := by decide

theorem Saves.coreReg {g : Nat} {s t : State} (h : Saves g s t) {r : Reg} (hr : 0x20000 ≤ r.off) : t.reg r = s.reg r :=
  h.regs r fun m => absurd (memRegs_low _ m) (Nat.not_lt.mpr hr)

theorem Saves.lagged {g : Nat} {s t : State} (h : Saves g s t) (k : LagKey) (cur : Word) : t.lagged k cur = s.lagged k cur := by
  obtain ⟨_, _, _, _, _, _, rfl⟩ := h.frame
  rfl

theorem Saves.det {g : Nat} {s t : State} (h : Saves g s t) : t.det g = s.det g := by
  rw [State.det, State.tcbNow, h.lagged, State.tcb, h.coreReg (by simp only [thrReg, Reg.off, coreBase]; omega)]
  rfl

theorem Saves.nearOf {g : Nat} {s t : State} (h : Saves g s t) (o : Nat) : t.nearOf g o = s.nearOf g o := by
  rw [State.nearOf, State.winBase, State.winNow, h.lagged, h.coreReg (by simp only [thrReg, Reg.off, coreBase]; omega)]
  rfl

/-- The first words of a window lie in one piece below 0x400000: it begins at a multiple of 256 bytes (R94). -/
theorem nearOf_add (s : State) (g : Tid) {o : Nat} (ho : o < 256) :
    s.nearOf g.toNat o = s.nearOf g.toNat 0 + o ∧ s.nearOf g.toNat o < 0x400000 := by
  have core := coreOf_lt g
  have page : fld (s.winNow g.toNat) 15 8 < 256 := Nat.mod_lt _ (by decide)
  unfold State.nearOf nearKey State.winBase
  omega

theorem keysOf_near (s : State) (g : Tid) {o : Nat} (ho : o + 4 ≤ 256) :
    s.keysOf g.toNat 32 (.near o) = (upto 4).map fun i => s.nearOf g.toNat o + i := by
  refine List.map_congr_left fun i hi => ?_
  have inside : i < 4 := List.mem_range.mp hi
  rw [(nearOf_add s g (by omega : o + i < 256)).1, (nearOf_add s g (by omega : o < 256)).1, Nat.add_assoc]

/-- A deterministic thread's saved word is one write of four bytes. -/
theorem saveWord_det {s : State} {g : Tid} (hd : s.det g.toNat = true) {o : Nat} (ho : o + 4 ≤ 256) (v : Nat) :
    saveWord g.toNat o v s = s.memWrite (s.nearOf g.toNat o) (toBytes 4 v) := by
  unfold saveWord State.putMem
  rw [keysOf_near s g ho, if_neg (by simp [hd])]
  simp [State.putRuns, upto, List.range_succ, toBytes, runs]

theorem saveWord_relaxed {s : State} {g : Nat} (hd : s.det g = false) (o v : Nat) :
    ((saveWord g o v s).thr g).sb.length = (s.thr g).sb.length + 1 := by
  unfold saveWord State.putMem
  rw [if_pos (by simp [hd]), State.buffer, setThr_self]
  simp

/-! ### Both words -/

/-- PC and FLG saved at offsets 0 and 4 of the window. -/
def savedWords (s : State) (g : Nat) : State := saveWord g 4 (s.thr g).flg.toNat (saveWord g 0 (s.thr g).pc.toNat s)

theorem savedWords_saves (s : State) (g : Nat) : Saves g s (savedWords s g) := (saveWord_saves g 0 _ s).trans (saveWord_saves g 4 _ _)

theorem savedWords_relaxed {s : State} {g : Nat} (hd : s.det g = false) : ((savedWords s g).thr g).sb.length = (s.thr g).sb.length + 2 := by
  have still : (saveWord g 0 (s.thr g).pc.toNat s).det g = false := (saveWord_saves g 0 _ s).det.trans hd
  rw [savedWords, saveWord_relaxed still, saveWord_relaxed hd]

theorem ofBytes_word (w : Word) : ofBytes (toBytes 4 w.toNat) = w.toNat := by
  rw [ofBytes_toBytes]
  exact Nat.mod_eq_of_lt w.isLt

/-- The saved words read back as PC and FLG. -/
theorem savedWords_bytesAt {s : State} {g : Tid} (hd : s.det g.toNat = true) (hw : WindowFits s) :
    (savedWords s g.toNat).bytesAt (s.nearOf g.toNat 0) 4 = toBytes 4 (s.thr g.toNat).pc.toNat ∧
    (savedWords s g.toNat).bytesAt (s.nearOf g.toNat 4) 4 = toBytes 4 (s.thr g.toNat).flg.toNat := by
  have saves := saveWord_saves g.toNat 0 (s.thr g.toNat).pc.toNat s
  have at4 := nearOf_add s g (by decide : 4 < 256)
  have first := saveWord_det hd (by decide : 0 + 4 ≤ 256) (s.thr g.toNat).pc.toNat
  have second : savedWords s g.toNat = (saveWord g.toNat 0 (s.thr g.toNat).pc.toNat s).memWrite (s.nearOf g.toNat 4)
      (toBytes 4 (s.thr g.toNat).flg.toNat) := by
    rw [savedWords, saveWord_det (saves.det.trans hd) (by decide), saves.nearOf]
  have fits : WindowFits (saveWord g.toNat 0 (s.thr g.toNat).pc.toNat s) := first ▸ memWrite_windowFits hw _ _
  rw [second]
  constructor
  · rw [memWrite_bytesAt_below fits (by omega) (by rw [toBytes_length]; omega), first]
    exact memWrite_wordAt hw (by omega) _
  · exact memWrite_wordAt fits (by omega) _

/-! ### The entry -/

/-- The wake times that a thread keeps for its DOZEs, beside that of the one which the entry ends (R79). -/
def wakesKept (t : Thread) : List (Word × DWord) :=
  match t.doze with
  | .til w _ => t.again.filter (fun e => e.1 != t.pc) ++ [(t.pc, w)]
  | _ => t.again

/-- A thread at the vector of input `j`, with the store buffer of `u`. -/
def vectored (s : State) (g j : Nat) (u : Thread) : Thread :=
  { u with st := .ready, doze := .none, again := wakesKept (s.thr g), waitOn := none, div := none, step := false,
           flg := setBit (s.thr g).flg 8 false, pc := s.evvNow g + BitVec.ofNat 32 (0x20 * j) }

/-- The entry but for the note of the issue. -/
def atVector (s : State) (g j : Nat) : State :=
  let u := (savedWords s g).setThr g (vectored s g j ((savedWords s g).thr g))
  if s.rb (thrReg .coreEvcfg g) (4 + j) then
    u.clrFlag (clusterOf g) (s.rf (thrReg .coreEvsel g) (8 * j + 7) (8 * j)) else u

/-- An event entry whose first word can be saved. -/
theorem eventEntry_eq {g : Tid} {j : Nat} {sp : Bool} {s : State} (hf : s.finishDiv g.toNat = s)
    (hi : s.issuer (coreOf g.toNat) = some (g.toNat, sp)) (he : s.eventNow g.toNat = some j)
    (hb : s.badWrite (s.keysOf g.toNat 32 (.near 0)) = none) :
    exec (.eventEntry g) s = .next (((atVector s g.toNat j).noteIssue g.toNat sp 2).endStep g.toNat (s.thr g.toNat).step) := by
  have takes : s.takesEvent g.toNat = some j := by simp [State.takesEvent, hi, he]
  change execEventEntry g s = _
  unfold execEventEntry
  dsimp only
  rw [hf, takes]
  dsimp only
  rw [hb, hi]
  rfl

theorem eventEntry_idle {g : Tid} {s : State} (hf : s.finishDiv g.toNat = s) (ht : s.takesEvent g.toNat = none) : Idle (.eventEntry g) s := by
  change execEventEntry g s = _
  unfold execEventEntry
  dsimp only
  rw [hf, ht]

theorem clrFlag_frame (s : State) (c f : Nat) : s.clrFlag c f = { s with flags := (s.clrFlag c f).flags } := by
  unfold State.clrFlag
  dsimp only
  repeat' split
  all_goals rfl

theorem atVector_frame (s : State) (g j : Nat) : atVector s g j =
    { (savedWords s g).setThr g (vectored s g j ((savedWords s g).thr g)) with flags := (atVector s g j).flags } := by
  unfold atVector
  dsimp only
  split
  · exact clrFlag_frame _ _ _
  · rfl

theorem atVector_flags {s : State} {g j : Nat} (h : s.rb (thrReg .coreEvcfg g) (4 + j) = false) : (atVector s g j).flags = s.flags := by
  unfold atVector
  obtain ⟨_, _, _, _, _, _, frame⟩ := (savedWords_saves s g).frame
  simp only [h, Bool.false_eq_true, if_false]
  rw [frame]
  rfl

/-- A thread at the end of its issue: HALTED with CAUSE 3 where it was a STEP's (R374). -/
def ended (step : Bool) (t : Thread) : Thread :=
  if step then { t with st := .halted, prior := t.st, cause := 3, bp := 0, stopReq := none, haltReq := none, step := false,
                        part := t.part.map fun p => { p with halted := true } } else t

/-- The end of a STEP's issue of a thread that is READY. -/
theorem endStep_ready {s : State} {g : Nat} (h : (s.thr g).st = .ready) (step : Bool) :
    ∃ threads, s.endStep g step = { s with threads := threads } ∧ (s.endStep g step).thr g = ended step (s.thr g) ∧
      OnlyAt g s.thr (s.endStep g step).thr := by
  unfold State.endStep
  cases step with
  | false => exact ⟨s.threads, rfl, rfl, fun _ _ => rfl⟩
  | true =>
    obtain ⟨frame, others, -⟩ := toHalted_spec s g 3 0
    rw [if_pos (by simp [h])]
    refine ⟨_, frame, ?_, others⟩
    unfold State.toHalted
    dsimp only
    rw [setThr_self, ended, if_pos rfl, h, if_neg (by decide)]

/-- What an event entry leaves. -/
structure Enters (s : State) (g j : Nat) (t : State) : Prop where
  frame : CoresDiffer { savedWords s g with flags := t.flags } t
  thread : t.thr g = ended (s.thr g).step { vectored s g j ((savedWords s g).thr g) with next := s.cycle + 2, skipBp := false }
  others : OnlyAt g s.thr t.thr
  flags : s.rb (thrReg .coreEvcfg g) (4 + j) = false → t.flags = s.flags

theorem eventEntry_enters {g : Tid} {j : Nat} {sp : Bool} {s : State} (hf : s.finishDiv g.toNat = s)
    (hi : s.issuer (coreOf g.toNat) = some (g.toNat, sp)) (he : s.eventNow g.toNat = some j)
    (hb : s.badWrite (s.keysOf g.toNat 32 (.near 0)) = none) : Leads (.eventEntry g) s (Enters s g.toNat j) := by
  refine ⟨_, eventEntry_eq hf hi he hb, ?_⟩
  generalize g.toNat = g at *
  have saves := savedWords_saves s g
  have vector := atVector_frame s g j
  have cycle : (atVector s g j).cycle = s.cycle := by
    obtain ⟨_, _, _, _, _, _, frame⟩ := saves.frame
    have same : (savedWords s g).cycle = s.cycle := by rw [frame]
    rw [vector]
    exact same
  have thr (i : Nat) : (atVector s g j).thr i = if i = g then vectored s g j ((savedWords s g).thr g) else (savedWords s g).thr i := by
    rw [vector]
    exact setThr_thr (savedWords s g) g i (vectored s g j ((savedWords s g).thr g))
  obtain ⟨⟨threads, cores, regs, noted⟩, threadAt, -, -⟩ := noteIssue_spec (atVector s g j) g sp 2
  have here := threadAt g
  rw [if_pos rfl, thr, if_pos rfl, cycle] at here
  obtain ⟨halts, step, thread, others⟩ := endStep_ready (s := (atVector s g j).noteIssue g sp 2) (by rw [here]; rfl) (s.thr g).step
  refine ⟨?_, ?_, fun i hi => ?_, fun h => ?_⟩
  · rw [step, noted, vector]
    exact ⟨_, _, _, rfl⟩
  · rw [thread, here]
  · rw [others i hi, threadAt, if_neg hi, thr, if_neg hi, saves.others i hi]
  · rw [step, noted]
    exact atVector_flags h

/-- An entry that the Gleaner does not test under changes the thread, memory, what these note, and flags (R77). -/
theorem Enters.state {s t : State} {g j : Nat} (h : Enters s g j t) (hp : s.gleaner.ph ≠ .test) : t = { s with
    threads := t.threads, cores := t.cores, regs := t.regs, ram := t.ram, ecc := t.ecc, scrubs := t.scrubs, flags := t.flags } := by
  have saves := savedWords_saves s g
  have gleaner := saves.gleaner hp
  obtain ⟨_, _, _, _, _, _, saved⟩ := saves.frame
  obtain ⟨_, _, _, frame⟩ := h.frame
  rw [saved] at gleaner frame
  dsimp only at gleaner
  rw [frame, gleaner]

theorem Enters.bytesAt {s t : State} {g j : Nat} (h : Enters s g j t) (k n : Nat) : t.bytesAt k n = (savedWords s g).bytesAt k n := by
  obtain ⟨_, _, _, frame⟩ := h.frame
  rw [frame]
  rfl

/-! ### A DIV in progress, and no entry -/

/-- A DIV that has not come to its end goes on (R148). -/
theorem finishDiv_early {s : State} {g : Nat} {d : DivPend} (h : (s.thr g).div = some d) (hc : s.cycle < d.doneAt) : s.finishDiv g = s := by
  unfold State.finishDiv
  generalize s.thr g = t at h
  simp only [h]
  exact if_neg (Nat.not_le.mpr hc)

/-- Without a pending enabled input, or an issue of its core, a thread takes no event (R76). -/
theorem takesEvent_none {s : State} {g : Nat} (h : s.eventNow g = none ∨ (s.thr g).ee = false ∨ s.issuer (coreOf g) = none) :
    s.takesEvent g = none := by
  have without (he : s.eventNow g = none) : s.takesEvent g = none := by
    unfold State.takesEvent
    split
    · rw [he, ite_self]
    · rfl
  rcases h with h | h | h
  · exact without h
  · exact without (by simp [State.eventNow, h])
  · simp [State.takesEvent, h]

/-! ### The end of a DOZE (R128, R137) -/

/-- A thread as the end of its DOZE leaves it. -/
def awake (t : Thread) : Thread := { t with st := .ready, doze := .none }

theorem setLoop_awake (t : Thread) (i : Nat) (l : Loop) : (awake t).setLoop i l = awake (t.setLoop i l) := by
  unfold Thread.setLoop
  repeat' split
  all_goals rfl

/-- The end check looks at no state of the thread, and sets none. -/
theorem endCheck_awake (lcfg : Nat) (nxt : Word) (ls : List Nat) (t : Thread) :
    endCheck lcfg nxt ls (awake t) = awake (endCheck lcfg nxt ls t) := by
  induction ls generalizing t with
  | nil => rfl
  | cons i ls ih =>
    have loop : (awake t).loop i = t.loop i := rfl
    unfold endCheck
    dsimp only
    rw [loop, setLoop_awake, setLoop_awake, ih, ih]
    repeat' split
    all_goals rfl

/-- A thread whose DOZE ends is READY at the next instruction in sequence, by the end check. -/
theorem wakeDoze_til {s : State} {g : Nat} {w : DWord} {nxt : Word} (h : (s.thr g).doze = .til w nxt) :
    s.wakeDoze g = { s with threads := (s.wakeDoze g).threads } ∧ OnlyAt g s.thr (s.wakeDoze g).thr ∧
    (s.wakeDoze g).thr g = awake (endCheck (fld (s.tcbNow g) 11 8) nxt [3, 2, 1, 0] (s.thr g)) := by
  have wakes : s.wakeDoze g = (s.setThr g (awake (s.thr g))).goOn g nxt := by
    unfold State.wakeDoze
    simp only [h]
    rfl
  rw [wakes, ← endCheck_awake]
  unfold State.goOn
  rw [setThr_self]
  exact setThr_twice s g _ _

theorem dozeWake_eq {g : Tid} {w : DWord} {nxt : Word} {s : State} (hs : (s.thr g.toNat).st = .dozing)
    (hd : (s.thr g.toNat).doze = .til w nxt) :
    exec (.dozeWake g) s = .next (if s.active ∧ atOrAfter s.now w then s.wakeDoze g.toNat else s) := by
  change execDozeWake g s = _
  simp only [execDozeWake, hs, hd]

/-- A thread that no wake time holds in DOZING stays as it is. -/
theorem dozeWake_idle {g : Tid} {s : State}
    (h : ∀ w nxt, (s.thr g.toNat).st = .dozing → (s.thr g.toNat).doze = .til w nxt → ¬ (s.active = true ∧ atOrAfter s.now w = true)) :
    Idle (.dozeWake g) s := by
  change execDozeWake g s = _
  unfold execDozeWake
  dsimp only
  split
  · rename_i hs hd
    rw [if_neg (h _ _ hs hd)]
  · rfl

/-- Settles O42: an entry is its two saved words (`savedWords`), the thread at its vector and the note of its issue. -/
theorem eventsEnterAtTheirVector : Obligations.EventsEnterAtTheirVector := by
  refine ⟨fun g j sp s hi he hd hb hp hw => ?_, fun g j d sp s hi he hd hc hb => ?_,
    fun g s hd h => eventEntry_idle (finishDiv_none hd) (takesEvent_none h), fun g w nxt s hs hd ha hn => ?_, fun g s h => ?_,
    fun g w nxt s hd hn => dozeWake_idle fun w' nxt' _ hd' => ?_⟩
  · obtain ⟨t, run, enters⟩ := eventEntry_enters (finishDiv_none hd) hi he hb
    have thread := enters.thread
    rw [(savedWords_saves s g.toNat).thread] at thread
    refine ⟨t, run, enters.state hp, enters.others, ?_, ?_, ?_, ?_, ?_, ?_, ?_, fun det => ?_, fun relaxed => ?_, enters.flags⟩
    iterate 7
      rw [thread]
      cases (s.thr g.toNat).step <;> rfl
    · obtain ⟨pc, flg⟩ := savedWords_bytesAt det hw
      rw [← enters.bytesAt] at pc flg
      rw [keysOf_near s g (by decide), keysOf_near s g (by decide), List.map_map, List.map_map]
      exact ⟨(congrArg ofBytes pc).trans (ofBytes_word _), (congrArg ofBytes flg).trans (ofBytes_word _)⟩
    · rw [← savedWords_relaxed relaxed, thread]
      cases (s.thr g.toNat).step <;> rfl
  · obtain ⟨t, run, enters⟩ := eventEntry_enters (finishDiv_early hd hc) hi he hb
    have thread := enters.thread
    rw [(savedWords_saves s g.toNat).thread] at thread
    refine ⟨t, run, ?_, ?_, ?_, ?_⟩
    iterate 4
      rw [thread]
      cases (s.thr g.toNat).step <;> rfl
  · refine ⟨_, (dozeWake_eq hs hd).trans (by rw [if_pos ⟨ha, hn⟩]), ?_⟩
    obtain ⟨frame, others, thread⟩ := wakeDoze_til hd
    rw [thread]
    exact ⟨frame, others, rfl, rfl, rfl⟩
  · refine dozeWake_idle fun w nxt hs hd ⟨ha, _⟩ => ?_
    rcases h with h | h | h
    · exact h hs
    · rw [h] at hd
      cases hd
    · simp [h] at ha
  · rw [hd] at hd'
    cases hd'
    simp [hn]

end Sys2Proof.Proofs
end

section
/-! SUPPORT. Instructions that compute a result and flags: their effect, row by row, from the words of their operands. -/
namespace Sys2Proof.Proofs
open Sys2Proof.Machine Sys2Proof.Laws

/-! ### Results as words -/

/-- N and Z of a result are those of its word (R88). -/
theorem nz_eq {w : Nat} (hw : 0 < w) (f : Flags) (r : Nat) : f.nz w r = signFlags f (BitVec.ofNat w r) := by
  have top : (r % 2 ^ w).testBit (w - 1) = r.testBit (w - 1) := by
    rw [Nat.testBit_mod_two_pow, decide_eq_true (by omega), Bool.true_and]
  rw [← nz_toNat, BitVec.toNat_ofNat, Flags.nz, Flags.nz, top, Nat.mod_mod]

/-- A result that sets N and Z, as a word. -/
theorem nzRes_eq {w : Nat} (hw : 0 < w) (f : Flags) (r : Nat) :
    nzRes w f r = ⟨(BitVec.ofNat w r).toNat, signFlags f (BitVec.ofNat w r)⟩ := by
  rw [nzRes, nz_eq hw, BitVec.toNat_ofNat]

/-- A sum and its flags, as words of the operands' width. -/
theorem addRes_eq {w a b : Nat} (hw : 0 < w) (ha : a < 2 ^ w) (hb : b < 2 ^ w) (f : Flags) (cin : Nat) :
    addRes w f a b cin = ⟨(BitVec.ofNat w a + BitVec.ofNat w b + BitVec.ofNat w cin).toNat,
      sumFlags f (BitVec.ofNat w a) (BitVec.ofNat w b) cin⟩ := by
  have result : (a + b + cin) % 2 ^ w = (BitVec.ofNat w a + BitVec.ofNat w b + BitVec.ofNat w cin).toNat := by
    rw [← BitVec.ofNat_add, ← BitVec.ofNat_add, BitVec.toNat_ofNat]
  have exact_ : BitVec.ofInt w ((BitVec.ofNat w a).toInt + (BitVec.ofNat w b).toInt + cin) =
      BitVec.ofNat w a + BitVec.ofNat w b + BitVec.ofNat w cin := by
    simp only [BitVec.ofInt_add, BitVec.ofInt_natCast, BitVec.ofInt_toInt]
  unfold addRes sumFlags withV
  dsimp only
  rw [result, nz_toNat, signed_eq_toInt hw, signed_eq_toInt hw, decide_ne_toInt hw, exact_, BitVec.toNat_ofNat,
    BitVec.toNat_ofNat, Nat.mod_eq_of_lt ha, Nat.mod_eq_of_lt hb]

/-- The signed clamp, as a word (R121). -/
theorem ofInt_clampS {w : Nat} (hw : 0 < w) (i : Int) : BitVec.ofInt w (clampS w i) = nearS w i := by
  have half : (0 : Int) < 2 ^ (w - 1) := by positivity
  have highest := BitVec.toInt_intMax (w := w)
  have lowest := BitVec.toInt_intMin_of_pos hw
  unfold clampS nearS
  push_cast
  split
  · rw [show max (-2 ^ (w - 1)) (min i (2 ^ (w - 1) - 1)) = (BitVec.intMax w).toInt by omega, BitVec.ofInt_toInt]
  split
  · rw [show max (-2 ^ (w - 1)) (min i (2 ^ (w - 1) - 1)) = (BitVec.intMin w).toInt by omega, BitVec.ofInt_toInt]
  · rw [show max (-2 ^ (w - 1)) (min i (2 ^ (w - 1) - 1)) = i by omega]

/-- The signed clamp is exact where the integer fits, and only there. -/
theorem toInt_nearS {w : Nat} (hw : 0 < w) (i : Int) : (nearS w i).toInt = i ↔ fitsS w i = true := by
  have half : (0 : Int) < 2 ^ (w - 1) := by positivity
  have fits : fitsS w (clampS w i) = true := by
    rw [fitsS, Bool.and_eq_true, decide_eq_true_eq, decide_eq_true_eq, clampS]
    push_cast
    omega
  rw [← ofInt_clampS hw, (fitsS_iff hw _).mp fits]
  simp only [fitsS, clampS, Bool.and_eq_true, decide_eq_true_eq]
  push_cast
  omega

theorem satS_eq {w : Nat} (hw : 0 < w) (f : Flags) (i : Int) : satS w f i = ⟨(nearS w i).toNat, withV f (nearS w i) i⟩ := by
  have clamped : (!fitsS w i) = decide ((nearS w i).toInt ≠ i) := by
    rw [Bool.eq_iff_iff, Bool.not_eq_true', Bool.eq_false_iff, ne_eq, ← toInt_nearS hw, decide_eq_true_eq]
  unfold satS withV
  dsimp only
  rw [wrap_eq_toNat, ofInt_clampS hw, nz_toNat, clamped]

/-- The unsigned clamp, as a word (R121). -/
theorem ofInt_clampU (w : Nat) (i : Int) : BitVec.ofInt w (clampU w i) = nearU w i := by
  have whole : (0 : Int) < 2 ^ w := by positivity
  have highest : ((2 ^ w - 1 : Nat) : Int) = 2 ^ w - 1 := by
    rw [Nat.cast_sub Nat.one_le_two_pow]
    push_cast
    rfl
  unfold clampU nearU
  rw [highest]
  push_cast
  split
  · rw [show max 0 (min i (2 ^ w - 1)) = ((2 ^ w - 1 : Nat) : Int) by omega, BitVec.ofInt_natCast]
    exact BitVec.eq_of_toNat_eq (by simp)
  split
  · rw [show max 0 (min i (2 ^ w - 1)) = 0 by omega]
    rfl
  · rw [show max 0 (min i (2 ^ w - 1)) = i by omega]

/-- The unsigned clamp is exact where the integer fits, and only there. -/
theorem toNat_nearU (w : Nat) (i : Int) : ((nearU w i).toNat : Int) = i ↔ fitsU w i = true := by
  have whole : (0 : Int) < 2 ^ w := by positivity
  have range : 0 ≤ clampU w i ∧ clampU w i < ((2 ^ w : Nat) : Int) := by
    unfold clampU
    push_cast
    omega
  rw [← ofInt_clampU, BitVec.toNat_ofInt, Int.emod_eq_of_lt range.1 range.2, Int.toNat_of_nonneg range.1]
  simp only [fitsU, clampU, Bool.and_eq_true, decide_eq_true_eq]
  push_cast
  omega

theorem satU_eq (w : Nat) (f : Flags) (i : Int) :
    satU w f i = ⟨(nearU w i).toNat, { signFlags f (nearU w i) with v := decide (((nearU w i).toNat : Int) ≠ i) }⟩ := by
  have clamped : (!fitsU w i) = decide (((nearU w i).toNat : Int) ≠ i) := by
    rw [Bool.eq_iff_iff, Bool.not_eq_true', Bool.eq_false_iff, ne_eq, ← toNat_nearU, decide_eq_true_eq]
  unfold satU
  dsimp only
  rw [wrap_eq_toNat, ofInt_clampU, nz_toNat, clamped]

/-! ### Rows -/

/-- Operand `i` of the opcode is a value of width SZ, of 8 to 64 bits. -/
def seesWhole (op i : Nat) : Bool :=
  match rowOf op with
  | some r => r.szs == szAny && (match r.opds[i]? with
    | some o => o.use != .addr && o.wid == .sz
    | none => false)
  | none => false

theorem sees_whole {s : State} {g op : Nat} {x : Issue} {y : Gathered} (h : Runs s g op x y) (i : Nat)
    (hw : seesWhole op i = true) : y.c.v i < 2 ^ y.c.w := by
  unfold seesWhole at hw
  rw [begin_go_rowOf h.1] at hw
  cases ho : x.r.opds[i]? with
  | none => simp [ho] at hw
  | some o =>
    simp only [ho, Bool.and_eq_true, beq_iff_eq, bne_iff_ne] at hw
    obtain ⟨sizes, use, width⟩ := hw
    exact sees_sz h sizes ho use width

theorem width_pos (c : In) : 0 < c.w := szBits_pos _

section
variable {cmd : Tid → Instr} {op : Nat}

/-- An instruction with a result and flags performs them as words. -/
theorem performs_takes {f : In → Res} {w : In → Nat} {r : ∀ c, BitVec (w c)} {fl : In → Flags}
    (hc : ∀ g s, exec (cmd g) s = .next (s.alu g.toNat op f))
    (hf : ∀ g s x y, Runs s g op x y → f y.c = ⟨(r y.c).toNat, fl y.c⟩) : Performs cmd op fun c s => takes s (r c) (fl c) := by
  refine performs_of_body _ hc fun g s x y h => ?_
  dsimp only
  rw [hf g s x y h]
  rfl

/-- An instruction that sets N and Z alone performs its result as a word. -/
theorem performs_takesNZ {v : In → Nat} {r : ∀ c : In, BitVec c.w}
    (hc : ∀ g s, exec (cmd g) s = .next (s.alu g.toNat op fun c => nzRes c.w c.fl (v c)))
    (hv : ∀ g s x y, Runs s g op x y → BitVec.ofNat y.c.w (v y.c) = r y.c) : Performs cmd op fun c s => takesNZ s c (r c) :=
  performs_takes hc fun g s x y h => by rw [nzRes_eq (width_pos _), hv g s x y h]

/-- An instruction that clamps an exact integer to a signed range. -/
theorem performs_takesS {w : In → Nat} {i j : In → Int}
    (hc : ∀ g s, exec (cmd g) s = .next (s.alu g.toNat op fun c => satS (w c) c.fl (i c))) (hw : ∀ c, 0 < w c)
    (hi : ∀ c, i c = j c) : Performs cmd op fun c s => takesS s c (w c) (j c) :=
  performs_takes hc fun g s x y h => by rw [satS_eq (hw _), hi]

/-- An instruction that clamps an exact integer to an unsigned range. -/
theorem performs_takesU {w : In → Nat} {i j : In → Int}
    (hc : ∀ g s, exec (cmd g) s = .next (s.alu g.toNat op fun c => satU (w c) c.fl (i c))) (hi : ∀ c, i c = j c) :
    Performs cmd op fun c s => takesU s c (w c) (j c) :=
  performs_takes hc fun g s x y h => by rw [satU_eq, hi]

/-- An instruction that writes flags alone. -/
theorem performs_flags {f fl : In → Flags} (hc : ∀ g s, exec (cmd g) s = .next (s.test g.toNat op f))
    (hf : ∀ g s x y, Runs s g op x y → f y.c = fl y.c) : Performs cmd op fun c s => flagsOnly s (fl c) := by
  refine performs_of_body _ hc fun g s x y h => ?_
  rw [hf g s x y h]
  rfl

end

end Sys2Proof.Proofs
end

section
/-! SUPPORT. Integer arithmetic (Table 34): each row's effect. -/
namespace Sys2Proof.Proofs
open Sys2Proof.Machine Sys2Proof.Laws

/-! ### Magnitudes and choices -/

theorem ofInt_natAbs {w : Nat} (a : BitVec w) : BitVec.ofInt w (a.toInt.natAbs : Int) = a.abs := by
  rw [BitVec.abs_eq]
  split
  · rename_i negative
    have below : a.toInt < 0 := BitVec.toInt_neg_iff.mpr (BitVec.msb_eq_true_iff_two_mul_ge.mp negative)
    rw [Int.ofNat_natAbs_of_nonpos below.le, BitVec.ofInt_neg, BitVec.ofInt_toInt]
  · rename_i positive
    have above : 0 ≤ a.toInt := by
      have := mt BitVec.toInt_neg_iff.mp (mt BitVec.msb_eq_true_iff_two_mul_ge.mpr positive)
      omega
    rw [Int.natAbs_of_nonneg above, BitVec.ofInt_toInt]

/-- The magnitude has no word exactly for the lowest value (R121). -/
theorem natAbs_fits {w : Nat} (hw : 0 < w) (a : BitVec w) : (!fitsS w (a.toInt.natAbs : Int)) = (a == BitVec.intMin w) := by
  have lowest := BitVec.toInt_intMin_of_pos hw
  have half : (0 : Int) < 2 ^ (w - 1) := by positivity
  rw [decide_ne_toInt hw, ofInt_natAbs, BitVec.toInt_abs_eq_natAbs, Bool.eq_iff_iff, decide_eq_true_eq, beq_iff_eq]
  split
  · rename_i low
    exact iff_of_true (by omega) low
  · rename_i other
    exact iff_of_false (fun differs => differs rfl) other

theorem b2n_eq_toNat (b : Bool) : b2n b = b.toNat := by cases b <;> rfl

theorem wrap_lt (w : Nat) (i : Int) : wrap w i < 2 ^ w := by
  rw [wrap_eq_toNat]
  exact (BitVec.ofInt w i).isLt

theorem ofNat_wrap (w : Nat) (i : Int) : BitVec.ofNat w (wrap w i) = BitVec.ofInt w i := by
  rw [wrap_eq_toNat, BitVec.ofNat_toNat, BitVec.setWidth_eq]

/-- Values that fit their width compare as their words. -/
theorem ult_arg {c : In} {i j : Nat} (hi : c.v i < 2 ^ c.w) (hj : c.v j < 2 ^ c.w) :
    (arg c i).ult (arg c j) = true ↔ c.v i < c.v j := by
  rw [BitVec.ult_iff_lt, BitVec.lt_def, arg, arg, BitVec.toNat_ofNat, BitVec.toNat_ofNat, Nat.mod_eq_of_lt hi, Nat.mod_eq_of_lt hj]

theorem signed_arg (c : In) (i : Nat) : signed c.w (c.v i) = (arg c i).toInt := signed_eq_toInt (width_pos c) _

theorem slt_arg (c : In) (i j : Nat) : (arg c i).slt (arg c j) = true ↔ signed c.w (c.v i) < signed c.w (c.v j) := by
  rw [BitVec.slt_iff_toInt_lt, signed_arg, signed_arg]

/-- The word of a choice between two operands. -/
theorem ofNat_choice {c : In} {i j : Nat} {p : Prop} [Decidable p] {b : Bool} (h : b = true ↔ p) :
    BitVec.ofNat c.w (if p then c.v i else c.v j) = if b then arg c i else arg c j := by
  rw [apply_ite (BitVec.ofNat c.w)]
  exact if_congr h.symm rfl rfl

/-! ### The rows -/

theorem performs_add : Performs .add 0x040 (fun c s => takes s (arg c 1 + arg c 2) (sumFlags c.fl (arg c 1) (arg c 2) 0)) :=
  performs_takes (fun _ _ => rfl) fun g s x y h => by
    rw [addRes_eq (width_pos _) (sees_whole h 1 rfl) (sees_whole h 2 rfl), BitVec.add_zero]
    rfl

theorem performs_addc : Performs .addc 0x041 (fun c s => takes s (arg c 1 + arg c 2 + BitVec.ofNat c.w c.fl.c.toNat)
    (sumFlags c.fl (arg c 1) (arg c 2) c.fl.c.toNat)) :=
  performs_takes (fun _ _ => rfl) fun g s x y h => by
    rw [addRes_eq (width_pos _) (sees_whole h 1 rfl) (sees_whole h 2 rfl), b2n_eq_toNat]
    rfl

theorem performs_sub : Performs .sub 0x042 (fun c s => takes s (arg c 1 - arg c 2) (diffFlags c.fl (arg c 1) (arg c 2) 0)) :=
  performs_takes (fun _ _ => rfl) fun g s x y h => by
    rw [subRes_eq (width_pos _) (sees_whole h 1 rfl) (sees_whole h 2 rfl), BitVec.sub_zero]
    rfl

theorem performs_subc : Performs .subc 0x043 (fun c s => takes s (arg c 1 - arg c 2 - BitVec.ofNat c.w (!c.fl.c).toNat)
    (diffFlags c.fl (arg c 1) (arg c 2) (!c.fl.c).toNat)) :=
  performs_takes (fun _ _ => rfl) fun g s x y h => by
    rw [subRes_eq (width_pos _) (sees_whole h 1 rfl) (sees_whole h 2 rfl), b2n_eq_toNat]
    rfl

theorem performs_neg : Performs .neg 0x048 (fun c s => takes s (-(arg c 1)) (diffFlags c.fl 0#c.w (arg c 1) 0)) :=
  performs_takes (fun _ _ => rfl) fun g s x y h => by
    rw [subRes_eq (width_pos _) (Nat.two_pow_pos _) (sees_whole h 1 rfl), BitVec.sub_zero, BitVec.zero_sub]
    rfl

theorem performs_abs : Performs .abs 0x049 (fun c s => takes s (arg c 1).abs
    { signFlags c.fl (arg c 1).abs with v := arg c 1 == BitVec.intMin c.w }) :=
  performs_takes (fun _ _ => rfl) fun g s x y h => by
    dsimp only
    rw [signed_arg, natAbs_fits (width_pos _), wrap_eq_toNat, ofInt_natAbs, nz_toNat]

theorem performs_addi : Performs .addi 0x04A (fun c s => takes s (arg c 1 + BitVec.ofInt c.w c.h.imm)
    (sumFlags c.fl (arg c 1) (BitVec.ofInt c.w c.h.imm) 0)) :=
  performs_takes (fun _ _ => rfl) fun g s x y h => by
    rw [addRes_eq (width_pos _) (sees_whole h 1 rfl) (wrap_lt _ _), ofNat_wrap, BitVec.add_zero]
    rfl

theorem performs_cmp : Performs .cmp 0x050 (fun c s => flagsOnly s (diffFlags c.fl (arg c 0) (arg c 1) 0)) :=
  performs_flags (fun _ _ => rfl) fun g s x y h => by
    rw [subRes_eq (width_pos _) (sees_whole h 0 rfl) (sees_whole h 1 rfl)]
    rfl

theorem performs_cmn : Performs .cmn 0x051 (fun c s => flagsOnly s (sumFlags c.fl (arg c 0) (arg c 1) 0)) :=
  performs_flags (fun _ _ => rfl) fun g s x y h => by
    rw [addRes_eq (width_pos _) (sees_whole h 0 rfl) (sees_whole h 1 rfl)]
    rfl

theorem performs_cmpi : Performs .cmpi 0x052 (fun c s => flagsOnly s (diffFlags c.fl (arg c 0) (BitVec.ofInt c.w c.h.imm) 0)) :=
  performs_flags (fun _ _ => rfl) fun g s x y h => by
    rw [subRes_eq (width_pos _) (sees_whole h 0 rfl) (wrap_lt _ _), ofNat_wrap]
    rfl

theorem performs_minU : Performs .minU 0x055 (fun c s => takesNZ s c (if (arg c 2).ult (arg c 1) then arg c 2 else arg c 1)) :=
  performs_takesNZ (fun _ _ => rfl) fun g s x y h => by
    rw [min_comm, min_def_lt]
    exact ofNat_choice (ult_arg (sees_whole h 2 rfl) (sees_whole h 1 rfl))

theorem performs_maxU : Performs .maxU 0x057 (fun c s => takesNZ s c (if (arg c 1).ult (arg c 2) then arg c 2 else arg c 1)) :=
  performs_takesNZ (fun _ _ => rfl) fun g s x y h => by
    rw [max_def_lt]
    exact ofNat_choice (ult_arg (sees_whole h 1 rfl) (sees_whole h 2 rfl))

theorem performs_tcmp : Performs .tcmp 0x1A8 (fun c s => flagsOnly s
    { signFlags c.fl (arg c 0 - arg c 1) with c := false, v := false }) :=
  performs_flags (fun _ _ => rfl) fun g s x y h => by
    rw [tcmpFlags, wrap_eq_toNat, ofInt_sub, BitVec.ofInt_natCast, BitVec.ofInt_natCast, nz_toNat]
    rfl

/-- Settles O1, row by row of Table 34 and TCMP. -/
theorem integerInstructionsComputeTable34 : Obligations.IntegerInstructionsComputeTable34 := by
  refine ⟨performs_add, performs_addc, performs_sub, performs_subc, ?_, ?_, ?_, ?_, performs_neg, performs_abs, performs_addi,
    performs_cmp, performs_cmn, performs_cmpi, ?_, performs_minU, ?_, performs_maxU, performs_tcmp⟩
  · exact performs_takesS (fun _ _ => rfl) width_pos fun c => by rw [signed_arg, signed_arg]
  · exact performs_takesU (fun _ _ => rfl) fun _ => rfl
  · exact performs_takesS (fun _ _ => rfl) width_pos fun c => by rw [signed_arg, signed_arg]
  · exact performs_takesU (fun _ _ => rfl) fun _ => rfl
  · exact performs_takesNZ (fun _ _ => rfl) fun _ _ _ _ _ => ofNat_choice (slt_arg _ _ _)
  · exact performs_takesNZ (fun _ _ => rfl) fun _ _ _ _ _ => ofNat_choice (slt_arg _ _ _)

end Sys2Proof.Proofs
end

section
/-! SUPPORT. Moves, conversions of width and the flag instructions (Table 33): each row's effect. -/
namespace Sys2Proof.Proofs
open Sys2Proof.Machine Sys2Proof.Laws

/-- A mask instruction acts on FLG as a pairable instruction does (R70, R118). -/
theorem performs_mask {cmd : Tid → Instr} {op : Nat} {f : In → Thread → Thread}
    (hc : ∀ g s, exec (cmd g) s = .next (s.effect g.toNat op fun c s => s.setThr c.g (pairEffect c.h (s.thr c.g))))
    (hf : ∀ c t, c.h.op = op → pairEffect c.h t = f c t) :
    Performs cmd op fun c s => ⟨s.setThr c.g (f c (s.thr c.g)), [], none, .seq, 0⟩ := by
  refine performs_of_body _ hc fun g s x y h => ?_
  have opcode : y.c.h.op = op := (congrArg Head.op (sees_size h).1).trans (begin_go_row h.1).1
  dsimp only
  rw [hf _ _ opcode]

/-- ZEXT's source fits the width that XF names (R118). -/
theorem zext_fits {g : Nat} {s : State} {x : Issue} {y : Gathered} (h : Runs s g 0x009 x y) : y.c.v 1 < 2 ^ szBits y.c.h.xf := by
  have row : x.r = row1 0x009 sz16up s01 .width [dst, ⟨.src, .byXf, .int⟩] := (Option.some.inj (begin_go_rowOf h.1)).symm
  obtain ⟨-, size, xf⟩ := row_fits (begin_go_row h.1).2
  rw [row] at size xf
  have below : x.h.xf < x.h.sz := of_decide_eq_true (Bool.and_eq_true _ _ ▸ xf).2
  have most : x.h.sz ≤ 3 := (by decide : ∀ z ∈ sz16up, z ≤ 3) _ size
  have bits : x.h.bits .byXf = szBits x.h.xf := by
    rw [Head.bits, Head.widCode, if_neg (by omega), Nat.mod_eq_of_lt (by omega)]
  rw [(sees_size h).1, ← bits]
  exact sees_lt (o := ⟨.src, .byXf, .int⟩) h (by rw [row]; rfl) (by decide)

theorem performs_zext : Performs .zext 0x009 (fun c s => takesNZ s c ((BitVec.ofNat (szBits c.h.xf) (c.v 1)).setWidth c.w)) :=
  performs_takesNZ (fun _ _ => rfl) fun g s x y h => by
    apply BitVec.eq_of_toNat_eq
    rw [BitVec.toNat_setWidth, BitVec.toNat_ofNat, BitVec.toNat_ofNat, Nat.mod_eq_of_lt (zext_fits h)]

/-- Settles O2, row by row of Table 33. -/
theorem movesWriteTheirValues : Obligations.MovesWriteTheirValues := by
  refine ⟨?_, ?_, ?_, ?_, ?_, ?_, ?_, ?_, performs_zext, ?_, ?_, ?_, ?_⟩
  · exact performs_takesNZ (fun _ _ => rfl) fun _ _ _ _ _ => rfl
  · exact performs_takesNZ (fun _ _ => rfl) fun _ _ _ _ _ => ofNat_wrap _ _
  · exact performs_of_body _ (fun _ _ => rfl) fun _ _ _ _ _ => rfl
  · exact performs_takesNZ (fun _ _ => rfl) fun _ _ _ _ _ => rfl
  · exact performs_of_body _ (fun _ _ => rfl) fun _ _ _ _ _ => rfl
  · exact performs_mask (f := fun c t => { t with flg := t.flg ||| BitVec.ofNat 32 c.h.xf }) (fun _ _ => rfl)
      fun c t set => if_pos set
  · exact performs_mask (f := fun c t => { t with flg := t.flg &&& ~~~ BitVec.ofNat 32 c.h.xf }) (fun _ _ => rfl)
      fun c t clear => by rw [pairEffect, if_neg (by omega), if_pos clear]
  · refine performs_takesNZ (fun _ _ => rfl) fun _ _ _ _ _ => ?_
    rw [ofNat_wrap, signed_eq_toInt (szBits_pos _)]
  · exact performs_takesNZ (fun _ _ => rfl) fun _ _ _ _ _ => rfl
  · exact performs_of_body _ (fun _ _ => rfl) fun _ _ _ _ _ => rfl
  · exact performs_takesS (fun _ _ => rfl) (fun _ => szBits_pos _) fun c => signed_arg c 1
  · exact performs_takesU (fun _ _ => rfl) fun c => signed_arg c 1

end Sys2Proof.Proofs
end

section
/-! SUPPORT. Logic, shifts, rotates and counts (Table 35): the results as words, and each row's effect. -/
namespace Sys2Proof.Proofs
open Sys2Proof.Machine Sys2Proof.Laws

theorem ofNat_notW (w a : Nat) : BitVec.ofNat w (notW w a) = ~~~ BitVec.ofNat w a := by
  apply BitVec.eq_of_toNat_eq
  rw [BitVec.toNat_not, BitVec.toNat_ofNat, BitVec.toNat_ofNat, notW]
  exact Nat.mod_eq_of_lt (by have := Nat.two_pow_pos w; omega)

/-! ### Shifts (R122) -/

theorem shlRes_eq {w : Nat} (hw : 0 < w) (f : Flags) (a n : Nat) :
    shlRes w f a n = ⟨(BitVec.ofNat w a <<< n).toNat, { signFlags f (BitVec.ofNat w a <<< n) with
      c := if n = 0 then f.c else decide (n ≤ w) && (BitVec.ofNat w a).getLsbD (w - n) }⟩ := by
  have result : (if w ≤ n then 0 else a * 2 ^ n % 2 ^ w) = (BitVec.ofNat w a <<< n).toNat := by
    rw [BitVec.toNat_shiftLeft, BitVec.toNat_ofNat, Nat.shiftLeft_eq, Nat.mod_mul_mod]
    split
    · rename_i past
      exact (Nat.mod_eq_zero_of_dvd (Dvd.dvd.mul_left (Nat.pow_dvd_pow 2 past) a)).symm
    · rfl
  have carry : n ≠ 0 → (BitVec.ofNat w a).getLsbD (w - n) = a.testBit (w - n) := fun some => by
    rw [BitVec.getLsbD_ofNat, decide_eq_true (by omega), Bool.true_and]
  unfold shlRes
  dsimp only
  rw [result, nz_toNat]
  split
  · rfl
  · rw [carry ‹_›]

theorem shrRes_eq {w a : Nat} (ha : a < 2 ^ w) (f : Flags) (n : Nat) :
    shrRes w f a n = ⟨(BitVec.ofNat w a >>> n).toNat, { signFlags f (BitVec.ofNat w a >>> n) with
      c := if n = 0 then f.c else (BitVec.ofNat w a).getLsbD (n - 1) }⟩ := by
  have result : (if w ≤ n then 0 else a / 2 ^ n) = (BitVec.ofNat w a >>> n).toNat := by
    rw [BitVec.toNat_ushiftRight, BitVec.toNat_ofNat, Nat.mod_eq_of_lt ha, Nat.shiftRight_eq_div_pow]
    split
    · rename_i past
      exact (Nat.div_eq_of_lt (ha.trans_le (Nat.pow_le_pow_right (by omega) past))).symm
    · rfl
  have carry : n ≠ 0 → (BitVec.ofNat w a).getLsbD (n - 1) = (decide (n ≤ w) && a.testBit (n - 1)) := fun some => by
    rw [BitVec.getLsbD_ofNat, decide_eq_decide.mpr (show n - 1 < w ↔ n ≤ w by omega)]
  unfold shrRes
  dsimp only
  rw [result, nz_toNat]
  split
  · rfl
  · rw [carry ‹_›]

/-- From the width on, an arithmetic shift leaves copies of the sign. -/
theorem sshiftRight_min {w : Nat} (a : BitVec w) (n : Nat) : a.sshiftRight (min n w) = a.sshiftRight n := by
  refine BitVec.eq_of_getLsbD_eq fun i _ => ?_
  rw [BitVec.getLsbD_sshiftRight, BitVec.getLsbD_sshiftRight]
  by_cases inside : n + i < w
  · rw [Nat.min_eq_left (by omega)]
  · rw [if_neg inside, if_neg (by omega)]

theorem sarRes_eq {w : Nat} (hw : 0 < w) (f : Flags) (a n : Nat) :
    sarRes w f a n = ⟨((BitVec.ofNat w a).sshiftRight n).toNat, { signFlags f ((BitVec.ofNat w a).sshiftRight n) with
      c := if n = 0 then f.c else (BitVec.ofNat w a).getLsbD (min n w - 1) }⟩ := by
  have result : wrap w (signed w a / (2 ^ min n w : Nat)) = ((BitVec.ofNat w a).sshiftRight n).toNat := by
    rw [wrap_eq_toNat, signed_eq_toInt hw, ← Int.shiftRight_eq_div_pow, ← sshiftRight_min]
    rfl
  have carry : n ≠ 0 → (BitVec.ofNat w a).getLsbD (min n w - 1) = a.testBit (min n w - 1) := fun some => by
    rw [BitVec.getLsbD_ofNat, decide_eq_true (by omega), Bool.true_and]
  unfold sarRes
  dsimp only
  rw [result, nz_toNat]
  split
  · rfl
  · rw [carry ‹_›]

/-! ### Rotates (R122) -/

/-- The low `j` bits of a value above its other bits. -/
theorem rotated {a i j : Nat} (ha : a < 2 ^ (i + j)) :
    (a * 2 ^ i + a / 2 ^ j) % 2 ^ (i + j) = a <<< i % 2 ^ (i + j) ||| a >>> j := by
  have high : a / 2 ^ j < 2 ^ i := Nat.div_lt_of_lt_mul (by rwa [Nat.pow_add, Nat.mul_comm] at ha)
  have low : a <<< i % 2 ^ (i + j) = 2 ^ i * (a % 2 ^ j) := by
    rw [Nat.shiftLeft_eq, Nat.mul_comm, Nat.pow_add, Nat.mul_mod_mul_left]
  rw [low, Nat.shiftRight_eq_div_pow, ← Nat.two_pow_add_eq_or_of_lt high, Nat.mul_comm a, Nat.pow_add, Nat.mod_mul,
    Nat.mul_add_mod, Nat.mod_eq_of_lt high, Nat.mul_add_div (Nat.two_pow_pos i), Nat.div_eq_of_lt high, Nat.add_zero, Nat.add_comm]

theorem rolRes_eq {w a : Nat} (hw : 0 < w) (ha : a < 2 ^ w) (f : Flags) (n : Nat) :
    rolRes w f a n = ⟨((BitVec.ofNat w a).rotateLeft n).toNat, { signFlags f ((BitVec.ofNat w a).rotateLeft n) with
      c := if n = 0 then f.c else ((BitVec.ofNat w a).rotateLeft n).getLsbD 0 }⟩ := by
  have width : n % w + (w - n % w) = w := Nat.add_sub_cancel' (Nat.mod_lt n hw).le
  have result : (a * 2 ^ (n % w) + a / 2 ^ (w - n % w)) % 2 ^ w = ((BitVec.ofNat w a).rotateLeft n).toNat := by
    have parts := rotated (a := a) (i := n % w) (j := w - n % w) (by rwa [width])
    rw [width] at parts
    rw [BitVec.toNat_rotateLeft, BitVec.toNat_ofNat, Nat.mod_eq_of_lt ha, parts]
  unfold rolRes
  dsimp only
  rw [result, nz_toNat]
  rfl

theorem rorRes_eq {w a : Nat} (hw : 0 < w) (ha : a < 2 ^ w) (f : Flags) (n : Nat) :
    rorRes w f a n = ⟨((BitVec.ofNat w a).rotateRight n).toNat, { signFlags f ((BitVec.ofNat w a).rotateRight n) with
      c := if n = 0 then f.c else ((BitVec.ofNat w a).rotateRight n).msb }⟩ := by
  have width : w - n % w + n % w = w := Nat.sub_add_cancel (Nat.mod_lt n hw).le
  have result : (a / 2 ^ (n % w) + a * 2 ^ (w - n % w)) % 2 ^ w = ((BitVec.ofNat w a).rotateRight n).toNat := by
    have parts := rotated (a := a) (i := w - n % w) (j := n % w) (by rwa [width])
    rw [width] at parts
    rw [BitVec.toNat_rotateRight, BitVec.toNat_ofNat, Nat.mod_eq_of_lt ha, Nat.add_comm, parts, Nat.or_comm]
  unfold rorRes
  dsimp only
  rw [result, nz_toNat, BitVec.msb_eq_getLsbD_last]
  rfl

/-! ### Counts -/

/-- The leading zeros of a word (R122). -/
theorem ofNat_sub_bitLen {w a : Nat} (hw : 0 < w) (ha : a < 2 ^ w) : BitVec.ofNat w (w - bitLen a) = (BitVec.ofNat w a).clz := by
  have value : (BitVec.ofNat w a).toNat = a := Nat.mod_eq_of_lt ha
  have fits : w < 2 ^ w := Nat.lt_two_pow_self
  unfold bitLen
  split
  · rename_i zero
    rw [zero, BitVec.clz_eq_iff_eq_zero.mpr rfl]
    rfl
  · rename_i other
    have word : BitVec.ofNat w a ≠ 0#w := fun e => other (by rw [← value, e, BitVec.toNat_ofNat, Nat.zero_mod])
    have below : (BitVec.ofNat w a).clz.toNat < w := by
      have := BitVec.lt_def.mp (BitVec.clz_lt_iff_ne_zero.mpr word)
      rwa [BitVec.natCast_eq_ofNat, BitVec.toNat_ofNat, Nat.mod_eq_of_lt fits] at this
    have low := BitVec.two_pow_sub_clz_le_toNat_of_ne_zero hw word
    have high := BitVec.toNat_lt_two_pow_sub_clz (x := BitVec.ofNat w a)
    rw [value] at low high
    have top : a.log2 = w - 1 - (BitVec.ofNat w a).clz.toNat :=
      (Nat.log2_eq_iff other).mpr ⟨low, high.trans_eq (congrArg _ (by omega))⟩
    rw [top, show w - (w - 1 - (BitVec.ofNat w a).clz.toNat + 1) = (BitVec.ofNat w a).clz.toNat by omega, BitVec.ofNat_toNat,
      BitVec.setWidth_eq]

/-- The trailing zeros of a word (R122). -/
theorem ofNat_firstBit (w a : Nat) :
    BitVec.ofNat w (((upto w).find? fun i => a.testBit i).getD w) = (BitVec.ofNat w a).ctz := by
  have fits : w < 2 ^ w := Nat.lt_two_pow_self
  have bits (i : Nat) (hi : i < w) : a.testBit i = (BitVec.ofNat w a).getLsbD i := by
    rw [BitVec.getLsbD_ofNat, decide_eq_true hi, Bool.true_and]
  by_cases zero : BitVec.ofNat w a = 0#w
  · have unset : (upto w).find? (fun i => a.testBit i) = none := List.find?_eq_none.mpr fun i hi => by
      rw [bits i (List.mem_range.mp hi), zero]
      simp
    rw [unset, zero, BitVec.ctz_eq_reverse_clz, BitVec.clz_eq_iff_eq_zero.mpr (BitVec.reverse_eq_zero_iff.mpr rfl)]
    rfl
  · have below : (BitVec.ofNat w a).ctz.toNat < w := by
      have := BitVec.lt_def.mp (BitVec.ctz_lt_iff_ne_zero.mpr zero)
      rwa [BitVec.natCast_eq_ofNat, BitVec.toNat_ofNat, Nat.mod_eq_of_lt fits] at this
    have first : (upto w).find? (fun i => a.testBit i) = some (BitVec.ofNat w a).ctz.toNat :=
      List.find?_range_eq_some.mpr ⟨by rw [bits _ below, BitVec.getLsbD_true_ctz_of_ne_zero zero], List.mem_range.mpr below,
        fun j hj => by rw [bits j (hj.trans below), BitVec.getLsbD_false_of_lt_ctz hj]; rfl⟩
    rw [first, Option.getD_some, BitVec.ofNat_toNat, BitVec.setWidth_eq]

theorem popCount_succ (n v : Nat) : popCount (n + 1) v = popCount n v + (v.testBit n).toNat := by
  induction n generalizing v with
  | zero =>
    rw [Nat.toNat_testBit, Nat.pow_zero, Nat.div_one]
    exact Nat.add_comm (v % 2) 0
  | succ n ih =>
    rw [popCount, ih (v >>> 1), popCount, Nat.testBit_shiftRight, Nat.add_comm 1 n, Nat.add_assoc]

/-- The 1 bits of a word. -/
theorem ofNat_popCount (w a : Nat) : BitVec.ofNat w (popCount w a) = (BitVec.ofNat w a).cpop := by
  have counts (n : Nat) (hn : n ≤ w) : popCount n a = (BitVec.ofNat w a).cpopNatRec n 0 := by
    induction n with
    | zero => rfl
    | succ n ih =>
      rw [popCount_succ, ih (by omega), BitVec.cpopNatRec_succ, BitVec.cpopNatRec_eq (0 + _), Nat.zero_add, BitVec.getLsbD_ofNat,
        decide_eq_true (by omega), Bool.true_and]
  exact congrArg _ (counts w le_rfl)

/-- The bits of a word in reverse order. -/
theorem ofNat_bitRev (w a : Nat) : BitVec.ofNat w (bitRev w a) = (BitVec.ofNat w a).reverse := by
  have high (n : Nat) (hn : n ≤ w) : (List.range n).foldl (fun m i => m + b2n (a.testBit i) * 2 ^ (w - 1 - i)) 0 =
      (BitVec.ofNat w a).reverse.toNat / 2 ^ (w - n) * 2 ^ (w - n) := by
    induction n with
    | zero => rw [Nat.sub_zero, Nat.div_eq_of_lt (BitVec.isLt _), Nat.zero_mul]; rfl
    | succ n ih =>
      have next : a.testBit n = (BitVec.ofNat w a).reverse.toNat.testBit (w - (n + 1)) := by
        rw [BitVec.testBit_toNat, BitVec.getLsbD_reverse, BitVec.getMsbD_eq_getLsbD, BitVec.getLsbD_ofNat,
          decide_eq_true (by omega), decide_eq_true (by omega), Bool.true_and, Bool.true_and]
        congr 1
        omega
      rw [List.range_succ, List.foldl_append, ih (by omega), List.foldl_cons, List.foldl_nil, next, b2n_eq_toNat, Nat.toNat_testBit,
        show w - n = w - (n + 1) + 1 by omega, show w - 1 - n = w - (n + 1) by omega, Nat.pow_succ, ← Nat.mul_assoc,
        ← Nat.div_div_eq_div_mul]
      generalize (BitVec.ofNat w a).reverse.toNat / 2 ^ (w - (n + 1)) = q
      rw [← Nat.mul_right_comm, ← Nat.add_mul, Nat.div_add_mod']
  rw [bitRev, upto, high w le_rfl, Nat.sub_self, Nat.pow_zero, Nat.div_one, Nat.mul_one, BitVec.ofNat_toNat, BitVec.setWidth_eq]

/-! ### The rows -/

section
variable {cmd : Tid → Instr} {op : Nat} {n : In → Nat}

theorem performs_shiftedLeft (hc : ∀ g s, exec (cmd g) s = .next (s.alu g.toNat op fun c => shlRes c.w c.fl (c.v 1) (n c))) :
    Performs cmd op fun c s => shiftedLeft s c (n c) :=
  performs_takes hc fun _ _ _ _ _ => shlRes_eq (width_pos _) _ _ _

theorem performs_shiftedRight (hc : ∀ g s, exec (cmd g) s = .next (s.alu g.toNat op fun c => shrRes c.w c.fl (c.v 1) (n c)))
    (h1 : seesWhole op 1 = true) : Performs cmd op fun c s => shiftedRight s c (n c) :=
  performs_takes hc fun _ _ _ _ h => shrRes_eq (sees_whole h 1 h1) _ _

theorem performs_shiftedArith (hc : ∀ g s, exec (cmd g) s = .next (s.alu g.toNat op fun c => sarRes c.w c.fl (c.v 1) (n c))) :
    Performs cmd op fun c s => shiftedArith s c (n c) :=
  performs_takes hc fun _ _ _ _ _ => sarRes_eq (width_pos _) _ _ _

theorem performs_rotatedLeft (hc : ∀ g s, exec (cmd g) s = .next (s.alu g.toNat op fun c => rolRes c.w c.fl (c.v 1) (n c)))
    (h1 : seesWhole op 1 = true) : Performs cmd op fun c s => rotatedLeft s c (n c) :=
  performs_takes hc fun _ _ _ _ h => rolRes_eq (width_pos _) (sees_whole h 1 h1) _ _

theorem performs_rotatedRight (hc : ∀ g s, exec (cmd g) s = .next (s.alu g.toNat op fun c => rorRes c.w c.fl (c.v 1) (n c)))
    (h1 : seesWhole op 1 = true) : Performs cmd op fun c s => rotatedRight s c (n c) :=
  performs_takes hc fun _ _ _ _ h => rorRes_eq (width_pos _) (sees_whole h 1 h1) _ _

end

/-- Settles O3, row by row of Table 35. -/
theorem logicAndShiftsComputeTable35 : Obligations.LogicAndShiftsComputeTable35 :=
  ⟨performs_takesNZ (fun _ _ => rfl) fun _ _ _ _ _ => BitVec.ofNat_and,
   performs_takesNZ (fun _ _ => rfl) fun _ _ _ _ _ => BitVec.ofNat_or,
   performs_takesNZ (fun _ _ => rfl) fun _ _ _ _ _ => BitVec.ofNat_xor,
   performs_takesNZ (fun _ _ => rfl) fun _ _ _ _ _ => by rw [BitVec.ofNat_and, ofNat_notW]; rfl,
   performs_takesNZ (fun _ _ => rfl) fun _ _ _ _ _ => by rw [BitVec.ofNat_or, ofNat_notW]; rfl,
   performs_takesNZ (fun _ _ => rfl) fun _ _ _ _ _ => by rw [ofNat_notW, BitVec.ofNat_xor]; rfl,
   performs_takesNZ (fun _ _ => rfl) fun _ _ _ _ _ => ofNat_notW _ _,
   performs_flags (fun _ _ => rfl) fun _ _ _ _ _ => by rw [nz_eq (width_pos _), BitVec.ofNat_and]; rfl,
   performs_takesNZ (fun _ _ => rfl) fun _ _ _ _ _ => by rw [BitVec.ofNat_and, ofNat_wrap]; rfl,
   performs_takesNZ (fun _ _ => rfl) fun _ _ _ _ _ => by rw [BitVec.ofNat_or, ofNat_wrap]; rfl,
   performs_takesNZ (fun _ _ => rfl) fun _ _ _ _ _ => by rw [BitVec.ofNat_xor, ofNat_wrap]; rfl,
   performs_flags (fun _ _ => rfl) fun _ _ _ _ _ => by rw [nz_eq (width_pos _), BitVec.ofNat_and, ofNat_wrap]; rfl,
   performs_shiftedLeft fun _ _ => rfl, performs_shiftedRight (fun _ _ => rfl) rfl, performs_shiftedArith fun _ _ => rfl,
   performs_rotatedLeft (fun _ _ => rfl) rfl, performs_rotatedRight (fun _ _ => rfl) rfl,
   performs_shiftedLeft fun _ _ => rfl, performs_shiftedRight (fun _ _ => rfl) rfl, performs_shiftedArith fun _ _ => rfl,
   performs_rotatedLeft (fun _ _ => rfl) rfl, performs_rotatedRight (fun _ _ => rfl) rfl,
   performs_takesNZ (fun _ _ => rfl) fun _ _ _ _ h => ofNat_sub_bitLen (width_pos _) (sees_whole h 1 rfl),
   performs_takesNZ (fun _ _ => rfl) fun _ _ _ _ _ => ofNat_firstBit _ _,
   performs_takesNZ (fun _ _ => rfl) fun _ _ _ _ _ => ofNat_popCount _ _,
   performs_takesNZ (fun _ _ => rfl) fun _ _ _ _ _ => ofNat_bitRev _ _⟩

end Sys2Proof.Proofs
end

section
/-! SUPPORT. Bits and bit fields (Table 36): masks of a word, the bit and the field that an issue names, and each row's effect. -/
namespace Sys2Proof.Proofs
open Sys2Proof.Machine Sys2Proof.Laws

/-! ### Masks -/

/-- The complement of a mask, read at a width that is not above its own. -/
theorem ofNat_notW_of_le {w n : Nat} (hw : w ≤ n) (m : Nat) : BitVec.ofNat w (notW n m) = ~~~ BitVec.ofNat w m := by
  have word := congrArg (BitVec.setWidth w) (ofNat_notW n m)
  rwa [BitVec.setWidth_not hw, BitVec.setWidth_ofNat_of_le hw, BitVec.setWidth_ofNat_of_le hw] at word

/-- A value without the bits of a mask. -/
theorem and_notW {w n v : Nat} (hw : w ≤ n) (hv : v < 2 ^ w) (m : Nat) :
    v &&& notW n m = (BitVec.ofNat w v &&& ~~~ BitVec.ofNat w m).toNat := by
  rw [← ofNat_notW_of_le hw, ← BitVec.ofNat_and, BitVec.toNat_ofNat, Nat.mod_eq_of_lt (Nat.and_le_left.trans_lt hv)]

section
variable {g op : Nat} {s : State} {x : Issue} {y : Gathered}

/-- SZ is at most 64 bits. -/
theorem width_le (h : Runs s g op x y) (h0 : seesWhole op 0 = true) : y.c.w ≤ 64 := by
  unfold seesWhole at h0
  rw [begin_go_rowOf h.1] at h0
  simp only [Bool.and_eq_true, beq_iff_eq] at h0
  obtain ⟨head, -, size⟩ := sees_size h
  rw [h0.1] at size
  rw [In.w, head]
  exact (by decide : ∀ z ∈ szAny, szBits z ≤ 64) _ size

/-- What the row of an issue says of XF. -/
theorem xf_fits {u : XfUse} (h : Runs s g op x y) (hu : (rowOf op).map (·.xf) = some u) : xfOk u y.c.h.sz y.c.h.xf = true := by
  rw [begin_go_rowOf h.1] at hu
  rw [(sees_size h).1, ← Option.some.inj hu]
  exact (row_fits (begin_go_row h.1).2).2.2

/-- A bit number in XF lies in the operand (R85). -/
theorem bit_fits (h : Runs s g op x y) (hu : (rowOf op).map (·.xf) = some .bit) : y.c.h.xf < y.c.w :=
  of_decide_eq_true (Bool.and_eq_true _ _ ▸ xf_fits h hu).2

/-- A field in XF lies in the operand (R124). -/
theorem field_fits (h : Runs s g op x y) (hu : (rowOf op).map (·.xf) = some .field) : y.c.pos + y.c.len ≤ y.c.w :=
  of_decide_eq_true (Bool.and_eq_true _ _ ▸ xf_fits h hu).2

end

/-! ### Fields (R124) -/

theorem toNat_field {w pos len : Nat} (hp : pos + len ≤ w) (v : BitVec len) : (v.setWidth w <<< pos).toNat = v.toNat * 2 ^ pos := by
  have room : v.toNat * 2 ^ pos < 2 ^ w := by
    calc v.toNat * 2 ^ pos < 2 ^ len * 2 ^ pos := Nat.mul_lt_mul_of_pos_right v.isLt (Nat.two_pow_pos pos)
      _ = 2 ^ (pos + len) := by rw [Nat.mul_comm, Nat.pow_add]
      _ ≤ 2 ^ w := Nat.pow_le_pow_right (by omega) hp
  rw [BitVec.toNat_shiftLeft, BitVec.toNat_setWidth_of_le (by omega), Nat.shiftLeft_eq, Nat.mod_eq_of_lt room]

theorem fieldLen_pos (c : In) : 0 < c.len := Nat.succ_pos _

theorem ofNat_field {c : In} (h1 : c.v 1 < 2 ^ c.w) : BitVec.ofNat c.len (c.field (c.v 1)) = (arg c 1).extractLsb' c.pos c.len := by
  apply BitVec.eq_of_toNat_eq
  rw [BitVec.extractLsb'_toNat, arg, BitVec.toNat_ofNat, BitVec.toNat_ofNat, Nat.mod_eq_of_lt h1, Nat.shiftRight_eq_div_pow, In.field,
    Nat.mod_mod]

/-! ### The rows -/

section
variable {cmd : Tid → Instr} {op : Nat}

theorem performs_bitTakes {idx : In → Nat} {f : Bool → Bool} (hc : ∀ g s, exec (cmd g) s = .next (s.bitOp g.toNat op idx f))
    (h0 : seesWhole op 0 = true) (hi : ∀ g s x y, Runs s g op x y → idx y.c < y.c.w) :
    Performs cmd op fun c s => bitTakes s c (idx c) (f ((arg c 0).getLsbD (idx c))) := by
  refine performs_of_body _ hc fun g s x y h => ?_
  have fits := sees_whole h 0 h0
  have one : BitVec.twoPow y.c.w (idx y.c) = BitVec.ofNat y.c.w (2 ^ idx y.c) :=
    BitVec.eq_of_toNat_eq (by rw [BitVec.toNat_twoPow, BitVec.toNat_ofNat])
  have set : y.c.v 0 ||| 2 ^ idx y.c = (arg y.c 0 ||| BitVec.twoPow y.c.w (idx y.c)).toNat := by
    rw [BitVec.toNat_or, BitVec.toNat_twoPow_of_lt (hi _ _ _ _ h), arg, BitVec.toNat_ofNat, Nat.mod_eq_of_lt fits]
  have clear : y.c.v 0 &&& notW 64 (2 ^ idx y.c) = (arg y.c 0 &&& ~~~ BitVec.twoPow y.c.w (idx y.c)).toNat := by
    rw [and_notW (width_le h h0) fits, one]
    rfl
  dsimp only
  rw [testBit_arg fits, set, clear, ← apply_ite BitVec.toNat]
  rfl

theorem performs_oneBit {b : In → Bool} (hc : ∀ g s, exec (cmd g) s = .next (s.bit1 g.toNat op b)) :
    Performs cmd op fun c s => oneBit s c (b c) := by
  refine performs_of_body _ hc fun g s x y h => ?_
  rw [b2n_eq_toNat]
  rfl

theorem performs_fieldTakes {v : In → Nat} {b : ∀ c : In, BitVec c.w}
    (hc : ∀ g s, exec (cmd g) s = .next (s.fieldOp g.toNat op v)) (h0 : seesWhole op 0 = true) (hu : (rowOf op).map (·.xf) = some .field)
    (hv : ∀ g s x y, Runs s g op x y → v y.c = (b y.c).toNat) : Performs cmd op fun c s => fieldTakes s c (b c) := by
  refine performs_of_body _ hc fun g s x y h => ?_
  have fits := sees_whole h 0 h0
  have room := field_fits h hu
  have mask : y.c.fieldMask = ((BitVec.allOnes y.c.len).setWidth y.c.w <<< y.c.pos).toNat := by
    rw [toNat_field room, BitVec.toNat_allOnes, In.fieldMask]
  have field : v y.c % 2 ^ y.c.len * 2 ^ y.c.pos = (((b y.c).setWidth y.c.len).setWidth y.c.w <<< y.c.pos).toNat := by
    rw [toNat_field room, BitVec.toNat_setWidth, hv _ _ _ _ h]
  dsimp only
  rw [and_notW (width_le h h0) fits, mask, field, BitVec.ofNat_toNat, BitVec.setWidth_eq, ← BitVec.toNat_or, nz_toNat]
  rfl

end

theorem performs_btst : Performs .btst 0x0C3 (fun c s => flagsOnly s { c.fl with b := (arg c 0).getLsbD c.h.xf }) :=
  performs_flags (fun _ _ => rfl) fun _ _ _ _ h => by rw [testBit_arg (sees_whole h 0 rfl)]

theorem performs_btstr : Performs .btstr 0x0C7 (fun c s => flagsOnly s { c.fl with b := (arg c 0).getLsbD (c.v 1 % c.w) }) :=
  performs_flags (fun _ _ => rfl) fun _ _ _ _ h => by rw [testBit_arg (sees_whole h 0 rfl)]

theorem performs_bstf : Performs .bstf 0x0D7 (fun c s => ⟨s, [out 0 c.fl.b.toNat], none, .seq, 0⟩) := by
  refine performs_of_body _ (fun _ _ => rfl) fun g s x y h => ?_
  rw [b2n_eq_toNat]

theorem performs_bfxU : Performs .bfxU 0x0E0 (fun c s => takesNZ s c (((arg c 1).extractLsb' c.pos c.len).setWidth c.w)) :=
  performs_takesNZ (fun _ _ => rfl) fun g s x y h => by
    rw [← ofNat_field (sees_whole h 1 rfl)]
    apply BitVec.eq_of_toNat_eq
    rw [BitVec.toNat_setWidth, BitVec.toNat_ofNat, BitVec.toNat_ofNat, In.field, Nat.mod_mod]

theorem performs_bfxS : Performs .bfxS 0x0E1 (fun c s => takesNZ s c (((arg c 1).extractLsb' c.pos c.len).signExtend c.w)) :=
  performs_takesNZ (fun _ _ => rfl) fun g s x y h => by
    rw [ofNat_wrap, signed_eq_toInt (fieldLen_pos _), ofNat_field (sees_whole h 1 rfl)]
    rfl

/-- Settles O4, row by row of Table 36. -/
theorem bitInstructionsWriteTheirBits : Obligations.BitInstructionsWriteTheirBits :=
  ⟨performs_bitTakes (f := fun _ => true) (fun _ _ => rfl) rfl fun _ _ _ _ h => bit_fits h rfl,
   performs_bitTakes (f := fun _ => false) (fun _ _ => rfl) rfl fun _ _ _ _ h => bit_fits h rfl,
   performs_bitTakes (f := not) (fun _ _ => rfl) rfl fun _ _ _ _ h => bit_fits h rfl,
   performs_btst,
   performs_bitTakes (f := fun _ => true) (fun _ _ => rfl) rfl fun _ _ _ _ _ => Nat.mod_lt _ (width_pos _),
   performs_bitTakes (f := fun _ => false) (fun _ _ => rfl) rfl fun _ _ _ _ _ => Nat.mod_lt _ (width_pos _),
   performs_bitTakes (f := not) (fun _ _ => rfl) rfl fun _ _ _ _ _ => Nat.mod_lt _ (width_pos _),
   performs_btstr,
   performs_oneBit fun _ _ => rfl, performs_oneBit fun _ _ => rfl, performs_oneBit fun _ _ => rfl, performs_oneBit fun _ _ => rfl,
   performs_oneBit fun _ _ => rfl, performs_oneBit fun _ _ => rfl,
   performs_flags (fun _ _ => rfl) fun _ _ _ _ _ => rfl,
   performs_bstf, performs_bfxU, performs_bfxS,
   performs_fieldTakes (fun _ _ => rfl) rfl rfl fun _ _ _ _ h => (Nat.mod_eq_of_lt (sees_whole h 1 rfl)).symm,
   performs_fieldTakes (fun _ _ => rfl) rfl rfl fun _ _ _ _ _ => rfl⟩

end Sys2Proof.Proofs
end

section
/-! SUPPORT. A claim about the effect of an issue that fails where the state that the effect carries is at another cycle than the
issue. -/
namespace Sys2Proof.Proofs
open Sys2Proof.Machine Sys2Proof.Laws

/-- The thread is due again after L cycles, counted from the cycle of the state that the effect carries (R66). -/
theorem done_next {x : Issue} {g : Nat} (y : Gathered) (a : Act) (hs : x.step = false) (hp : x.s.pairWith g x.h = none) :
    ((Done x g y a).thr g).next = a.s.cycle + (x.conclude g y a).2 := by
  have cycle : (x.conclude g y a).1.cycle = a.s.cycle := (conclude_still (Still.refl a.s)).cycle
  obtain ⟨-, threads, -, -⟩ := noteIssue_spec (x.conclude g y a).1 g x.spill (x.conclude g y a).2
  rw [Done, close_alone hs hp, threads, if_pos rfl, cycle]

/-- Thread 0 is deterministic (R68). -/
def thread0Deterministic : State := { State.reset with regs := [((Reg.coreTctl 0 0).off, 1)] }

/-- An issue of CLR of 8 bits by thread 0. -/
def clrIssue : Issue := ⟨thread0Deterministic, false, false, ⟨0, 0x004, 0, 0, 1, 0⟩, [0], row1 0x004 szAny s01 .zero [dst]⟩

/-- Its destination: near offset 0. -/
def clrOperands : Gathered :=
  ⟨.start, [.near 0], ⟨0, clrIssue.h, 0, 8, Flags.of 0, [0], [0]⟩, thread0Deterministic⟩

/-- The destination takes 0, in a state one cycle after that of the issue. -/
def clrLater : Act := ⟨{ thread0Deterministic with cycle := thread0Deterministic.cycle + 1 }, [out 0 0], none, .seq, 0⟩

/-- Refutes O17: an effect carries a state of its own, and the note of the issue counts L from the cycle of that state. The claim lacks
the hypothesis that it is the cycle of the issue, as it is for the effect of every body of the model. -/
theorem not_destinationsAndFlagsTakeTheResult : ¬ Obligations.DestinationsAndFlagsTakeTheResult := by
  intro h
  have alone : clrIssue.s.pairWith 0 clrIssue.h = none := by decide
  obtain ⟨-, -, -, -, -, next⟩ := h 0 clrIssue clrOperands clrLater 0 0 8 0 (by decide) rfl alone (by decide) (by decide) (by decide)
    (by decide) (by decide) (by decide) (by decide) rfl rfl rfl (by decide) (by decide)
  rw [done_next clrOperands clrLater rfl alone] at next
  have issued : (clrIssue.conclude 0 clrOperands clrLater).2 = clrIssue.lat 0 clrOperands := rfl
  have later : clrLater.s.cycle = clrIssue.s.cycle + 1 := rfl
  have inSequence : takenCycles clrLater.go = 0 := rfl
  omega

end Sys2Proof.Proofs
end

section
/-! SUPPORT. Locks, waits and event flags (Table 43): what a set and a clear leave of each flag (R141, R205), and each row's effect. -/
namespace Sys2Proof.Proofs
open Sys2Proof.Machine Sys2Proof.Laws

/-! ### Event flags (R141) -/

/-- The record of a flag after a set: a flag that is 0 reads 1 from the next cycle, one that is 1 stays. -/
theorem setFlag_flag (s : State) (c f d e : Nat) : (s.setFlag c f).flag d e =
    if 256 * d + e = 256 * c + f then
      if (s.flag c f).val then { s.flag c f with last := s.cycle + 1 }
      else ⟨true, s.cycle + 1, decide ((s.flag c f).since = s.cycle + 1) && (s.flag c f).old, s.cycle + 1⟩
    else s.flag d e := by
  unfold State.setFlag State.setFlagAt
  dsimp only
  split
  · exact putFlag_flag ..
  · split
    · rename_i same
      rw [putFlag_flag, decide_eq_true same, Bool.true_and]
    · rename_i earlier
      rw [putFlag_flag, decide_eq_false earlier, Bool.false_and]

/-- A set of a flag is of the present cycle. -/
theorem setFlag_cycle (s : State) (c f : Nat) : (s.setFlag c f).cycle = s.cycle := by
  unfold State.setFlag State.setFlagAt
  dsimp only
  repeat' split
  all_goals rfl

/-- The record of a flag after a clear, which loses to a set of the same cycle. -/
theorem clrFlag_flag (s : State) (c f d e : Nat) : (s.clrFlag c f).flag d e =
    if 256 * d + e = 256 * c + f ∧ (s.flag c f).val = true ∧ (s.flag c f).last ≠ s.cycle + 1 then ⟨false, s.cycle + 1, true, 0⟩
    else s.flag d e := by
  unfold State.clrFlag
  dsimp only
  split
  · rename_i set
    split
    · rename_i same
      rw [if_neg fun h => h.2.2 same]
    · rename_i earlier
      rw [putFlag_flag, if_congr (and_iff_left ⟨set, earlier⟩) rfl rfl]
  · rename_i clear
    rw [if_neg fun h => clear h.2.1]

/-- A set shows from the next cycle on; the present cycle still reads the old value (R141). -/
theorem setFlag_reads {s : State} {c f : Nat} (h : (s.flag c f).since ≤ s.cycle) : (s.setFlag c f).flagNow c f = s.flagNow c f ∧
    ∀ n, s.cycle < n → ({ s.setFlag c f with cycle := n } : State).flagNow c f = true := by
  have moved (n : Nat) : ({ s.setFlag c f with cycle := n } : State).flag c f = (s.setFlag c f).flag c f := rfl
  have shown : ¬ s.cycle < (s.flag c f).since := Nat.not_lt.mpr h
  unfold State.flagNow
  simp only [moved, setFlag_cycle, setFlag_flag, if_true]
  cases hv : (s.flag c f).val
  · have first : (s.flag c f).since ≠ s.cycle + 1 := by omega
    refine ⟨by simp [shown, first], fun n hn => ?_⟩
    simp [Nat.not_lt.mpr (Nat.succ_le_of_lt hn)]
  · refine ⟨by simp [shown], fun n hn => ?_⟩
    simp [Nat.not_lt.mpr (h.trans hn.le)]

theorem setFlag_flagSet (s : State) (c f : Nat) : (s.setFlag c f).flagSet c f = true := by
  unfold State.flagSet
  rw [setFlag_flag, if_pos rfl]
  split
  · assumption
  · rfl

/-- A set marks its cycle, so that a clear of the same cycle changes nothing. -/
theorem setFlag_last (s : State) (c f : Nat) : ((s.setFlag c f).flag c f).last = s.cycle + 1 := by
  rw [setFlag_flag, if_pos rfl]
  split <;> rfl

theorem clrFlag_setFlag (s : State) (c f : Nat) : ((s.setFlag c f).clrFlag c f).flagSet c f = true := by
  have kept : ((s.setFlag c f).clrFlag c f).flag c f = (s.setFlag c f).flag c f := by
    rw [clrFlag_flag, if_neg]
    rintro ⟨-, -, earlier⟩
    exact earlier (by rw [setFlag_last, setFlag_cycle])
  exact (congrArg EFlag.val kept).trans (setFlag_flagSet s c f)

theorem clrFlag_flagSet {s : State} {c f : Nat} (h : (s.flag c f).last ≠ s.cycle + 1) : (s.clrFlag c f).flagSet c f = false := by
  unfold State.flagSet
  rw [clrFlag_flag]
  split
  · rfl
  · rename_i clear
    exact Bool.eq_false_iff.mpr fun set => clear ⟨rfl, set, h⟩

/-! ### The rows -/

theorem answers_lockTry (c : In) (s : State) (k g : Nat) : answers c (s.lockTry k g).1 (s.lockTry k g).2 =
    match s.lock k with
    | none => answers c (s.setLock k (some g)) true
    | some _ => answers c s false := by
  unfold State.lockTry
  cases s.lock k <;> rfl

theorem answers_lockRel (c : In) (s : State) (k g : Nat) : answers c (s.lockRel k g).1 (s.lockRel k g).2 =
    if s.lock k = some g then answers c (s.setLock k none) true else answers c s false := by
  unfold State.lockRel
  split <;> rfl

/-- A WAIT for a lock is met where the lock is free (R204). -/
theorem waitMet_lock (s : State) (c : In) (h : natFld c.h.xf 11 10 = 0) :
    s.waitMet c.g (waitTarget c) = (s.lock c.lockAt).isNone := by
  unfold State.waitMet
  dsimp only
  exact if_pos h

theorem lockTry_free {s : State} {k g : Nat} (h : (s.lock k).isNone = true) : (s.lockTry k g).1 = s.setLock k (some g) := by
  unfold State.lockTry
  rw [Option.isNone_iff_eq_none.mp h]

/-- A WAIT that is met takes its lock as LOCK.TRY does (R204). -/
theorem lockTry_met {s : State} {c : In} (h : s.waitMet c.g (waitTarget c) = true) :
    (if natFld c.h.xf 11 10 = 0 then s.setLock c.lockAt (some c.g) else s) =
      if natFld c.h.xf 11 10 = 0 then (s.lockTry c.lockAt c.g).1 else s := by
  split
  · rename_i lock
    exact (lockTry_free (waitMet_lock s c lock ▸ h)).symm
  · rfl

theorem performs_wait : Performs .wait 0x1C2 (fun c s =>
    if s.waitMet c.g (waitTarget c) = true then
      ⟨waitsNoMore (if natFld c.h.xf 11 10 = 0 then s.setLock c.lockAt (some c.g) else s) c.g, [], none, .seq, 0⟩
    else waitsFor s c.g (waitTarget c)) := by
  refine performs_of_body _ (fun _ _ => rfl) fun g s x y _ => ?_
  by_cases met : y.s.waitMet y.c.g (waitTarget y.c) = true
  · rw [if_pos met, lockTry_met met]
    exact if_pos met
  · rw [if_neg met]
    exact if_neg met

/-- Settles O9, row by row of Table 43, and the rules of R141 by the record of a flag after a set and after a clear. -/
theorem locksWaitsAndFlagsFollowTheirUnits : Obligations.LocksWaitsAndFlagsFollowTheirUnits := by
  refine ⟨?_, ?_, performs_wait, ?_, ?_, ?_, fun s c f h => setFlag_reads h,
    fun s c f => ⟨setFlag_flagSet s c f, clrFlag_setFlag s c f, clrFlag_flagSet⟩, fun s c f c' f' other => ⟨?_, ?_⟩⟩
  · exact performs_of_body _ (fun _ _ => rfl) fun _ _ _ y _ => congrArg Except.ok (answers_lockTry y.c y.s _ _)
  · exact performs_of_body _ (fun _ _ => rfl) fun _ _ _ y _ => congrArg Except.ok (answers_lockRel y.c y.s _ _)
  · exact performs_of_body _ (fun _ _ => rfl) fun _ _ _ _ _ => rfl
  · exact performs_of_body _ (fun _ _ => rfl) fun _ _ _ _ _ => rfl
  · exact performs_of_body _ (fun _ _ => rfl) fun _ _ _ _ _ => rfl
  · rw [setFlag_flag, if_neg other.symm]
  · rw [clrFlag_flag, if_neg fun h => other.symm h.1]

end Sys2Proof.Proofs
end

section
/-! SUPPORT. Sheaves (Table 73): the contexts and memberships that an abort and the conflicts of a complete generation leave as they
are, what opening, joining and closing do, and the status word. -/
namespace Sys2Proof.Proofs
open Sys2Proof.Machine Sys2Proof.Laws

/-! ### Aborts (R228, R234) -/

theorem unreserve_ctxs (s : State) (l : List (Nat × DWord)) : (s.unreserve l).ctxs = s.ctxs := by
  unfold State.unreserve
  exact each_keep State.ctxs (fun t a => setPsq_ctxs t a.1 _) s l

theorem unreserve_threads (s : State) (l : List (Nat × DWord)) : (s.unreserve l).threads = s.threads := by
  unfold State.unreserve
  exact each_keep State.threads (fun t a => setPsq_threads t a.1 _) s l

theorem report_ctxs (s : State) (code skind sidx : Nat) (da db : Word) (reh : Bool) :
    (s.report code skind sidx da db reh).ctxs = s.ctxs := by
  unfold State.report
  split <;> rfl

theorem report_threads (s : State) (code skind sidx : Nat) (da db : Word) (reh : Bool) :
    (s.report code skind sidx da db reh).threads = s.threads := by
  unfold State.report
  split <;> rfl

/-- An abort stores one context. -/
theorem abort_ctxs (s : State) (x out line : Nat) :
    ∃ t c, t.ctxs = s.ctxs ∧ (s.abort x out line).ctxs = (State.setCtx t x c).ctxs := by
  have freed := unreserve_ctxs (s.releaseLines x) (s.ctx x).held
  simp only [State.abort, State.bump, State.setCres, report_ctxs, setReg_ctxs]
  exact ⟨_, _, freed, rfl⟩

/-- An abort changes no other context. -/
theorem abort_ctx (s : State) (x out line : Nat) {y : Nat} (h : y ≠ x) : (s.abort x out line).ctx y = s.ctx y := by
  obtain ⟨t, c, same, ctxs⟩ := abort_ctxs s x out line
  calc (s.abort x out line).ctx y = (t.setCtx x c).ctx y := congrArg (Tab.get _ · y) ctxs
    _ = t.ctx y := (setCtx_ctx t x y c).trans (if_neg h)
    _ = s.ctx y := congrArg (Tab.get _ · y) same

/-- An abort leaves the memberships to their threads (R220). -/
theorem abort_thr (s : State) (x out line g : Nat) : (s.abort x out line).thr g = s.thr g := by
  have threads : (s.abort x out line).threads = s.threads := by
    simp only [State.abort, State.bump, State.setCres, State.discardHeld, report_threads, setReg_threads, setCtx_threads,
      unreserve_threads]
    rfl
  exact congrArg (Tab.get _ · g) threads

/-- What every abort of a context other than `x` keeps, the conflicts of `x` keep. -/
theorem conflicts_keep {β : Type} (π : State → β) (s : State) (x : Nat)
    (h : ∀ t y l, y ≠ x → π (t.abort y 4 l) = π t) : π (s.conflicts x) = π s := by
  unfold State.conflicts
  split
  · rfl
  · refine each_keep π (fun t y => ?_) s s.ctxList
    split
    · rfl
    · rename_i other
      dsimp only
      split
      · rfl
      · exact h _ _ _ fun same => other (.inl same)

theorem conflicts_ctx (s : State) (x : Nat) : (s.conflicts x).ctx x = s.ctx x :=
  conflicts_keep (fun t => t.ctx x) s x fun t y l h => abort_ctx t y 4 l h.symm

theorem conflicts_thr (s : State) (x g : Nat) : (s.conflicts x).thr g = s.thr g :=
  conflicts_keep (fun t => t.thr g) s x fun t y l _ => abort_thr t y 4 l g

/-! ### Opening and joining (Table 73) -/

/-- A thread with a membership, an ineligible one, or one with four swath sheaves is refused. -/
theorem sheafJoin_refused {s : State} {g x : Nat} (start : Bool)
    (h : (s.thr g).mem ≠ none ∨ s.eligible g x = false ∨ 4 ≤ s.sheafCount g) : s.sheafJoin g x start = (s, false) := by
  have refused : (s.thr g).mem.isSome = true ∨ ¬ s.eligible g x = true ∨ s.sheafCount g ≥ 4 :=
    h.imp Option.isSome_iff_ne_none.mpr (Or.imp_left Bool.eq_false_iff.mp)
  unfold State.sheafJoin
  exact if_pos refused

/-- The generation that opens a context, with one member. -/
def firstGeneration (s : State) (g x : Nat) : Ctx :=
  { s.ctx x with st := .opened, gen := (s.ctx x).gen + 1, uid := (s.ctx x).uid + 1, joined := 1, closed := 0,
                 reh := s.mode == .rehearse, members := [g], cyc := s.cycle, held := [] }

/-- Any other thread opens a FREE context by SHEAF.OPEN alone, or joins an OPEN one with room. -/
theorem sheafJoin_admits {s : State} {g x : Nat} (start : Bool) (hm : (s.thr g).mem = none) (he : s.eligible g x = true)
    (hn : s.sheafCount g < 4) :
    s.sheafJoin g x start =
      if (s.ctx x).st = .free then
        if start = true ∧ s.rb (.shfCtx x) 31 = true then
          ((s.setCtx x (firstGeneration s g x)).setThr g { s.thr g with mem := some (x, (s.ctx x).uid + 1) }, true)
        else (s, false)
      else if (s.ctx x).st = .opened ∧ (s.ctx x).joined < s.ctxExp x then
        ((s.setCtx x { s.ctx x with joined := (s.ctx x).joined + 1, members := (s.ctx x).members ++ [g] }).setThr g
          { s.thr g with mem := some (x, (s.ctx x).uid) }, true)
      else (s, false) := by
  have admitted : ¬ ((s.thr g).mem.isSome = true ∨ ¬ s.eligible g x = true ∨ s.sheafCount g ≥ 4) := by
    simp [hm, he, hn]
  unfold State.sheafJoin
  exact if_neg admitted

/-- The context and the thread after a change of both. -/
theorem member_ctx (s : State) (x g : Nat) (c : Ctx) (t : Thread) : ((s.setCtx x c).setThr g t).ctx x = c :=
  (setCtx_ctx s x x c).trans (if_pos rfl)

theorem member_thr (s : State) (x g : Nat) (c : Ctx) (t : Thread) : ((s.setCtx x c).setThr g t).thr g = t :=
  (setThr_thr _ g g t).trans (if_pos rfl)

/-! ### Closing (R228) -/

/-- A close of a member in an OPEN generation counts, and the last one makes it COMPLETE. -/
theorem sheafClose_counts {s : State} {g x : Nat} (hm : (s.thr g).mem = some (x, (s.ctx x).uid)) (ho : (s.ctx x).st = .opened) :
    ((s.sheafClose g x).1.thr g).mem = none ∧ (s.sheafClose g x).2 = true ∧
    ((s.sheafClose g x).1.ctx x).closed = (s.ctx x).closed + 1 ∧
    ((s.sheafClose g x).1.ctx x).st = if (s.ctx x).closed + 1 = s.ctxExp x then .complete else .opened := by
  have left (c : Ctx) : ((s.setThr g { s.thr g with mem := none }).setCtx x c).thr g = { s.thr g with mem := none } :=
    (setThr_thr s g g _).trans (if_pos rfl)
  have counted (c : Ctx) : ((s.setThr g { s.thr g with mem := none }).setCtx x c).ctx x = c := (setCtx_ctx _ x x c).trans (if_pos rfl)
  have room (t : Thread) : (s.setThr g t).ctxExp x = s.ctxExp x := rfl
  unfold State.sheafClose
  simp only [hm, ho, ne_eq, not_true_eq_false, if_false, and_self, if_true, room]
  by_cases last : (s.ctx x).closed + 1 = s.ctxExp x
  · simp only [if_pos last, conflicts_ctx, conflicts_thr, left, counted, and_self]
  · simp only [if_neg last, left, counted, and_self]

/-! ### The status word (SHF_CST) -/

/-- A number put above another of `n` bits. -/
theorem shiftLeft_or_eq {n b : Nat} (a : Nat) (h : b < 2 ^ n) : a <<< n ||| b = a * 2 ^ n + b := by
  rw [← Nat.shiftLeft_add_eq_or_of_lt h, Nat.shiftLeft_eq]

theorem code_lt (st : CtxSt) : st.code < 4 := by cases st <;> decide

/-- The fields of the status word lie side by side. -/
theorem toNat_cstWord {s : State} {x : Nat} (hj : (s.ctx x).joined < 1024) (hc : (s.ctx x).closed < 1024) :
    (s.cstWord x).toNat = (s.ctx x).st.code * 2 ^ 29 + ((s.ctx x).reh.toNat * 2 ^ 28 +
      ((s.ctx x).joined * 2 ^ 18 + ((s.ctx x).closed * 2 ^ 8 + (s.ctx x).gen.toNat))) := by
  have gen := (s.ctx x).gen.isLt
  have reh := Bool.toNat_lt (s.ctx x).reh
  have code := code_lt (s.ctx x).st
  unfold State.cstWord
  dsimp only
  rw [Nat.or_assoc, Nat.or_assoc, Nat.or_assoc, shiftLeft_or_eq _ gen, shiftLeft_or_eq (n := 18) _ (by omega), b2n_eq_toNat,
    shiftLeft_or_eq (n := 28) _ (by omega), shiftLeft_or_eq (n := 29) _ (by omega), BitVec.toNat_ofNat, Nat.mod_eq_of_lt (by omega)]

theorem fld_cstWord {s : State} {x : Nat} (hj : (s.ctx x).joined < 1024) (hc : (s.ctx x).closed < 1024) :
    fld (s.cstWord x) 31 29 = (s.ctx x).st.code ∧ fld (s.cstWord x) 28 28 = (s.ctx x).reh.toNat ∧
    fld (s.cstWord x) 27 18 = (s.ctx x).joined ∧ fld (s.cstWord x) 17 8 = (s.ctx x).closed ∧
    fld (s.cstWord x) 7 0 = (s.ctx x).gen.toNat := by
  have gen := (s.ctx x).gen.isLt
  have reh := Bool.toNat_lt (s.ctx x).reh
  have code := code_lt (s.ctx x).st
  simp only [fld, natFld, toNat_cstWord hj hc, Nat.shiftRight_eq_div_pow]
  omega

/-! ### The rows -/

/-- An instruction that a unit grants or refuses performs the unit's answer. -/
theorem performs_answers {cmd : Tid → Instr} {op : Nat} {f : In → State → State × Bool}
    (hc : ∀ g s, exec (cmd g) s = .next (s.asking g.toNat op f)) : Performs cmd op fun c s => answers c (f c s).1 (f c s).2 :=
  performs_of_body _ hc fun _ _ _ _ _ => rfl

/-- Settles O12: the rows are answers of the sheaf unit, which `sheafJoin_refused`, `sheafJoin_admits` and `sheafClose_counts` give. -/
theorem sheafMembershipFollowsTable73 : Obligations.SheafMembershipFollowsTable73 := by
  refine ⟨performs_answers fun _ _ => rfl, performs_answers fun _ _ => rfl, performs_answers fun _ _ => rfl,
    performs_of_body _ (fun _ _ => rfl) fun _ _ _ _ _ => rfl, fun s g x start h => sheafJoin_refused start h,
    fun s g x start hm he hn => ⟨fun free opens enabled => ?_, fun opened room => ?_, fun free joins => ?_⟩,
    fun s g x hm ho => sheafClose_counts hm ho, fun s x c hx hj hc => ?_⟩
  · rw [sheafJoin_admits start hm he hn, if_pos free, if_pos ⟨opens, enabled⟩, member_ctx, member_thr]
    exact ⟨rfl, rfl, rfl⟩
  · have taken : (s.ctx x).st ≠ .free := by rw [opened]; decide
    rw [sheafJoin_admits start hm he hn, if_neg taken, if_pos ⟨opened, room⟩, member_ctx, member_thr]
    exact ⟨rfl, rfl, rfl⟩
  · rw [sheafJoin_admits start hm he hn, if_pos free, if_neg fun h => Bool.eq_false_iff.mp joins h.1]
  · subst hx
    exact fld_cstWord hj hc

end Sys2Proof.Proofs
end

section
/-! SUPPORT. Multiply, accumulate and divide (Table 39): products, sums and quotients as words, and each row's effect. -/
namespace Sys2Proof.Proofs
open Sys2Proof.Machine Sys2Proof.Laws

/-! ### Products (R130, R152) -/

theorem prodS_eq (c : In) (i j : Nat) : c.prodS i j = (arg c i).toInt * (arg c j).toInt := by
  rw [In.prodS, signed_arg, signed_arg]

/-- The high half of a product of 128 bits. -/
theorem ofNat_high (i : Int) : BitVec.ofNat 64 (wrap 128 i / 2 ^ 64) = BitVec.ofInt 64 (i / 2 ^ 64) := by
  apply BitVec.eq_of_toNat_eq
  rw [BitVec.toNat_ofNat, BitVec.toNat_ofInt, wrap]
  omega

theorem ofNat_low (w n : Nat) : BitVec.ofNat w (n % 2 ^ w) = BitVec.ofNat w n :=
  BitVec.eq_of_toNat_eq (by rw [BitVec.toNat_ofNat, BitVec.toNat_ofNat, Nat.mod_mod])

section
variable {cmd : Tid → Instr} {op : Nat}

/-- An instruction that leaves a product in P, with N and Z of all of it. -/
theorem performs_productIs {f : In → Nat} {v : In → Flags → Bool} {p : In → DWord} {b : In → Bool}
    (hc : ∀ g s, exec (cmd g) s = .next (s.mulOp g.toNat op f v)) (hp : ∀ c, BitVec.ofNat 64 (f c) = p c)
    (hv : ∀ c, v c c.fl = b c) : Performs cmd op fun c s => productIs s c (p c) (b c) := by
  refine performs_of_body _ hc fun g s x y _ => ?_
  dsimp only
  rw [hp, hv, nz_eq (by decide), hp]
  rfl

/-! ### Sums (R130, R153) -/

theorem ofNat_toNat_same {w : Nat} (a : BitVec w) : BitVec.ofNat w a.toNat = a := by rw [BitVec.ofNat_toNat, BitVec.setWidth_eq]

theorem signed_toNat {w : Nat} (hw : 0 < w) (a : BitVec w) : signed w a.toNat = a.toInt := by
  rw [signed_eq_toInt hw, ofNat_toNat_same]

/-- An instruction that adds to ACC. -/
theorem performs_accumulates {k i : In → Int} (hc : ∀ g s, exec (cmd g) s = .next (s.macOp g.toNat op k)) (hk : ∀ c, k c = i c) :
    Performs cmd op fun c s => accumulates s c (i c) := by
  refine performs_of_body _ hc fun g s x y _ => ?_
  have sum : BitVec.ofInt 80 ((y.s.thr y.c.g).acc.toInt + i y.c) = (y.s.thr y.c.g).acc + BitVec.ofInt 80 (i y.c) := by
    rw [BitVec.ofInt_add, BitVec.ofInt_toInt]
  dsimp only
  rw [hk, signed_toNat (by decide), ofNat_wrap, wrap_eq_toNat, nz_toNat, decide_ne_toInt (by decide), sum]
  rfl

end

theorem performs_muld : Performs .muld 0x145 (fun c s => ⟨s.setThr c.g { s.thr c.g with p := BitVec.ofNat 64 (c.v 1 * c.v 2) },
    [out 0 (arg c 1 * arg c 2).toNat], some (productFlags c (arg c 1) (arg c 2)), .seq, 0⟩) := by
  refine performs_of_body _ (fun _ _ => rfl) fun g s x y h => ?_
  have low : y.c.prodU 1 2 % 2 ^ y.c.w = (arg y.c 1 * arg y.c 2).toNat := by
    rw [arg, arg, ← BitVec.ofNat_mul, BitVec.toNat_ofNat]
    rfl
  have signedLow : BitVec.ofInt y.c.w (y.c.prodS 1 2) = arg y.c 1 * arg y.c 2 := by
    rw [prodS_eq, BitVec.ofInt_mul, BitVec.ofInt_toInt, BitVec.ofInt_toInt]
  have whole (i : Nat) (hi : seesWhole 0x145 i = true) : (arg y.c i).toNat = y.c.v i := Nat.mod_eq_of_lt (sees_whole h i hi)
  dsimp only
  rw [low, nz_toNat, decide_ne_toInt (width_pos _), signedLow, prodS_eq, productFlags, whole 1 rfl, whole 2 rfl]
  rfl

theorem performs_accX : Performs .accX 0x14D (fun c s => takesS s c c.w (((s.thr c.g).acc.toInt +
    (if c.h.xf.testBit 7 ∧ 0 < natFld c.h.xf 6 0 then 2 ^ (natFld c.h.xf 6 0 - 1) else 0)) / 2 ^ natFld c.h.xf 6 0)) := by
  refine performs_of_body _ (fun _ _ => rfl) fun g s x y _ => ?_
  dsimp only
  rw [signed_toNat (by decide), satS_eq (width_pos _)]
  push_cast
  rfl

/-! ### Quotients (R132) -/

/-- The results of a division, as words. -/
theorem quotientIs_eq {s : State} {c : In} {r : Nat × Nat × Bool} {n : BitVec c.w} {q rem : DWord} {v : Bool}
    (hq : BitVec.ofNat 64 r.1 = q) (hn : BitVec.ofNat c.w r.1 = n) (hr : BitVec.ofNat 64 r.2.1 = rem) (hv : r.2.2 = v) :
    (⟨s.setThr c.g { s.thr c.g with q := BitVec.ofNat 64 r.1, rem := BitVec.ofNat 64 r.2.1 }, [],
      some { c.fl.nz c.w (r.1 % 2 ^ c.w) with v := r.2.2 }, .stay, 0⟩ : Act) = quotientIs s c n q rem v := by
  rw [hq, hr, hv, nz_eq (width_pos c), ofNat_low, hn]
  rfl

/-- An integer at `w` bits, extended to 64. -/
theorem wrap_signed {w : Nat} (hw : 0 < w) (i : Int) : wrap 64 (signed w (wrap w i)) = ((BitVec.ofInt w i).signExtend 64).toNat := by
  rw [wrap_eq_toNat w, signed_toNat hw, wrap_eq_toNat]
  rfl

theorem ofNat_signExtend {w n : Nat} (hw : w ≤ n) (a : BitVec w) : BitVec.ofNat w (a.signExtend n).toNat = a := by
  rw [BitVec.ofNat_toNat]
  ext i hi
  simp [BitVec.getElem_signExtend, hi, hi.trans_le hw]

/-- The quotient of a signed division by 0, by the sign of the dividend. -/
theorem ofInt_noQuotient {w : Nat} (hw : 0 < w) (a : BitVec w) :
    BitVec.ofInt w (if 0 ≤ a.toInt then (2 ^ (w - 1) : Nat) - 1 else -(2 ^ (w - 1) : Nat)) = noQuotient a := by
  have sign : a.msb = true ↔ ¬ 0 ≤ a.toInt := by
    rw [BitVec.msb_eq_true_iff_two_mul_ge, ge_iff_le, ← BitVec.toInt_neg_iff, not_le]
  unfold noQuotient
  by_cases positive : 0 ≤ a.toInt
  · rw [if_pos positive, if_neg fun h => sign.mp h positive, ← BitVec.ofInt_toInt (x := BitVec.intMax w), BitVec.toInt_intMax]
    push_cast
    rfl
  · rw [if_neg positive, if_pos (sign.mpr positive), ← BitVec.ofInt_toInt (x := BitVec.intMin w), BitVec.toInt_intMin_of_pos hw]
    push_cast
    rfl

theorem ofInt_tdiv {w : Nat} (a b : BitVec w) : BitVec.ofInt w (a.toInt.tdiv b.toInt) = a.sdiv b :=
  BitVec.eq_of_toInt_eq (by rw [BitVec.toInt_ofInt, BitVec.toInt_sdiv])

theorem ofInt_tmod {w : Nat} (a b : BitVec w) : BitVec.ofInt w (a.toInt.tmod b.toInt) = a.srem b := by
  rw [← BitVec.toInt_srem, BitVec.ofInt_toInt]

/-- The one quotient that does not fit is that of the lowest value by −1 (R132). -/
theorem tdiv_fits {w : Nat} (hw : 0 < w) (a b : BitVec w) :
    (!fitsS w (a.toInt.tdiv b.toInt)) = (a == BitVec.intMin w && b == BitVec.allOnes w) := by
  have half : (0 : Int) < 2 ^ (w - 1) := by positivity
  rw [decide_ne_toInt hw, ofInt_tdiv, Bool.eq_iff_iff, decide_eq_true_eq, Bool.and_eq_true, beq_iff_eq, beq_iff_eq,
    ← BitVec.neg_one_eq_allOnes]
  constructor
  · intro differs
    by_contra other
    exact differs (BitVec.toInt_sdiv_of_ne_or_ne a b (not_and_or.mp other))
  · rintro ⟨rfl, rfl⟩
    rw [BitVec.intMin_sdiv_neg_one, BitVec.neg_one_eq_allOnes, BitVec.toInt_allOnes, if_pos hw, BitVec.toInt_intMin_of_pos hw,
      Int.tdiv_neg, Int.tdiv_one]
    omega

/-- Unsigned division, as words. -/
theorem divRes_unsigned {w a b : Nat} (ha : a < 2 ^ w) (hb : b < 2 ^ w) : divRes w false a b =
    if b = 0 then ((BitVec.allOnes w).toNat, (BitVec.ofNat w a).toNat, true)
    else ((BitVec.ofNat w a / BitVec.ofNat w b).toNat, (BitVec.ofNat w a % BitVec.ofNat w b).toNat, false) := by
  rw [BitVec.toNat_allOnes, BitVec.toNat_udiv, BitVec.toNat_umod, BitVec.toNat_ofNat, BitVec.toNat_ofNat, Nat.mod_eq_of_lt ha,
    Nat.mod_eq_of_lt hb]
  rfl

/-- Signed division, as words extended to 64 bits. -/
theorem divRes_signed {w : Nat} (hw : 0 < w) (a b : Nat) : divRes w true a b =
    if b = 0 then (((noQuotient (BitVec.ofNat w a)).signExtend 64).toNat, ((BitVec.ofNat w a).signExtend 64).toNat, true)
    else ((((BitVec.ofNat w a).sdiv (BitVec.ofNat w b)).signExtend 64).toNat,
      (((BitVec.ofNat w a).srem (BitVec.ofNat w b)).signExtend 64).toNat,
      BitVec.ofNat w a == BitVec.intMin w && BitVec.ofNat w b == BitVec.allOnes w) := by
  unfold divRes
  simp only [if_true, signed_eq_toInt hw a, signed_eq_toInt hw b, wrap_signed hw, ofInt_noQuotient hw, BitVec.ofInt_toInt, ofInt_tdiv,
    ofInt_tmod, tdiv_fits hw]

theorem performs_divU : Performs .divU 0x150 (fun c s =>
    if c.v 1 = 0 then quotientIs s c (BitVec.allOnes c.w) ((BitVec.allOnes c.w).setWidth 64) ((arg c 0).setWidth 64) true
    else quotientIs s c (arg c 0 / arg c 1) ((arg c 0 / arg c 1).setWidth 64) ((arg c 0 % arg c 1).setWidth 64) false) := by
  refine performs_of_body _ (fun _ _ => rfl) fun g s x y h => congrArg Except.ok ?_
  rw [divRes_unsigned (sees_whole h 0 rfl) (sees_whole h 1 rfl)]
  by_cases zero : y.c.v 1 = 0
  · rw [if_pos zero, if_pos zero]
    exact quotientIs_eq (BitVec.ofNat_toNat ..) (ofNat_toNat_same _) (BitVec.ofNat_toNat ..) rfl
  · rw [if_neg zero, if_neg zero]
    exact quotientIs_eq (BitVec.ofNat_toNat ..) (ofNat_toNat_same _) (BitVec.ofNat_toNat ..) rfl

theorem performs_divS : Performs .divS 0x151 (fun c s =>
    if c.v 1 = 0 then quotientIs s c (noQuotient (arg c 0)) ((noQuotient (arg c 0)).signExtend 64) ((arg c 0).signExtend 64) true
    else quotientIs s c ((arg c 0).sdiv (arg c 1)) (((arg c 0).sdiv (arg c 1)).signExtend 64)
      (((arg c 0).srem (arg c 1)).signExtend 64) (arg c 0 == BitVec.intMin c.w && arg c 1 == BitVec.allOnes c.w)) := by
  refine performs_of_body _ (fun _ _ => rfl) fun g s x y h => congrArg Except.ok ?_
  have width := width_le h rfl
  rw [divRes_signed (width_pos _)]
  by_cases zero : y.c.v 1 = 0
  · rw [if_pos zero, if_pos zero]
    exact quotientIs_eq (ofNat_toNat_same _) (ofNat_signExtend width _) (ofNat_toNat_same _) rfl
  · rw [if_neg zero, if_neg zero]
    exact quotientIs_eq (ofNat_toNat_same _) (ofNat_signExtend width _) (ofNat_toNat_same _) rfl

/-! ### The end of a division (R148, R156) -/

/-- The end check changes the PC and the loops alone (R128). -/
theorem endCheck_keeps {α : Type} (π : Thread → α) (hp : ∀ t pc, π { t with pc := pc } = π t)
    (hl : ∀ t i l, π (Thread.setLoop t i l) = π t) (lcfg : Nat) (nxt : Word) (ls : List Nat) (t : Thread) :
    π (endCheck lcfg nxt ls t) = π t := by
  induction ls generalizing t with
  | nil => exact hp t nxt
  | cons i ls ih =>
    unfold endCheck
    dsimp only
    split
    · split
      · exact (ih _).trans (hl ..)
      · exact (hp ..).trans (hl ..)
    · exact ih t

/-- What a DIV writes when it ends. -/
def divWords (t : Thread) : DWord × DWord × Word × Option DivPend := (t.q, t.rem, t.flg, t.div)

theorem divWords_endCheck (lcfg : Nat) (nxt : Word) (ls : List Nat) (t : Thread) :
    divWords (endCheck lcfg nxt ls t) = divWords t := by
  refine endCheck_keeps divWords (fun _ _ => rfl) (fun t i l => ?_) lcfg nxt ls t
  unfold Thread.setLoop
  repeat' split
  all_goals rfl

theorem finishDiv_writes {g : Nat} {s : State} {d : DivPend} (h : (s.thr g).div = some d) (hc : d.doneAt ≤ s.cycle) (hu : d.upd = []) :
    divWords ((s.finishDiv g).thr g) = (d.q, d.rem, d.flg.getD (s.thr g).flg, none) := by
  unfold State.finishDiv State.goOn
  simp only [h, if_pos hc, hu, setThr_thr, if_true]
  rw [divWords_endCheck]
  exact congrArg divWords ((setThr_thr s g g _).trans (if_pos rfl))

/-- Settles O6, row by row of Table 39, and the end of a DIV. -/
theorem multiplyAndDivideWriteTheirRegisters : Obligations.MultiplyAndDivideWriteTheirRegisters := by
  refine ⟨performs_productIs (fun _ _ => rfl) (fun _ => rfl) fun _ => rfl,
    performs_productIs (fun _ _ => rfl) (fun c => ?_) fun _ => rfl,
    performs_productIs (fun _ _ => rfl) (fun c => ofNat_low 64 _) fun c => ?_,
    performs_productIs (fun _ _ => rfl) (fun _ => rfl) fun _ => rfl,
    performs_productIs (fun _ _ => rfl) (fun c => ?_) fun _ => rfl, performs_muld,
    performs_accumulates (fun _ _ => rfl) fun c => Nat.cast_mul _ _, performs_accumulates (fun _ _ => rfl) fun c => prodS_eq c 0 1,
    performs_accumulates (fun _ _ => rfl) fun c => congrArg Neg.neg (Nat.cast_mul _ _),
    performs_accumulates (fun _ _ => rfl) fun c => congrArg Neg.neg (prodS_eq c 0 1),
    performs_of_body _ (fun _ _ => rfl) fun _ _ _ _ _ => rfl, performs_accX, performs_divU, performs_divS, fun g s d h hc hu => ?_⟩
  · rw [ofNat_wrap, prodS_eq]
  · rw [decide_ne_toInt (by decide), prodS_eq]
  · rw [ofNat_high, prodS_eq]
  · have words := finishDiv_writes h hc hu
    simp only [divWords, Prod.mk.injEq] at words
    exact words

end Sys2Proof.Proofs
end

section
/-! SUPPORT. Three claims that fail only on states that no run reaches: a window of the Gleaner past the end of its region, in a COPY
that meets an error (R191, R193) and at the end of a wipe (R198), and an event flag that is 0 with a set of the present cycle noted
(R141). -/
namespace Sys2Proof.Proofs
open Sys2Proof.Machine Sys2Proof.Laws

/-- The Gleaner is about to copy a window of secure RAM that lies past its end, where the memory map has nothing; the first granule
there holds an uncorrectable error. -/
def copiesPastSecureRam : State :=
  { State.reset with
    regs := [((Reg.cpxGctl).off, 0x40)], ecc := [(0x590000, .bad)],
    gleaner := { Gleaner.reset with reg := 6, win := 256 } }

/-- Refutes O46: the uncorrectable error ends the copy, but a granule in no region is not recorded in CPX_UEREC: the claim lacks the
hypothesis that the window lies in its region. -/
theorem not_theGleanerLeavesContentsAlone : ¬ Obligations.TheGleanerLeavesContentsAlone := by
  intro h
  obtain ⟨copy, -⟩ := h
  obtain ⟨t, he, -, -, -, -, -, -, -, -, ends⟩ :=
    copy 0 copiesPastSecureRam (by decide) (by decide) (by unfold WindowFits; decide) (by decide)
  have valid : t.rb .cpxUerec 31 = true := (ends (by decide) (by decide +kernel)).2.1
  have unrecorded : readAfter (·.rb .cpxUerec 31) .gleanerCopy copiesPastSecureRam = false := by decide +kernel
  rw [readAfter_of_next _ he, valid] at unrecorded
  cases unrecorded

/-- MCTL of mover 0 has EN = 1 and TRIG = 0b01 with SFLAG 0; flag 0 of its cluster still reads 1, is 0 after the present cycle, and
yet notes a set of the present cycle. -/
def startsByClearedFlag : State :=
  { State.reset with
    mode := .run, ram := [(sharedKey 0 (moverBlk 0 0) + 3, 0xA0)],
    flags := [(0, { val := false, since := 1, old := true, last := 1 })] }

/-- Refutes O47: a clear leaves a flag that is 0 already as it is, whatever set it notes: the claim lacks the hypothesis that a flag
that notes a set of the present cycle is 1. -/
theorem not_moversCopyTheirDescriptors : ¬ Obligations.MoversCopyTheirDescriptors := by
  intro h
  obtain ⟨-, start, -⟩ := h
  obtain ⟨t, he, -, noted, -⟩ := start 0 _ _ startsByClearedFlag rfl rfl (by decide) (by decide) (by decide) (by decide)
    (by unfold ControlClean; decide) (by unfold WindowFits; decide)
  have clear : readAfter (·.flagSet 0 0) (.moverFlagStart 0) startsByClearedFlag = false := by decide
  have set : t.flagSet 0 0 = true := noted
  rw [readAfter_of_next _ he, set] at clear
  cases clear

/-- A wipe is at its end while the Gleaner tests a window that it takes for secure RAM though it lies past the end; the shadow holds
the byte 1 of that window. -/
def wipesUnderTest : State :=
  { State.reset with
    regs := [((Reg.cpxSwipe).off, 0x40000000)], ram := [(gshadowKey 0, 1)],
    gleaner := { Gleaner.reset with ph := .test, reg := 6, win := 256 } }

/-- Refutes O49: the wipe also clears the shadow of a window of region 6, though the bytes that it serves here are not secure RAM's:
the claim lacks the hypothesis that the window lies in its region. -/
theorem not_powerSupplyAndWipeEventsAct : ¬ Obligations.PowerSupplyAndWipeEventsAct := by
  intro h
  obtain ⟨-, -, -, -, -, -, -, -, -, -, -, -, -, -, wipe⟩ := h
  obtain ⟨t, he, kept, -⟩ := wipe 0x590000 wipesUnderTest (by decide) (by unfold WindowFits; decide) (by decide)
  have zeroed : readAfter (·.byteAt 0x590000) .wipeComplete wipesUnderTest = 0 := by decide
  have before : t.byteAt 0x590000 = 1 := kept
  rw [readAfter_of_next _ he, before] at zeroed
  cases zeroed

end Sys2Proof.Proofs
end

section
/-! SUPPORT. Slew units and the watchdog of Commons time (R248, R253): what each does when it is due. -/
namespace Sys2Proof.Proofs
open Sys2Proof.Machine Sys2Proof.Laws

/-! ### Slew units (R248) -/

/-- A remainder moves one unit toward 0 within its register. -/
theorem toInt_slewed {w : Word} (h : w.toInt ≠ 0) : (BitVec.ofInt 32 (w.toInt - w.toInt.sign)).toInt = w.toInt - w.toInt.sign := by
  have below := w.toInt_lt
  have above := w.le_toInt
  rw [BitVec.toInt_ofInt]
  refine Int.bmod_eq_of_le ?_ ?_
  all_goals
    rcases Int.lt_or_gt_of_ne h with neg | pos
    · rw [Int.sign_eq_neg_one_of_neg neg]
      omega
    · rw [Int.sign_eq_one_of_pos pos]
      omega

theorem slewUnit_due {s : State} (ha : Answers s) (hr : s.slew ≠ 0) (hc : s.rf .cmnSlewper 15 0 ≤ s.commons.slewCnt)
    (hu : s.commons.u = 0) : exec .slewUnit s = .next
      { s.setReg .cmnSlew (BitVec.ofInt 32 (s.slew - s.slew.sign)) with commons := { s.commons with u := s.slew.sign, slewCnt := 0 } } := by
  obtain ⟨on, answering⟩ := ha
  have due : ¬ (s.mode = .off ∨ s.mode = .retain ∨ s.slew = 0 ∨ s.commons.slewCnt < s.rf .cmnSlewper 15 0 ∨ s.commons.u ≠ 0) := by
    simp [on, answering, hr, hu, hc]
  have unit : (if s.slew > 0 then (1 : Int) else -1) = s.slew.sign := by
    rcases Int.lt_or_gt_of_ne hr with neg | pos
    · rw [if_neg (Int.not_lt.mpr neg.le), Int.sign_eq_neg_one_of_neg neg]
    · rw [if_pos pos, Int.sign_eq_one_of_pos pos]
  rw [← unit]
  exact if_neg due

theorem slewUnit_idle {s : State} (h : ¬ Answers s ∨ s.slew = 0 ∨ s.commons.slewCnt < s.rf .cmnSlewper 15 0 ∨ s.commons.u ≠ 0) :
    Idle .slewUnit s := by
  refine if_pos ?_
  rcases h with silent | rest
  · rcases not_and_or.mp silent with off | retain
    · exact .inl (not_not.mp off)
    · exact .inr (.inl (not_not.mp retain))
  · exact .inr (.inr rest)

/-! ### The watchdog (R253) -/

/-- A bit outside a field leaves the field. -/
theorem fld_setBit_outside {w : Word} {hi lo i : Nat} (b : Bool) (hh : hi < 32) (h : i < lo ∨ hi < i) :
    fld (setBit w i b) hi lo = fld w hi lo := by
  refine Nat.eq_of_testBit_eq fun j => ?_
  rw [testBit_fld, testBit_fld]
  by_cases inside : j < hi + 1 - lo
  · rw [bit_setBit b (by omega), if_neg (by omega)]
  · rw [decide_eq_false inside, Bool.false_and, Bool.false_and]

theorem watchdogDue_iff (s : State) : s.watchdogDue = true ↔ Answers s ∧ s.rb .cmnSync 31 = true ∧ s.rb .cmnSync 30 = true ∧
    16000 * s.rf .cmnSync 23 0 ≤ (s.now - s.commons.touch).toNat := by
  simp only [State.watchdogDue, Answers, Bool.and_eq_true, decide_eq_true_eq, bne_iff_ne]
  tauto

theorem report_answers {s : State} (h : Answers s) (code k i : Nat) (a b : Word) (reh : Bool) :
    s.report code k i a b reh = { s with reports := s.reports ++ [⟨s.cycle + 1, code, k, i, a, b, reh⟩] } :=
  if_neg fun closed => closed.elim h.1 fun retained => h.2 retained.1

theorem watchdogExpiry_due {s : State} (h : s.watchdogDue = true) : exec .watchdogExpiry s = .next
    { (s.setRb .cmnStat 29 true).setRb .cmnSync 30 false with reports := s.reports ++ [⟨s.cycle + 1, 0x51, 10, 0, 0, 0, false⟩] } := by
  have answering := ((watchdogDue_iff s).mp h).1
  have acts : exec .watchdogExpiry s = .next (s.syncLost 0) := congrArg Host.Outcome.next (if_pos h)
  rw [acts, State.syncLost, report_answers (s := (s.setRb .cmnStat 29 true).setRb .cmnSync 30 false) answering]
  rfl

theorem watchdogExpiry_idle {s : State} (h : s.watchdogDue ≠ true) : Idle .watchdogExpiry s :=
  congrArg Host.Outcome.next (if_neg h)

/-- CMN_STAT and CMN_SYNC after a loss of synchronism. -/
theorem syncLost_regs (s : State) : let u := (s.setRb .cmnStat 29 true).setRb .cmnSync 30 false
    RegsBut [.cmnSync, .cmnStat] s u ∧ u.reg .cmnStat = setBit (s.reg .cmnStat) 29 true ∧
    u.reg .cmnSync = setBit (s.reg .cmnSync) 30 false := by
  refine ⟨fun r hr => ?_, ?_, ?_⟩
  · simp only [List.map_cons, List.map_nil, List.mem_cons, List.not_mem_nil, or_false, not_or] at hr
    exact (setReg_reg_other _ _ hr.1).trans (setReg_reg_other _ _ hr.2)
  · exact (setReg_reg_other _ _ (by decide)).trans (setReg_reg_self _ _ _)
  · refine (setReg_reg_self _ _ _).trans (congrArg (setBit · 30 false) ?_)
    exact setReg_reg_other _ _ (by decide)

end Sys2Proof.Proofs
end

section
/-! SUPPORT. The page of the Commons and the timers (Table 80): no access to it touches memory, the mode or the read data, a read makes
no report, and a write makes one exactly where it answers a code other than 0. -/
namespace Sys2Proof.Proofs
open Sys2Proof.Machine Sys2Proof.Laws

/-! ### Steps that no memory, report or path notices -/

/-- The stored bytes, the mode, the reports and the read data are the same. -/
structure Unheard (s t : State) : Prop where
  store : SameStore s t
  mode : t.mode = s.mode
  reports : t.reports = s.reports
  rdata : t.rdata = s.rdata

theorem Unheard.refl (s : State) : Unheard s s := ⟨.refl s, rfl, rfl, rfl⟩

theorem Unheard.trans {s t u : State} (h : Unheard s t) (k : Unheard t u) : Unheard s u :=
  ⟨h.store.trans k.store, k.mode.trans h.mode, k.reports.trans h.reports, k.rdata.trans h.rdata⟩

theorem Unheard.ite {p : Prop} [Decidable p] {s a b : State} (ha : Unheard s a) (hb : Unheard s b) : Unheard s (if p then a else b) := by
  split
  · exact ha
  · exact hb

theorem Unheard.answers {s t : State} (h : Unheard s t) (ha : Answers s) : Answers t := by
  unfold Answers
  rwa [h.mode]

theorem unheard_foldl {α : Type} {f : State → α → State} (h : ∀ s a, Unheard s (f s a)) (l : List α) (s : State) :
    Unheard s (l.foldl f s) := by
  induction l generalizing s with
  | nil => exact .refl s
  | cons a l ih => exact (h s a).trans (ih _)

/-- What is neither memory, the Gleaner, the mode, the reports nor the read data may change unheard. -/
theorem unheard_of_frame {s : State} (regs held flags commons timers mbus stage latch scrubs) : Unheard s
    { s with regs := regs, held := held, flags := flags, commons := commons, timers := timers, mbus := mbus, stage := stage,
             latch := latch, scrubs := scrubs } := ⟨⟨rfl, rfl, fun _ => rfl, rfl⟩, rfl, rfl, rfl⟩

theorem setReg_unheard (s : State) (r : Reg) (v : Word) : Unheard s (s.setReg r v) := unheard_of_frame ..

theorem setTimer_unheard (s : State) (ch : Nat) (t : Timer) : Unheard s (s.setTimer ch t) := unheard_of_frame ..

theorem readLow_unheard (s : State) (p : Path) (o : Nat) (v : DWord) : Unheard s (s.readLow p o v).1 := unheard_of_frame ..

theorem readTimeLow_unheard (s : State) (p : Path) : Unheard s (s.readTimeLow p).1 := unheard_of_frame ..

theorem tmrPop_unheard (s : State) (ch : Nat) : Unheard s (s.tmrPop ch).1 := by
  unfold State.tmrPop
  dsimp only
  split
  · exact .refl s
  · split <;> exact setTimer_unheard s ch _

theorem tmrEnable_unheard (s : State) (ch : Nat) : Unheard s (s.tmrEnable ch) :=
  .ite (setTimer_unheard s ch _) (.ite (setTimer_unheard s ch _) (setTimer_unheard s ch _))

theorem tmrSetCmp_unheard (s : State) (ch : Nat) (v : DWord) : Unheard s (s.tmrSetCmp ch v) :=
  .ite (setTimer_unheard s ch _) (setTimer_unheard s ch _)

theorem tmrSetIvl_unheard (s : State) (ch : Nat) (v : DWord) : Unheard s (s.tmrSetIvl ch v) :=
  .ite (setTimer_unheard s ch _) (setTimer_unheard s ch _)

theorem tmrGo_unheard (s : State) (ch : Nat) : Unheard s (s.tmrGo ch) :=
  .ite (.ite (setTimer_unheard s ch _) (setTimer_unheard s ch _)) (.refl s)

theorem setMbu_unheard (s : State) (m : Nat) (x : Mbu) : Unheard s (s.setMbu m x) := unheard_of_frame ..

theorem linkFall_unheard (s : State) (m : Nat) : Unheard s (s.linkFall m) := by
  unfold State.linkFall
  split
  · exact (((setReg_unheard s _ _).trans (setReg_unheard _ _ _)).trans (setReg_unheard _ _ _)).trans (setMbu_unheard _ _ _)
  · exact .refl s

theorem dropRgmii_unheard (s : State) : Unheard s s.dropRgmii :=
  unheard_foldl (fun s m => .ite (linkFall_unheard s m) (.refl s)) _ s

theorem putTick_unheard (s : State) (r : Reg) (w : Word) : Unheard s (s.putTick r w) := by
  have shadowed : Unheard s (s.setShadow r w) := unheard_of_frame ..
  unfold State.putTick
  split
  · exact .ite shadowed (unheard_of_frame ..)
  · exact shadowed

/-! ### The registers of the page -/

/-- The registers of the Commons and the timers. -/
inductive CommonsReg : Reg → Prop
  | cmnTime (h : Nat) : CommonsReg (.cmnTime h)
  | cmnEra : CommonsReg .cmnEra
  | cmnLera : CommonsReg .cmnLera
  | cmnIncf : CommonsReg .cmnIncf
  | cmnInci : CommonsReg .cmnInci
  | cmnRadj : CommonsReg .cmnRadj
  | cmnSlew : CommonsReg .cmnSlew
  | cmnSlewper : CommonsReg .cmnSlewper
  | cmnStep : CommonsReg .cmnStep
  | cmnSteplim : CommonsReg .cmnSteplim
  | cmnStat : CommonsReg .cmnStat
  | cmnSync : CommonsReg .cmnSync
  | cmnSrv : CommonsReg .cmnSrv
  | cmnStepcnt : CommonsReg .cmnStepcnt
  | tmrCtl (ch : Nat) : CommonsReg (.tmrCtl ch)
  | tmrStat (ch : Nat) : CommonsReg (.tmrStat ch)
  | tmrCmp (ch h : Nat) : CommonsReg (.tmrCmp ch h)
  | tmrIvl (ch h : Nat) : CommonsReg (.tmrIvl ch h)
  | tmrLast (ch h : Nat) : CommonsReg (.tmrLast ch h)
  | tmrCap (ch h : Nat) : CommonsReg (.tmrCap ch h)
  | tmrTrig (ch : Nat) : CommonsReg (.tmrTrig ch)
  | tmrFires (ch : Nat) : CommonsReg (.tmrFires ch)

theorem commonsReg_row {c : Prop} [Decidable c] {a r : Reg} {rest : Option Reg} (here : CommonsReg a)
    (others : rest = some r → CommonsReg r) : (if c then some a else rest) = some r → CommonsReg r := by
  split
  · rintro ⟨⟩
    exact here
  · exact others

theorem commonsReg_of_regAt {o : Nat} {r : Reg} (lo : 0x2000 ≤ o) (hi : o < 0x3000) : regAt o = some r → CommonsReg r := by
  rw [regAt_cmn lo hi]
  unfold cmnReg
  repeat refine commonsReg_row (by constructor) ?_
  exact nofun

/-! ### Reads -/

theorem readReg_unheard (s : State) (acc : Acc) {r : Reg} (h : CommonsReg r) : Unheard s (s.readReg acc r).1 := by
  cases h with
  | cmnTime h => cases h with
    | zero => exact readTimeLow_unheard s _
    | succ => exact .refl s
  | tmrCmp ch h | tmrLast ch h => cases h with
    | zero => exact readLow_unheard s _ _ _
    | succ => exact .refl s
  | tmrIvl ch h => cases h <;> exact .refl s
  | tmrCap ch h => cases h with
    | zero => exact (tmrPop_unheard s ch).trans (readLow_unheard _ _ _ _)
    | succ => exact .refl s
  | _ => exact .refl s

theorem read32_unheard (s : State) (acc : Acc) {o : Nat} (lo : 0x2000 ≤ o) (hi : o < 0x3000) : Unheard s (s.read32 acc o).1 := by
  unfold State.read32
  split
  · exact .refl s
  split
  · omega
  split
  · exact .refl s
  · exact readReg_unheard s acc (commonsReg_of_regAt lo hi ‹_›)

/-! ### Writes -/

/-- A write of the window leaves memory, the mode and the read data, and reports what it answers: nothing with code 0, else first a
fault of its code. -/
structure Told (s : State) (x : State × Nat) : Prop where
  store : SameStore s x.1
  mode : x.1.mode = s.mode
  rdata : x.1.rdata = s.rdata
  reports : (x.2 = 0 ∧ x.1.reports = s.reports) ∨ (x.2 ≠ 0 ∧ ∃ r l, r.code = x.2 ∧ x.1.reports = s.reports ++ r :: l)

theorem Unheard.told {s t : State} (h : Unheard s t) : Told s (t, 0) := ⟨h.store, h.mode, h.rdata, .inl ⟨rfl, h.reports⟩⟩

theorem Told.ite {p : Prop} [Decidable p] {s : State} {a b : State × Nat} (ha : Told s a) (hb : Told s b) :
    Told s (if p then a else b) := by
  split
  · exact ha
  · exact hb

theorem refuse_answers {s : State} (h : Answers s) (acc : Acc) (code off : Nat) :
    s.refuse acc code off = (turnedAway s acc code off, code) := by
  rw [State.refuse, report_answers h]
  rfl

theorem report_told {s u : State} (ha : Answers s) (h : Unheard s u) {code : Nat} (hc : code ≠ 0) (k i : Nat) (a b : Word) :
    Told s (u.report code k i a b, code) := by
  rw [report_answers (h.answers ha)]
  exact ⟨⟨h.store.ram, h.store.chip, h.store.phys, h.store.base⟩, h.mode, h.rdata, .inr ⟨hc, _, [], rfl, congrArg (· ++ _) h.reports⟩⟩

theorem refuse_told {s : State} (h : Answers s) (acc : Acc) {code : Nat} (hc : code ≠ 0) (off : Nat) :
    Told s (s.refuse acc code off) := report_told h (.refl s) hc _ _ _ _

theorem judge_ne_zero {s : State} {r : Reg} {v : Word} {code : Nat} (h : s.judge r v = some code) : code ≠ 0 := by
  unfold State.judge at h
  split at h
  · cases h
    decide
  split at h
  · cases h
    decide
  split at h
  · cases h
    decide
  · cases h

theorem wrote_unheard (s : State) {r : Reg} (h : CommonsReg r) (old v : Word) : Unheard s (s.wrote r old v) := by
  cases h with
  | cmnIncf | cmnInci => exact dropRgmii_unheard s
  | cmnRadj | cmnSlew => exact unheard_of_frame ..
  | cmnSync => exact .ite (unheard_of_frame ..) (.refl s)
  | tmrCtl ch => exact .ite (tmrEnable_unheard s ch) (.refl s)
  | tmrTrig ch => exact .ite (tmrGo_unheard s ch) (.refl s)
  | _ => exact .refl s

theorem putFields_told {s : State} (ha : Answers s) (acc : Acc) {r : Reg} (h : CommonsReg r) (v : Word) (da : Nat) :
    Told s (s.putFields acc r v da) := by
  unfold State.putFields
  split
  · exact refuse_told ha acc (judge_ne_zero ‹_›) da
  · exact ((Unheard.ite (putTick_unheard s r _) (setReg_unheard s r _)).trans (wrote_unheard _ h _ _)).told

theorem requestStep_told {s : State} (ha : Answers s) (path : Nat) (w : Word) :
    Told s ((s.requestStep path w).1, if (s.requestStep path w).2 then 0 else 0x50) := by
  unfold State.requestStep
  dsimp only
  split
  · have touched (u : State) (v : Int) : Unheard u ({ u with commons := { u.commons with v := v } } : State).touch :=
      unheard_of_frame ..
    exact (((setReg_unheard s _ _).trans (setReg_unheard _ _ _)).trans (touched _ _)).told
  · have shown : Unheard s (((s.setReg .cmnStep w).setRb .cmnStat 30 true).bumpRf .cmnStepcnt 31 16 1) :=
      ((setReg_unheard s _ _).trans (setReg_unheard _ _ _)).trans (setReg_unheard _ _ _)
    exact report_told ha shown (by decide) _ _ _ _

theorem writeReg_told {s : State} (ha : Answers s) (acc : Acc) {r : Reg} (h : CommonsReg r) (v : Word) (da : Nat) :
    Told s (s.writeReg acc r v da) := by
  unfold State.writeReg
  refine .ite (refuse_told ha acc (by decide) da) (.ite (refuse_told ha acc (by decide) da) ?_)
  have reserved := refuse_told ha acc (by decide : 0x60 ≠ 0) da
  have staged (o : Nat) : Told s (s.setStage o v, 0) := (unheard_of_frame (s := s) ..).told
  cases h with
  | cmnTime h => cases h with
    | zero => exact staged _
    | succ => exact .ite (unheard_of_frame (s := s) ..).told (.ite (Unheard.refl s).told reserved)
  | cmnEra => exact .ite (unheard_of_frame (s := s) ..).told (.ite (Unheard.refl s).told reserved)
  | cmnStep =>
    have told := requestStep_told ha (pathIdx acc.path) v
    refine .ite reserved ?_
    split <;> (rename_i asked; rw [asked] at told; exact told)
  | tmrCmp ch h => cases h with
    | zero => exact staged _
    | succ => exact (tmrSetCmp_unheard s ch _).told
  | tmrIvl ch h => cases h with
    | zero => exact staged _
    | succ => exact .ite reserved (tmrSetIvl_unheard s ch _).told
  | _ => exact putFields_told ha acc (by constructor) v da

theorem write32_told {s : State} (ha : Answers s) (acc : Acc) {o : Nat} (lo : 0x2000 ≤ o) (hi : o < 0x3000) (v : Word) (da : Nat) :
    Told s (s.write32 acc o v da) := by
  unfold State.write32
  split
  · exact refuse_told ha acc (by decide) o
  split
  · omega
  split
  · exact refuse_told ha acc (by decide) o
  · exact writeReg_told ha acc (commonsReg_of_regAt lo hi ‹_›) v da

/-- Of two writes in a row the first refusal counts (R13). -/
theorem Told.next {s t u : State} {c d : Nat} (h : Told s (t, c)) (k : Told t (u, d)) : Told s (u, if c = 0 then d else c) := by
  refine ⟨h.store.trans k.store, k.mode.trans h.mode, k.rdata.trans h.rdata, ?_⟩
  have first : (c = 0 ∧ t.reports = s.reports) ∨ (c ≠ 0 ∧ ∃ r l, r.code = c ∧ t.reports = s.reports ++ r :: l) := h.reports
  have second : (d = 0 ∧ u.reports = t.reports) ∨ (d ≠ 0 ∧ ∃ r l, r.code = d ∧ u.reports = t.reports ++ r :: l) := k.reports
  rcases first with ⟨rfl, same⟩ | ⟨refused, r, l, told, more⟩
  · rwa [same] at second
  · have later : ∃ l', u.reports = t.reports ++ l' := by
      rcases second with ⟨-, same⟩ | ⟨-, _, _, -, further⟩
      · exact ⟨[], by rw [same, List.append_nil]⟩
      · exact ⟨_, further⟩
    obtain ⟨l', later⟩ := later
    rw [if_neg refused]
    exact .inr ⟨refused, r, l ++ l', told, by rw [later, more, List.append_assoc, List.cons_append]⟩

theorem write64_told {s : State} (ha : Answers s) (acc : Acc) {o : Nat} (lo : 0x2000 ≤ o) (hi : o + 4 < 0x3000) (v : DWord) :
    Told s (s.write64 acc o v) := by
  have low := write32_told ha acc lo (by omega) (lo32 v) o
  have still : Answers (s.write32 acc o (lo32 v) o).1 := by
    unfold Answers
    rwa [low.mode]
  exact low.next (write32_told still acc (by omega) hi (hi32 v) (wideDa o))

/-- The code that the mailbox answers is that of the first new report. -/
theorem Told.newCode {s s' : State} {x : State × Nat} (hs : s'.reports = s.reports) (h : Told s' x) : Sys2Proof.newCode s x.1 = x.2 := by
  unfold Sys2Proof.newCode
  rcases h.reports with ⟨zero, same⟩ | ⟨-, r, l, told, more⟩
  · simp [same, hs, zero]
  · simp [more, hs, told]

end Sys2Proof.Proofs
end

section
/-! SUPPORT. The servo mailbox (R254, R255): what its command does before and after the access that it makes, and the access. -/
namespace Sys2Proof.Proofs
open Sys2Proof.Machine Sys2Proof.Laws

/-! ### Words of memory -/

theorem word_congr {s t : State} {k : Nat} (h : ∀ i, i < 4 → t.byteAt (k + i) = s.byteAt (k + i)) : t.word k = s.word k := by
  have bytes : t.bytesAt k 4 = s.bytesAt k 4 := List.map_congr_left fun i hi => h i (List.mem_range.mp hi)
  rw [State.word, State.word, bytes]

theorem SameStore.word {s t : State} (h : SameStore s t) (k : Nat) : t.word k = s.word k := word_congr fun i _ => h.byteAt (k + i)

theorem setWord_byteAt_outside {s : State} (hw : WindowFits s) {j k : Nat} (hk : k + 4 ≤ 0x1010000) (hj : j < 0x1010000)
    (out : j < k ∨ k + 4 ≤ j) (w : Word) : (s.setWord k w).byteAt j = s.byteAt j := by
  have length : (toBytes 4 w.toNat).length = 4 := toBytes_length 4 _
  rw [State.setWord, memWrite_byteAt hw hj (by omega), if_neg (by omega)]

theorem setWord_word_apart {s : State} (hw : WindowFits s) {j k : Nat} (hk : k + 4 ≤ 0x1010000) (hj : j + 4 ≤ 0x1010000)
    (apart : j + 4 ≤ k ∨ k + 4 ≤ j) (w : Word) : (s.setWord k w).word j = s.word j :=
  word_congr fun _ _ => setWord_byteAt_outside hw hk (by omega) (by omega) w

/-- Nothing but memory has changed, by writes (R190, R195). -/
structure Stored (s t : State) : Prop where
  frame : MemoryFrame s t
  regs : RegsBut memRegs s t
  fits : WindowFits s → WindowFits t

theorem Stored.refl (s : State) : Stored s s := ⟨.refl s, fun _ _ => rfl, id⟩

theorem Stored.trans {s t u : State} (h : Stored s t) (k : Stored t u) : Stored s u :=
  ⟨h.frame.trans k.frame, fun r hr => (k.regs r hr).trans (h.regs r hr), k.fits ∘ h.fits⟩

theorem setWord_stored (s : State) (k : Nat) (w : Word) : Stored s (s.setWord k w) :=
  ⟨memWrite_memoryFrame s k _, memWrite_regsBut s k _, fun hw => memWrite_windowFits hw k _⟩

/-! ### Flags -/

theorem setFlag_frame (s : State) (c f : Nat) : s.setFlag c f = { s with flags := (s.setFlag c f).flags } := by
  unfold State.setFlag State.setFlagAt
  dsimp only
  repeat' split
  all_goals rfl

theorem setFlag_sameStore (s : State) (c f : Nat) : SameStore s (s.setFlag c f) := by
  rw [setFlag_frame]
  exact ⟨rfl, rfl, fun _ => rfl, rfl⟩

theorem setFlag_reg (s : State) (c f : Nat) (r : Reg) : (s.setFlag c f).reg r = s.reg r := by
  rw [setFlag_frame]
  rfl

theorem setFlag_flagSet_other (s : State) {c f d e : Nat} (h : 256 * d + e ≠ 256 * c + f) :
    (s.setFlag c f).flagSet d e = s.flagSet d e := by
  rw [State.flagSet, setFlag_flag, if_neg h]
  rfl

theorem clrFlag_unheard (s : State) (c f : Nat) : Unheard s (s.clrFlag c f) :=
  .ite (.ite (.refl s) (unheard_of_frame ..)) (.refl s)

/-! ### Before the access -/

theorem yield_unheard (s : State) (k n : Nat) : Unheard s (s.yield k n) := by
  refine ⟨yield_sameStore s k n, ?_, ?_, ?_⟩
  all_goals
    unfold State.yield
    split <;> rfl

theorem correct_unheard (s : State) (g : Nat) : Unheard s (s.correct g) := by
  have counted : Unheard s (s.bump (.cpxEccnt ((regionOf g).elim 7 Prod.fst)) 1).noteCe :=
    (setReg_unheard s _ _).trans (setReg_unheard _ _ _)
  exact .ite counted (counted.trans (unheard_of_frame ..))

theorem passRead_unheard (s : State) (k n : Nat) : Unheard s (s.passRead k n) :=
  (yield_unheard s k n).trans (unheard_foldl (fun s g => .ite (correct_unheard s g) (.refl s)) _ _)

theorem mailboxStart_unheard (s : State) : Unheard s (mailboxStart s) := (clrFlag_unheard s _ _).trans (passRead_unheard _ _ _)

/-! ### After the access -/

theorem mailboxKey_le (s : State) : mailboxKey s + 24 ≤ 0xA00000 := by
  have cluster : s.rf .cmnSrv 26 24 < 8 := Nat.mod_lt _ (by decide)
  unfold mailboxKey sharedKey
  omega

/-- The time of the command and the code of its access, as it writes them. -/
def mailboxWords (s : State) (x : State × Nat) : State :=
  ((x.1.setWord (mailboxKey s + 16) (lo32 s.now)).setWord (mailboxKey s + 20) (hi32 s.now)).setWord (mailboxKey s + 4)
    (BitVec.ofNat 32 (2 ^ 31 + x.2))

/-- The end of a mailbox command whose access left `x.1` with code `x.2`. -/
def mailboxDone (s : State) (x : State × Nat) : State :=
  (mailboxWords s x).setFlag (s.rf .cmnSrv 26 24) (s.rf .cmnSrv 15 8)

theorem mailboxWords_stored (s : State) (x : State × Nat) : Stored x.1 (mailboxWords s x) :=
  ((setWord_stored _ _ _).trans (setWord_stored _ _ _)).trans (setWord_stored _ _ _)

theorem mailboxDone_byteAt {s v : State} {n : Nat} (hw : WindowFits v) {j : Nat} (hj : j < 0x1010000)
    (out : j < mailboxKey s + 4 ∨ (mailboxKey s + 8 ≤ j ∧ j < mailboxKey s + 16) ∨ mailboxKey s + 24 ≤ j) :
    (mailboxDone s (v, n)).byteAt j = v.byteAt j := by
  have fits := mailboxKey_le s
  have timed := (setWord_stored v (mailboxKey s + 16) (lo32 s.now)).fits hw
  have stamped := (setWord_stored _ (mailboxKey s + 20) (hi32 s.now)).fits timed
  rw [mailboxDone, (setFlag_sameStore _ _ _).byteAt, mailboxWords, setWord_byteAt_outside stamped (by omega) hj (by omega),
    setWord_byteAt_outside timed (by omega) hj (by omega), setWord_byteAt_outside hw (by omega) hj (by omega)]

theorem mailboxWords_read {s v : State} {n : Nat} (hw : WindowFits v) :
    (mailboxWords s (v, n)).word (mailboxKey s + 4) = BitVec.ofNat 32 (2 ^ 31 + n) ∧
    (mailboxWords s (v, n)).word (mailboxKey s + 16) = lo32 s.now ∧ (mailboxWords s (v, n)).word (mailboxKey s + 20) = hi32 s.now := by
  have fits := mailboxKey_le s
  have timed := (setWord_stored v (mailboxKey s + 16) (lo32 s.now)).fits hw
  have stamped := (setWord_stored _ (mailboxKey s + 20) (hi32 s.now)).fits timed
  refine ⟨setWord_word stamped (by omega) _, ?_, ?_⟩
  · rw [mailboxWords, setWord_word_apart stamped (by omega) (by omega) (by omega), setWord_word_apart timed (by omega) (by omega) (by omega),
      setWord_word hw (by omega)]
  · rw [mailboxWords, setWord_word_apart stamped (by omega) (by omega) (by omega), setWord_word timed (by omega)]

/-- Whatever the access left, with data words written behind it or not, the command ends as R255 says. -/
theorem mailboxDone_ends {s u v : State} {n : Nat} (h : Stored u v) (hw : WindowFits u) : MailboxEnds s u (mailboxDone s (v, n)) n := by
  have stored := h.trans (mailboxWords_stored s (v, n))
  obtain ⟨code, low, high⟩ := mailboxWords_read (s := s) (n := n) (h.fits hw)
  have flagged := setFlag_sameStore (mailboxWords s (v, n)) (s.rf .cmnSrv 26 24) (s.rf .cmnSrv 15 8)
  obtain ⟨ram, ecc, scrubs, regs, gleaner, frame⟩ := stored.frame
  have kept : (mailboxWords s (v, n)).flags = u.flags := by rw [frame]
  refine ⟨?_, fun r hr => (setFlag_reg _ _ _ r).trans (stored.regs r hr), (flagged.word _).trans code, (flagged.word _).trans low,
    (flagged.word _).trans high, setFlag_flagSet _ _ _, fun c f hc hf other => ?_⟩
  · rw [mailboxDone, setFlag_frame, frame]
  · have field : s.rf .cmnSrv 15 8 < 256 := Nat.mod_lt _ (by decide)
    have apart : 256 * c + f ≠ 256 * s.rf .cmnSrv 26 24 + s.rf .cmnSrv 15 8 := by
      intro same
      exact other (Prod.ext (by dsimp only; omega) (by dsimp only; omega))
    rw [mailboxDone, setFlag_flagSet_other _ apart, State.flagSet, State.flag, kept]
    rfl

/-! ### The command -/

/-- The mailbox answers, and its command is due (R254, R255). -/
def MailboxDue (s : State) : Prop :=
  Answers s ∧ s.rb .cmnSrv 31 = true ∧ s.flagNow (s.rf .cmnSrv 26 24) (s.rf .cmnSrv 7 0) = true

/- `State.mailbox` is unfolded as a function: compared at `s` with its body, the kernel would reduce the whole access. -/
theorem mailbox_eq (s : State) : s.mailbox = mailboxDone s ((mailboxStart s).mailboxAccess (mailboxKey s)) := by
  generalize hf : State.mailbox = f
  delta State.mailbox at hf
  subst hf
  beta_reduce
  extract_lets c d k t u
  have access : u.mailboxAccess k = (mailboxStart s).mailboxAccess (mailboxKey s) := rfl
  generalize u.mailboxAccess k = x at access
  rw [← access]
  obtain ⟨v, code⟩ := x
  rfl

theorem servoMailboxCommand_due {s : State} (h : MailboxDue s) : exec .servoMailboxCommand s =
    .next (mailboxDone s ((mailboxStart s).mailboxAccess (mailboxKey s))) := by
  obtain ⟨⟨on, answering⟩, enabled, set⟩ := h
  rw [← mailbox_eq]
  exact if_pos ⟨enabled, on, answering, set⟩

theorem servoMailboxCommand_idle {s : State} (h : ¬ MailboxDue s) : Idle .servoMailboxCommand s := by
  refine if_neg fun due => h ?_
  obtain ⟨enabled, on, answering, set⟩ := due
  exact ⟨⟨on, answering⟩, enabled, set⟩

end Sys2Proof.Proofs
end

section
/-! SUPPORT. The access of the servo mailbox (R254, R255): what its words ask for, and what a command that is due does with it. -/
namespace Sys2Proof.Proofs
open Sys2Proof.Machine Sys2Proof.Laws

/-! ### The fields of word 0 -/

/-- A field is the low part of a wider one that begins at the same bit. -/
theorem fld_narrow (w : Word) {m hi lo : Nat} (h : m ≤ hi) : fld w m lo = fld w hi lo % 2 ^ (m + 1 - lo) :=
  (Nat.mod_mod_of_dvd _ (pow_dvd_pow 2 (by omega))).symm

theorem bit_of_fld {w : Word} {hi lo n : Nat} (h : fld w hi lo = n) {j : Nat} (hj : j < hi + 1 - lo) : bit w (lo + j) = n.testBit j := by
  rw [← h, testBit_fld, decide_eq_true hj, Bool.true_and]

theorem mailboxOfs_bounds (w : Word) : 0x2000 ≤ 0x2000 + fld w 11 0 ∧ 0x2000 + fld w 11 0 < 0x3000 := by
  have below : fld w 11 0 < 4096 := Nat.mod_lt _ (by decide)
  omega

theorem mailboxOfs_toNat (w : Word) : (BitVec.ofNat 20 (0x2000 + fld w 11 0)).toNat = 0x2000 + fld w 11 0 := by
  obtain ⟨-, below⟩ := mailboxOfs_bounds w
  exact (BitVec.toNat_ofNat _ _).trans (Nat.mod_eq_of_lt (by omega))

theorem mailboxOfs_aligned {w : Word} (h : fld w 2 0 = 0) : (0x2000 + fld w 11 0) % 8 = 0 := by
  have low : fld w 2 0 = fld w 11 0 % 8 := fld_narrow w (by decide)
  omega

theorem mailboxBad_iff (w : Word) : mailboxBad w = true ↔ fld w 29 12 ≠ 0 ∨ fld w 1 0 ≠ 0 ∨ (bit w 30 = true ∧ bit w 2 = true) := by
  simp [mailboxBad, or_assoc]

/-- A word 0 that asks for 32 bits is valid where OFS is a multiple of 4 and bits 29 to 12 are 0. -/
theorem mailboxBad_narrow {w : Word} (h : fld w 29 12 = 0) (h30 : bit w 30 = false) (ofs : fld w 1 0 = 0) : mailboxBad w = false := by
  simp [mailboxBad, h, h30, ofs]

/-- A word 0 that asks for 64 bits is valid where OFS is a multiple of 8 and bits 29 to 12 are 0. -/
theorem mailboxBad_wide {w : Word} (h : fld w 29 12 = 0) (ofs : fld w 2 0 = 0) : mailboxBad w = false := by
  have low : fld w 1 0 = fld w 2 0 % 4 := fld_narrow w (by decide)
  have h2 : bit w 2 = false := bit_of_fld (lo := 0) (j := 2) ofs (by decide)
  simp [mailboxBad, h, low, ofs, h2]

/-! ### The access -/

theorem mailboxStart_word (s : State) (k : Nat) : (mailboxStart s).word k = s.word k := (mailboxStart_unheard s).store.word k

/-- The state and the data of a read of 64 bits: two reads of 32 bits, the lower address first (R13). -/
def read64 (s : State) (acc : Acc) (o : Nat) : State × DWord :=
  let low := s.read32 acc o
  let high := low.1.read32 acc (o + 4)
  (high.1, mk64 high.2 low.2)

section
variable {s : State} {k : Nat} {w : Word} (word : s.word k = w)
include word

theorem mailboxAccess_bad (ha : Answers s) (bad : mailboxBad w = true) :
    s.mailboxAccess k = (turnedAway s mailboxAcc 0x60 (0x2000 + fld w 11 0), 0x60) := by
  rw [← refuse_answers ha]
  unfold State.mailboxAccess
  simp [word, bad]

theorem mailboxAccess_write32 (good : mailboxBad w = false) (h31 : bit w 31 = true) (h30 : bit w 30 = false) :
    s.mailboxAccess k = s.write32 mailboxAcc (0x2000 + fld w 11 0) (s.word (k + 8)) (0x2000 + fld w 11 0) := by
  unfold State.mailboxAccess
  simp [word, good, h31, h30]

theorem mailboxAccess_write64 (good : mailboxBad w = false) (h31 : bit w 31 = true) (h30 : bit w 30 = true) :
    s.mailboxAccess k = s.write64 mailboxAcc (0x2000 + fld w 11 0) (mk64 (s.word (k + 12)) (s.word (k + 8))) := by
  unfold State.mailboxAccess
  simp [word, good, h31, h30]

theorem mailboxAccess_read32 {x : State × Word} (good : mailboxBad w = false) (h31 : bit w 31 = false) (h30 : bit w 30 = false)
    (hx : s.read32 mailboxAcc (0x2000 + fld w 11 0) = x) : s.mailboxAccess k = (x.1.setWord (k + 8) x.2, 0) := by
  unfold State.mailboxAccess State.mailboxRead
  simp [word, good, h31, h30, hx]

theorem mailboxAccess_read64 {x : State × DWord} (good : mailboxBad w = false) (h31 : bit w 31 = false) (h30 : bit w 30 = true)
    (hx : read64 s mailboxAcc (0x2000 + fld w 11 0) = x) :
    s.mailboxAccess k = ((x.1.setWord (k + 8) (lo32 x.2)).setWord (k + 12) (hi32 x.2), 0) := by
  subst hx
  unfold State.mailboxAccess State.mailboxRead read64
  simp [word, good, h31, h30, lo32_mk64, hi32_mk64]

end

/-! ### The same access of the register window -/

theorem reaches_commons {s : State} (ha : Answers s) {o : Nat} (lo : 0x2000 ≤ o) (hi : o < 0x3000) (p : Path) : s.reaches p o = true := by
  simp [State.reaches, ha.2, lo, hi]

theorem lo32_setWidth (v : Word) : lo32 (v.setWidth 64) = v := by simp [lo32]

theorem registerWrite_commons32 {s : State} (ha : Answers s) (acc : Acc) {o : BitVec 20} (lo : 0x2000 ≤ o.toNat) (hi : o.toNat < 0x3000)
    (v : Word) : exec (.registerWrite acc .b32 o (v.setWidth 64)) s = .next (s.write32 acc o.toNat v o.toNat).1 := by
  have write := busWrite_b32 ha.1 (reaches_commons ha lo hi acc.path) (v.setWidth 64)
  rw [lo32_setWidth] at write
  exact congrArg Host.Outcome.next write

theorem registerWrite_commons64 {s : State} (ha : Answers s) (acc : Acc) {o : BitVec 20} (lo : 0x2000 ≤ o.toNat) (hi : o.toNat < 0x3000)
    (h8 : o.toNat % 8 = 0) (v : DWord) : exec (.registerWrite acc .b64 o v) s = .next (s.write64 acc o.toNat v).1 :=
  congrArg Host.Outcome.next (busWrite_b64 ha.1 (reaches_commons ha lo hi acc.path) h8 v)

theorem wideReadLow_commons32 {s : State} (ha : Answers s) {acc : Acc} {p : Path} (hp : acc.path = p) {o : BitVec 20} (lo : 0x2000 ≤ o.toNat)
    (hi : o.toNat < 0x3000) :
    exec (.wideReadLow acc .b32 o) s =
      .next ((s.read32 acc o.toNat).1.setRead p ((s.read32 acc o.toNat).2.setWidth 64)) := by
  subst hp
  refine congrArg Host.Outcome.next ?_
  unfold State.busRead
  rw [if_neg (by simp [ha.1, reaches_commons ha lo hi])]

theorem wideReadLow_commons64 {s : State} (ha : Answers s) {acc : Acc} {p : Path} (hp : acc.path = p) {o : BitVec 20}
    (lo : 0x2000 ≤ o.toNat) (hi : o.toNat < 0x3000)
    (h8 : o.toNat % 8 = 0) : exec (.wideReadLow acc .b64 o) s =
      .next ((read64 s acc o.toNat).1.setRead p (read64 s acc o.toNat).2) := by
  subst hp
  refine congrArg Host.Outcome.next ?_
  unfold State.busRead
  rw [if_neg (by simp [ha.1, reaches_commons ha lo hi])]
  exact if_pos h8

theorem read64_unheard (s : State) (acc : Acc) {o : Nat} (lo : 0x2000 ≤ o) (hi : o + 4 < 0x3000) : Unheard s (read64 s acc o).1 :=
  (read32_unheard s acc lo (by omega)).trans (read32_unheard _ acc (by omega) hi)

/-- The mailbox takes its data without the path's read port: without the port's new word, its read is that of the window. -/
theorem setRead_undone {s u : State} (h : u.rdata = s.rdata) (p : Path) (v : DWord) : { u.setRead p v with rdata := s.rdata } = u := by
  rw [← h]
  rfl

/-! ### The command, by its access -/

theorem mailboxDone_dataWord {s v : State} {n : Nat} (hw : WindowFits v) {k : Nat} (hk : k = mailboxKey s + 8 ∨ k = mailboxKey s + 12) :
    (mailboxDone s (v, n)).word k = v.word k := by
  have fits := mailboxKey_le s
  exact word_congr fun i hi => mailboxDone_byteAt hw (by omega) (.inr (.inl (by omega)))

theorem SameStore.windowFits {s t : State} (h : SameStore s t) (hw : WindowFits s) : WindowFits t := windowFits_of_base h.base hw

section
variable {s : State} (due : MailboxDue s) (hw : WindowFits s)
include due hw

/-- A write, or no access. -/
theorem mailbox_written {x : State × Nat} (access : (mailboxStart s).mailboxAccess (mailboxKey s) = x) (h : SameStore (mailboxStart s) x.1) {j : Nat}
    (hj : j < 0x1010000) : Leads .servoMailboxCommand s fun t => MailboxEnds s x.1 t x.2 ∧
      (j < mailboxKey s + 4 ∨ (mailboxKey s + 8 ≤ j ∧ j < mailboxKey s + 16) ∨ mailboxKey s + 24 ≤ j → t.byteAt j = s.byteAt j) := by
  have store := (mailboxStart_unheard s).store.trans h
  have fits := store.windowFits hw
  refine ⟨mailboxDone s x, ?_, mailboxDone_ends (.refl _) fits, fun out => (mailboxDone_byteAt fits hj out).trans (store.byteAt j)⟩
  rw [servoMailboxCommand_due due, access]

/-- A read of 32 bits that gave `v` and left `u`. -/
theorem mailbox_read32 {u : State} {v : Word}
    (access : (mailboxStart s).mailboxAccess (mailboxKey s) = (u.setWord (mailboxKey s + 8) v, 0)) (h : SameStore (mailboxStart s) u) {j : Nat}
    (hj : j < 0x1010000) : Leads .servoMailboxCommand s fun t => MailboxEnds s u t 0 ∧ t.word (mailboxKey s + 8) = v ∧
      (j < mailboxKey s + 4 ∨ (mailboxKey s + 12 ≤ j ∧ j < mailboxKey s + 16) ∨ mailboxKey s + 24 ≤ j → t.byteAt j = s.byteAt j) := by
  have key := mailboxKey_le s
  have store := (mailboxStart_unheard s).store.trans h
  have fits := store.windowFits hw
  have stored := setWord_stored u (mailboxKey s + 8) v
  refine ⟨mailboxDone s (u.setWord (mailboxKey s + 8) v, 0), ?_, mailboxDone_ends stored fits, ?_, fun out => ?_⟩
  · rw [servoMailboxCommand_due due, access]
  · rw [mailboxDone_dataWord (stored.fits fits) (.inl rfl), setWord_word fits (by omega)]
  · rw [mailboxDone_byteAt (stored.fits fits) hj (by omega), setWord_byteAt_outside fits (by omega) hj (by omega), store.byteAt]

/-- A read of 64 bits that gave `v` and left `u`. -/
theorem mailbox_read64 {u : State} {v : DWord} (access : (mailboxStart s).mailboxAccess (mailboxKey s) =
      ((u.setWord (mailboxKey s + 8) (lo32 v)).setWord (mailboxKey s + 12) (hi32 v), 0)) (h : SameStore (mailboxStart s) u) {j : Nat}
    (hj : j < 0x1010000) : Leads .servoMailboxCommand s fun t => MailboxEnds s u t 0 ∧ t.word (mailboxKey s + 8) = lo32 v ∧
      t.word (mailboxKey s + 12) = hi32 v ∧ (j < mailboxKey s + 4 ∨ mailboxKey s + 24 ≤ j → t.byteAt j = s.byteAt j) := by
  have key := mailboxKey_le s
  have store := (mailboxStart_unheard s).store.trans h
  have fits := store.windowFits hw
  have low := setWord_stored u (mailboxKey s + 8) (lo32 v)
  have both := low.trans (setWord_stored _ (mailboxKey s + 12) (hi32 v))
  refine ⟨mailboxDone s ((u.setWord (mailboxKey s + 8) (lo32 v)).setWord (mailboxKey s + 12) (hi32 v), 0), ?_,
    mailboxDone_ends both fits, ?_, ?_, fun out => ?_⟩
  · rw [servoMailboxCommand_due due, access]
  · rw [mailboxDone_dataWord (both.fits fits) (.inl rfl), setWord_word_apart (low.fits fits) (by omega) (by omega) (by omega),
      setWord_word fits (by omega)]
  · rw [mailboxDone_dataWord (both.fits fits) (.inr rfl), setWord_word (low.fits fits) (by omega)]
  · rw [mailboxDone_byteAt (both.fits fits) hj (by omega), setWord_byteAt_outside (low.fits fits) (by omega) hj (by omega),
      setWord_byteAt_outside fits (by omega) hj (by omega), store.byteAt]

end

end Sys2Proof.Proofs
end

section
/-! SUPPORT. The mailbox command by what its words ask for (R255), and the three commands assembled. -/
namespace Sys2Proof.Proofs
open Sys2Proof.Machine Sys2Proof.Laws

/-- The command's part of word 0: what bits 31 to 12 hold. -/
theorem mailboxCommand_fields {w : Word} {n : Nat} (h : fld w 31 12 = n) :
    fld w 29 12 = n % 2 ^ 18 ∧ bit w 30 = n.testBit 18 ∧ bit w 31 = n.testBit 19 :=
  ⟨(fld_narrow w (by decide)).trans (congrArg (· % 2 ^ 18) h), bit_of_fld (lo := 12) (j := 18) h (by decide),
    bit_of_fld (lo := 12) (j := 19) h (by decide)⟩

section
variable {s : State} {w : Word} (ha : Answers s) (hw : WindowFits s) (enabled : s.rb .cmnSrv 31 = true)
  (set : s.flagNow (s.rf .cmnSrv 26 24) (s.rf .cmnSrv 7 0) = true) {j : Nat} (hj : j < 0x1010000)
include ha hw enabled set hj

theorem servoMailboxCommand_invalid (word : w = s.word (mailboxKey s)) (bad : mailboxBad w = true) : Leads .servoMailboxCommand s fun t =>
    MailboxEnds s (turnedAway (mailboxStart s) mailboxAcc 0x60 (0x2000 + fld w 11 0)) t 0x60 ∧
    (j < mailboxKey s + 4 ∨ (mailboxKey s + 8 ≤ j ∧ j < mailboxKey s + 16) ∨ mailboxKey s + 24 ≤ j → t.byteAt j = s.byteAt j) := by
  have answering := (mailboxStart_unheard s).answers ha
  have access := mailboxAccess_bad ((mailboxStart_word s _).trans word.symm) answering bad
  have told := refuse_told answering mailboxAcc (by decide : 0x60 ≠ 0) (0x2000 + fld w 11 0)
  rw [refuse_answers answering] at told
  exact mailbox_written ⟨ha, enabled, set⟩ hw access told.store hj

/-- A write of 32 bits is that of the register window. -/
theorem servoMailboxCommand_write32 {v : Word} {o : BitVec 20} (word : w = s.word (mailboxKey s)) (asks : fld w 31 12 = 0x80000)
    (ofs : fld w 1 0 = 0) (data : v = s.word (mailboxKey s + 8)) (off : o = BitVec.ofNat 20 (0x2000 + fld w 11 0)) :
    ∃ u, exec (.registerWrite mailboxAcc .b32 o (v.setWidth 64)) (mailboxStart s) = .next u ∧
      Leads .servoMailboxCommand s fun t => MailboxEnds s u t (newCode s u) ∧
        (j < mailboxKey s + 4 ∨ (mailboxKey s + 8 ≤ j ∧ j < mailboxKey s + 16) ∨ mailboxKey s + 24 ≤ j → t.byteAt j = s.byteAt j) := by
  have answering := (mailboxStart_unheard s).answers ha
  obtain ⟨rest, h30, h31⟩ := mailboxCommand_fields asks
  obtain ⟨lo, hi⟩ := mailboxOfs_bounds w
  have at_ofs : o.toNat = 0x2000 + fld w 11 0 := off ▸ mailboxOfs_toNat w
  have access := mailboxAccess_write32 ((mailboxStart_word s _).trans word.symm) (mailboxBad_narrow rest h30 ofs) h31 h30
  rw [mailboxStart_word, ← data] at access
  have told := write32_told answering mailboxAcc lo hi v (0x2000 + fld w 11 0)
  refine ⟨_, registerWrite_commons32 answering mailboxAcc (by omega) (by omega) v, ?_⟩
  rw [at_ofs, told.newCode (mailboxStart_unheard s).reports]
  exact mailbox_written ⟨ha, enabled, set⟩ hw access told.store hj

/-- A write of 64 bits is that of the register window. -/
theorem servoMailboxCommand_write64 {v : DWord} {o : BitVec 20} (word : w = s.word (mailboxKey s)) (asks : fld w 31 12 = 0xC0000)
    (ofs : fld w 2 0 = 0) (data : v = mk64 (s.word (mailboxKey s + 12)) (s.word (mailboxKey s + 8)))
    (off : o = BitVec.ofNat 20 (0x2000 + fld w 11 0)) :
    ∃ u, exec (.registerWrite mailboxAcc .b64 o v) (mailboxStart s) = .next u ∧
      Leads .servoMailboxCommand s fun t => MailboxEnds s u t (newCode s u) ∧
        (j < mailboxKey s + 4 ∨ (mailboxKey s + 8 ≤ j ∧ j < mailboxKey s + 16) ∨ mailboxKey s + 24 ≤ j → t.byteAt j = s.byteAt j) := by
  have answering := (mailboxStart_unheard s).answers ha
  obtain ⟨rest, h30, h31⟩ := mailboxCommand_fields asks
  obtain ⟨lo, hi⟩ := mailboxOfs_bounds w
  have aligned := mailboxOfs_aligned ofs
  have at_ofs : o.toNat = 0x2000 + fld w 11 0 := off ▸ mailboxOfs_toNat w
  have access := mailboxAccess_write64 ((mailboxStart_word s _).trans word.symm) (mailboxBad_wide rest ofs) h31 h30
  rw [mailboxStart_word, mailboxStart_word, ← data] at access
  have told := write64_told answering mailboxAcc lo (by omega) v
  refine ⟨_, registerWrite_commons64 answering mailboxAcc (by omega) (by omega) (by omega) v, ?_⟩
  rw [at_ofs, told.newCode (mailboxStart_unheard s).reports]
  exact mailbox_written ⟨ha, enabled, set⟩ hw access told.store hj

/-- A read of 32 bits is that of the register window. -/
theorem servoMailboxCommand_read32 {o : BitVec 20} (word : w = s.word (mailboxKey s)) (asks : fld w 31 12 = 0) (ofs : fld w 1 0 = 0)
    (off : o = BitVec.ofNat 20 (0x2000 + fld w 11 0)) :
    ∃ u, exec (.wideReadLow mailboxAcc .b32 o) (mailboxStart s) = .next u ∧ Leads .servoMailboxCommand s fun t =>
      MailboxEnds s { u with rdata := s.rdata } t 0 ∧ t.word (mailboxKey s + 8) = lo32 (u.readData .mailbox) ∧
      (j < mailboxKey s + 4 ∨ (mailboxKey s + 12 ≤ j ∧ j < mailboxKey s + 16) ∨ mailboxKey s + 24 ≤ j → t.byteAt j = s.byteAt j) := by
  have answering := (mailboxStart_unheard s).answers ha
  obtain ⟨rest, h30, h31⟩ := mailboxCommand_fields asks
  obtain ⟨lo, hi⟩ := mailboxOfs_bounds w
  have at_ofs : o.toNat = 0x2000 + fld w 11 0 := off ▸ mailboxOfs_toNat w
  have access := mailboxAccess_read32 ((mailboxStart_word s _).trans word.symm) (mailboxBad_narrow rest h30 ofs) h31 h30 rfl
  have read := read32_unheard (mailboxStart s) mailboxAcc lo hi
  refine ⟨_, wideReadLow_commons32 answering (p := .mailbox) rfl (by omega) (by omega), ?_⟩
  rw [setRead_undone (at_ofs ▸ read.rdata.trans (mailboxStart_unheard s).rdata), setRead_readData, lo32_setWidth, at_ofs]
  exact mailbox_read32 ⟨ha, enabled, set⟩ hw access read.store hj

/-- A read of 64 bits is that of the register window. -/
theorem servoMailboxCommand_read64 {o : BitVec 20} (word : w = s.word (mailboxKey s)) (asks : fld w 31 12 = 0x40000) (ofs : fld w 2 0 = 0)
    (off : o = BitVec.ofNat 20 (0x2000 + fld w 11 0)) :
    ∃ u, exec (.wideReadLow mailboxAcc .b64 o) (mailboxStart s) = .next u ∧ Leads .servoMailboxCommand s fun t =>
      MailboxEnds s { u with rdata := s.rdata } t 0 ∧ t.word (mailboxKey s + 8) = lo32 (u.readData .mailbox) ∧
      t.word (mailboxKey s + 12) = hi32 (u.readData .mailbox) ∧
      (j < mailboxKey s + 4 ∨ mailboxKey s + 24 ≤ j → t.byteAt j = s.byteAt j) := by
  have answering := (mailboxStart_unheard s).answers ha
  obtain ⟨rest, h30, h31⟩ := mailboxCommand_fields asks
  obtain ⟨lo, hi⟩ := mailboxOfs_bounds w
  have aligned := mailboxOfs_aligned ofs
  have at_ofs : o.toNat = 0x2000 + fld w 11 0 := off ▸ mailboxOfs_toNat w
  have access := mailboxAccess_read64 ((mailboxStart_word s _).trans word.symm) (mailboxBad_wide rest ofs) h31 h30 rfl
  have read := read64_unheard (mailboxStart s) mailboxAcc lo (by omega)
  refine ⟨_, wideReadLow_commons64 answering (p := .mailbox) rfl (by omega) (by omega) (by omega), ?_⟩
  rw [setRead_undone (at_ofs ▸ read.rdata.trans (mailboxStart_unheard s).rdata), setRead_readData, at_ofs]
  exact mailbox_read64 ⟨ha, enabled, set⟩ hw access read.store hj

end

/-- Settles O51: the slew unit and the watchdog by `slewUnit_due` and `watchdogExpiry_due`; the mailbox by its access, which on the page
of the Commons touches neither memory nor the mode (`write32_told`, `read32_unheard`), and by its end (`mailboxDone_ends`). -/
theorem slewWatchdogAndMailboxAct : Obligations.SlewWatchdogAndMailboxAct := by
  refine ⟨?_, fun s idle => slewUnit_idle idle, ?_, ?_, ?_, ?_, ?_, ?_, ?_, ?_⟩
  case refine_1 =>
    intro s ha hr hc hu
    refine ⟨_, slewUnit_due ha hr hc hu, rfl, fun r other => setReg_reg_other _ _ ?_, rfl, rfl, ?_⟩
    · simpa using other
    · exact (congrArg BitVec.toInt (setReg_reg_self s .cmnSlew _)).trans (toInt_slewed hr)
  case refine_2 =>
    intro s ha watching locked untouched
    obtain ⟨others, stat, sync⟩ := syncLost_regs s
    refine ⟨_, watchdogExpiry_due ((watchdogDue_iff s).mpr ⟨ha, watching, locked, untouched⟩), rfl, others, ?_, ?_, ?_, ?_, ?_, rfl⟩
    · exact (congrArg (bit · 29) stat).trans (bit_setBit true (by decide))
    · exact (congrArg (bit · 30) stat).trans (bit_setBit true (by decide))
    · exact (congrArg (bit · 30) sync).trans (bit_setBit false (by decide))
    · exact ((congrArg (bit · 31) sync).trans (bit_setBit false (by decide))).trans watching
    · exact (congrArg (fld · 23 0) sync).trans (fld_setBit_outside false (by decide) (by decide))
  case refine_3 =>
    intro s idle
    refine watchdogExpiry_idle fun due => ?_
    obtain ⟨ha, watching, locked, untouched⟩ := (watchdogDue_iff s).mp due
    rcases idle with silent | off | unlocked | touched
    · exact silent ha
    · simp [off] at watching
    · simp [unlocked] at locked
    · omega
  case refine_4 =>
    intro s idle
    refine servoMailboxCommand_idle fun ⟨ha, enabled, set⟩ => ?_
    rcases idle with silent | disabled | clear
    · exact silent ha
    · simp [disabled] at enabled
    · simp [clear] at set
  case refine_5 =>
    intro w j s ha hw enabled set word bad hj
    exact servoMailboxCommand_invalid ha hw enabled set hj word ((mailboxBad_iff w).mpr bad)
  case refine_6 =>
    intro w v o j s ha hw enabled set word asks ofs data off hj
    exact servoMailboxCommand_write32 ha hw enabled set hj word asks ofs data off
  case refine_7 =>
    intro w v o j s ha hw enabled set word asks ofs data off hj
    exact servoMailboxCommand_write64 ha hw enabled set hj word asks ofs data off
  case refine_8 =>
    intro w o j s ha hw enabled set word asks ofs off hj
    exact servoMailboxCommand_read32 ha hw enabled set hj word asks ofs off
  case refine_9 =>
    intro w o j s ha hw enabled set word asks ofs off hj
    exact servoMailboxCommand_read64 ha hw enabled set hj word asks ofs off

end Sys2Proof.Proofs
end

section
/-! SUPPORT. Channels (Table 67): the ring and the queue of messages, what each instruction does to them, and each row's effect. -/
namespace Sys2Proof.Proofs
open Sys2Proof.Machine Sys2Proof.Laws

/-! ### Rings and queues -/

theorem used_eq_sum (c : Chan) : c.used = (c.msgs.map Msg.len).sum := by
  unfold Chan.used
  rw [List.sum_eq_foldl, List.foldl_map]

theorem mapLast_append (f : Msg → Msg) (l : List Msg) (m : Msg) : mapLast f (l ++ [m]) = l ++ [f m] := by
  induction l with
  | nil => rfl
  | cons a r ih =>
    cases r with
    | nil => rfl
    | cons b t => exact congrArg (a :: ·) ih

theorem msgs_of_opn {c : Chan} {m : Msg} (h : c.opn = some m) : ∃ l, c.msgs = l ++ [m] := by
  unfold Chan.opn at h
  split at h
  · rename_i last young
    split at h
    · cases h
    · cases h
      exact ⟨_, (List.dropLast_append_getLast? _ young).symm⟩
  · cases h

/-- A change of the youngest message alone: how many words are in use follows its length. -/
theorem used_mapLast {c : Chan} {m : Msg} (h : c.opn = some m) (r : List (Nat × Word)) (f : Msg → Msg) :
    ({ c with ring := r, msgs := mapLast f c.msgs } : Chan).used + m.len = c.used + (f m).len := by
  obtain ⟨l, hl⟩ := msgs_of_opn h
  simp only [used_eq_sum, hl, mapLast_append, List.map_append, List.sum_append, List.map_cons, List.map_nil, List.sum_singleton]
  omega

theorem words_length (c : Chan) : c.words.length = c.used := by
  rw [Chan.words, List.length_map, upto, List.length_range]

/-- The words of a queue, by its head and the number in use. -/
theorem words_congr {c c' : Chan} (hr : c'.ring = c.ring) (hh : c'.head = c.head) (hu : c'.used = c.used) : c'.words = c.words := by
  unfold Chan.words Chan.word
  rw [hr, hh, hu]

theorem word_append {c c' : Chan} {w : Word} (h : c'.ring = c.append w) (i : Nat) :
    c'.word i = if i % 16 = (c.head + c.used) % 16 then w else c.word i := by
  unfold Chan.word
  rw [h]
  exact get_put ..

theorem words_append {c c' : Chan} {w : Word} (hr : c'.ring = c.append w) (hh : c'.head = c.head) (hu : c'.used = c.used + 1)
    (room : c.used < 16) : c'.words = c.words ++ [w] := by
  have held : (upto c.used).map (fun i => c'.word (c.head + i)) = c.words :=
    List.map_congr_left fun i hi => by
      have hi := List.mem_range.mp hi
      rw [word_append hr, if_neg (by omega)]
  unfold Chan.words at held ⊢
  rw [hh, hu, upto, List.range_succ, List.map_append, ← held, List.map_singleton, word_append hr, if_pos rfl]
  rfl

theorem getElem?_words {c : Chan} {i : Nat} (h : i < c.used) : c.words[i]? = some (c.word (c.head + i)) := by
  unfold Chan.words upto
  rw [List.getElem?_map, List.getElem?_range h]
  rfl

theorem words_drop {c c' : Chan} {n : Nat} (hr : c'.ring = c.ring) (hh : c'.head = (c.head + n) % 16) (hu : c.used = n + c'.used) :
    c'.words = c.words.drop n := by
  refine List.ext_getElem? fun i => ?_
  rw [List.getElem?_drop]
  by_cases hi : i < c'.used
  · rw [getElem?_words hi, getElem?_words (by omega)]
    unfold Chan.word
    rw [hr, hh, show ((c.head + n) % 16 + i) % 16 = (c.head + (n + i)) % 16 by omega]
  · rw [List.getElem?_eq_none (by rw [words_length]; omega), List.getElem?_eq_none (by rw [words_length]; omega)]

/-! ### Table 67 -/

theorem used_of_canWrite {c : Chan} {g : Nat} (h : c.canWrite g = true) : c.used < 16 := by
  unfold Chan.canWrite at h
  split at h
  all_goals
    rw [Bool.and_eq_true] at h
    exact of_decide_eq_true h.2

theorem write_answer (c : Chan) (g : Nat) (w : Word) : (c.write g w).2 = c.canWrite g := by
  unfold Chan.write
  split
  · rename_i can
    rw [can]
    split <;> rfl
  · rename_i cannot
    exact (Bool.eq_false_iff.mpr cannot).symm

theorem write_accepted {c : Chan} {g : Nat} (w : Word) (h : c.canWrite g = true) :
    (c.write g w).1.words = c.words ++ [w] ∧ (c.write g w).1.used = c.used + 1 := by
  have room := used_of_canWrite h
  unfold Chan.write
  rw [if_pos h]
  cases young : c.opn with
  | some m =>
    have grown := used_mapLast young (c.append w) fun m => { m with len := m.len + 1 }
    have more := Nat.add_right_cancel (grown.trans (Nat.add_right_comm c.used m.len 1))
    exact ⟨words_append rfl rfl more room, more⟩
  | none =>
    have more : ({ c with ring := c.append w, msgs := c.msgs ++ [⟨1, false, false, g, false⟩] } : Chan).used = c.used + 1 := by
      simp [used_eq_sum]
    exact ⟨words_append rfl rfl more room, more⟩

theorem write_refused {c : Chan} {g : Nat} (w : Word) (h : c.canWrite g = false) : (c.write g w).1 = c := by
  unfold Chan.write
  rw [if_neg (Bool.eq_false_iff.mp h)]

theorem opn_of_heldBy {c : Chan} {g : Nat} (h : c.heldBy g = true) : ∃ m, c.opn = some m := by
  unfold Chan.heldBy at h
  split at h
  · exact ⟨_, ‹_›⟩
  · cases h

/-- A channel with its youngest message closed has no open message. -/
theorem opn_closed (c : Chan) : ({ c with msgs := mapLast (fun m => { m with closed := true }) c.msgs } : Chan).opn = none := by
  unfold Chan.opn
  rw [getLast?_mapLast]
  cases c.msgs.getLast? <;> rfl

theorem close_held {c : Chan} {g : Nat} (h : c.heldBy g = true) :
    (c.close g).2 = true ∧ (c.close g).1.words = c.words ∧ (c.close g).1.opn = none := by
  obtain ⟨m, young⟩ := opn_of_heldBy h
  have same := used_mapLast young c.ring fun m => { m with closed := true }
  unfold Chan.close
  rw [if_pos h]
  exact ⟨rfl, words_congr rfl rfl (Nat.add_right_cancel same), opn_closed c⟩

theorem close_refused {c : Chan} {g : Nat} (h : c.heldBy g = false) : c.close g = (c, false) :=
  if_neg (Bool.eq_false_iff.mp h)

theorem readable_head {c : Chan} {g : Nat} {m : Msg} {r : List Msg} (hm : c.msgs = m :: r) (hc : m.closed = true)
    (hr : c.res = none ∨ c.res = some g) : c.readable g = true := by
  unfold Chan.readable
  rcases hr with free | mine
  · simp [hm, hc, free]
  · simp [hm, hc, mine]

theorem readable_reserved {c : Chan} {g h : Nat} (hr : c.res = some h) (other : h ≠ g) : c.readable g = false := by
  unfold Chan.readable
  rw [hr]
  cases c.msgs.head? with
  | none => rfl
  | some m => simp [other]

theorem read_head {c : Chan} {g : Nat} {m : Msg} {r : List Msg} (hm : c.msgs = m :: r) (h : c.readable g = true) :
    c.read g = if c.cur < m.len then ({ c with res := some g, cur := c.cur + 1 }, some (c.word (c.head + c.cur)), true)
      else ({ c with res := some g }, none, false) := by
  unfold Chan.read
  rw [if_pos h, hm]
  rfl

theorem read_refused {c : Chan} {g : Nat} (h : c.readable g = false) : c.read g = (c, none, false) :=
  if_neg (Bool.eq_false_iff.mp h)

theorem discardHead_refused {c : Chan} {g : Nat} (h : c.readable g = false) : c.discardHead g = (c, false) :=
  if_neg (Bool.eq_false_iff.mp h)

/-- Z of a CHR tells whether it delivers a word. -/
theorem read_answer (c : Chan) (g : Nat) : (c.read g).2.2 = (c.read g).2.1.isSome := by
  unfold Chan.read
  repeat' split
  all_goals rfl

theorem discardHead_head {c : Chan} {g : Nat} {m : Msg} {r : List Msg} (hm : c.msgs = m :: r) (h : c.readable g = true) :
    c.discardHead g = ({ c with msgs := r, head := (c.head + m.len) % 16, res := none, cur := 0 }, true) := by
  unfold Chan.discardHead Chan.dropHead
  rw [if_pos h, hm]

theorem used_cons {c : Chan} {m : Msg} {r : List Msg} (hm : c.msgs = m :: r) : c.used = m.len + (r.map Msg.len).sum := by
  rw [used_eq_sum, hm, List.map_cons, List.sum_cons]

/-- A CHR of the closed head message reserves it and takes no word out of the ring; each word in turn, then none (R208). -/
theorem read_reserves {c : Chan} {g : Nat} {m : Msg} {r : List Msg} (hm : c.msgs = m :: r) (h : c.readable g = true) :
    (c.read g).1.res = some g ∧ (c.read g).1.words = c.words ∧
    (c.cur < m.len → (c.read g).2 = (c.words[c.cur]?, true) ∧ (c.read g).1.cur = c.cur + 1) ∧
    (m.len ≤ c.cur → (c.read g).2 = (none, false) ∧ (c.read g).1.cur = c.cur) := by
  rw [read_head hm h]
  split
  · rename_i more
    have held : c.cur < c.used := more.trans_le (used_cons hm ▸ Nat.le_add_right ..)
    refine ⟨rfl, words_congr rfl rfl rfl, fun _ => ⟨?_, rfl⟩, fun ended => absurd more ended.not_gt⟩
    rw [getElem?_words held]
  · rename_i ended
    exact ⟨rfl, words_congr rfl rfl rfl, fun more => absurd more ended, fun _ => ⟨rfl, rfl⟩⟩

/-- A CHD takes the words of the head message out of the ring, with its entry and its reservation. -/
theorem discardHead_drops {c : Chan} {g : Nat} {m : Msg} {r : List Msg} (hm : c.msgs = m :: r) (h : c.readable g = true) :
    (c.discardHead g).2 = true ∧ (c.discardHead g).1.words = c.words.drop m.len ∧ (c.discardHead g).1.res = none ∧
    (c.discardHead g).1.cur = 0 ∧ (c.discardHead g).1.msgs = c.msgs.tail := by
  rw [discardHead_head hm h, hm]
  exact ⟨rfl, words_drop rfl rfl (by rw [used_cons hm, used_eq_sum]), rfl, rfl, rfl⟩

/-! ### The rows -/

/-- A CHR by whether it delivers a word. -/
theorem performs_chr : Performs .chr 0x1CA (fun c s => match ((s.chan c.chanAt).read c.g).2.1 with
    | some w => ⟨s.setChan c.chanAt ((s.chan c.chanAt).read c.g).1, [out 0 w.toNat], some { c.fl with z := true }, .seq, 0⟩
    | none => answers c (s.setChan c.chanAt ((s.chan c.chanAt).read c.g).1) false) := by
  refine performs_of_body _ (fun _ _ => rfl) fun g s x y _ => congrArg Except.ok ?_
  rw [read_answer]
  cases ((y.s.chan y.c.chanAt).read y.c.g).2.1 <;> rfl

/-- Settles O10: the rows of Table 43 are answers of the channel, and the channel keeps its words in a ring, which a CHW extends behind
the words in use (`words_append`) and a CHD shortens from the head (`words_drop`). -/
theorem channelsAreFifosOfMessages : Obligations.ChannelsAreFifosOfMessages := by
  refine ⟨?_, ?_, performs_chr, ?_, ?_, fun c g w => ⟨write_answer c g w, write_accepted w, write_refused w⟩, fun c g => ?_,
    fun c g m hm hc hr => ?_, fun c g h hr other => ?_⟩
  · exact performs_of_body _ (fun _ _ => rfl) fun _ _ _ _ _ => rfl
  · exact performs_of_body _ (fun _ _ => rfl) fun _ _ _ _ _ => rfl
  · exact performs_of_body _ (fun _ _ => rfl) fun _ _ _ _ _ => rfl
  · exact performs_of_body _ (fun _ _ => rfl) fun _ _ _ _ _ => rfl
  · cases held : c.heldBy g with
    | true =>
      obtain ⟨granted, words, closed⟩ := close_held held
      exact ⟨granted, words, fun _ => closed, nofun⟩
    | false =>
      rw [close_refused held]
      exact ⟨rfl, rfl, nofun, fun _ => rfl⟩
  · obtain ⟨r, queue⟩ := List.head?_eq_some_iff.mp hm
    have readable := readable_head queue hc hr
    obtain ⟨reserved, words, delivers, ended⟩ := read_reserves queue readable
    exact ⟨reserved, words, delivers, ended, discardHead_drops queue readable⟩
  · have unreadable := readable_reserved hr other
    rw [read_refused unreadable]
    exact ⟨rfl, rfl, discardHead_refused unreadable⟩

end Sys2Proof.Proofs
end

section
/-! SUPPORT. A claim about deadlocks that fails only on a state that no run reaches: one whose thread table lists a thread more than
once, so that it counts again among the live threads of its cluster (R213, R214). -/
namespace Sys2Proof.Proofs
open Sys2Proof.Machine Sys2Proof.Laws

/-- A thread that waits for lock 0 of its cluster. -/
def waitsForLock : Thread := { Thread.reset with st := .waiting, waitOn := some ⟨0, false, 0⟩ }

/-- Thread 0 waits for a lock that it holds itself, and the table of threads lists it 1024 times. -/
def listedTooOften : State :=
  { State.reset with mode := .run, locks := [(0, some 0)], threads := List.replicate 1024 (0, waitsForLock) }

theorem listedTooOften_thr : listedTooOften.thr 0 = waitsForLock := rfl

/-- Cluster 0 has 1024 entries for its one live thread. -/
theorem listedTooOften_dlSet : listedTooOften.dlSet (.cluster 0) = List.replicate 1024 0 := by
  have listed : listedTooOften.threads.map Prod.fst = List.replicate 1024 0 := List.map_replicate
  have live : listedTooOften.isLive 0 = true := rfl
  unfold State.dlSet State.liveThreads
  dsimp only
  rw [listed, List.filter_replicate_of_pos live, List.filter_replicate_of_pos (by decide)]

/-- The signaller of thread 0 is thread 0. -/
theorem listedTooOften_sig : listedTooOften.sig 0 = some [0] := rfl

theorem listedTooOften_deadlocked : listedTooOften.deadlocked (.cluster 0) = true := by
  unfold State.deadlocked State.stuck
  rw [listedTooOften_dlSet]
  refine Bool.and_eq_true_iff.mpr ⟨rfl, Bool.and_eq_true_iff.mpr ⟨rfl, List.all_eq_true.mpr fun t ht => ?_⟩⟩
  rw [List.eq_of_mem_replicate ht, listedTooOften_thr, listedTooOften_sig]
  rfl

/-- Refutes O44: the participant field of GLK_DLSTAT has 10 bits and takes no count of 1024: the claim lacks the hypothesis that the
table of threads lists each thread once. -/
theorem not_deadlocksAreReportedOnce : ¬ Obligations.DeadlocksAreReportedOnce := by
  intro h
  obtain ⟨reported, -⟩ := h
  obtain ⟨t, -, -, -, -, -, -, recorded, -⟩ := reported (.cluster 0) listedTooOften listedTooOften_deadlocked rfl rfl
  have count : t.rf .glkDlstat 9 0 = 1024 := by
    rw [(recorded rfl).2.1, listedTooOften_dlSet, List.length_replicate]
  have fits : t.rf .glkDlstat 9 0 < 1024 := Nat.mod_lt _ (by decide)
  omega

end Sys2Proof.Proofs
end

section
/-! SUPPORT. Writes that steer Commons time (R246 to R252): CMN_TIME, CMN_RADJ, CMN_SLEW and CMN_STEP through the register window, on any
path that reaches the page of the Commons. -/
namespace Sys2Proof.Proofs
open Sys2Proof.Machine Sys2Proof.Laws

/-! ### Fields and counts of a word -/

theorem bit_setFld_apart {w : Word} {hi lo v i : Nat} (hi32 : i < 32) (h : i < lo ∨ hi < i) : bit (setFld w hi lo v) i = bit w i :=
  (bit_setFld hi32).trans (if_neg (by omega))

theorem fld_setFld_apart {w : Word} {hi lo v h l : Nat} (hh : h < 32) (apart : h < lo ∨ hi < l) :
    fld (setFld w hi lo v) h l = fld w h l := by
  refine Nat.eq_of_testBit_eq fun j => ?_
  rw [testBit_fld, testBit_fld]
  by_cases inside : j < h + 1 - l
  · rw [bit_setFld_apart (by omega) (by omega)]
  · rw [decide_eq_false inside, Bool.false_and, Bool.false_and]

/-- A field that takes up the whole word is the word. -/
theorem setFld_word (w v : Word) : setFld w 31 0 (fld v 31 0) = v := by
  refine BitVec.eq_of_getLsbD_eq fun i hi => ?_
  refine (bit_setFld hi).trans ?_
  rw [if_pos (by omega), testBit_fld, decide_eq_true (by omega), Bool.true_and, Nat.sub_zero, Nat.zero_add, bit]

theorem fld_satFld {w : Word} {hi lo : Nat} (k : Nat) (h : hi < 32) :
    fld (satFld w hi lo k) hi lo = min (fld w hi lo + k) (2 ^ (hi + 1 - lo) - 1) := by
  have positive := Nat.two_pow_pos (hi + 1 - lo)
  exact fld_setFld h (by omega)

/-! ### The window at the page of the Commons -/

section
variable {s : State} (ha : Answers s) (acc : Acc) {r : Reg} (hr : r.inRange = true) (lo : 0x2000 ≤ r.off)
include ha hr lo

theorem write32_commons (v : Word) (da : Nat) : s.write32 acc r.off v da = s.writeReg acc r v da := by
  unfold State.write32
  rw [if_neg fun closed => ha.2 closed.1, if_neg (by omega), regAt_off hr (by omega)]

theorem put_commons (hi : r.off < 0x3000) (w : Word) : s.put acc r w.toNat = (s.writeReg acc r w r.off).1 := by
  have low : lo32 (BitVec.ofNat 64 w.toNat) = w := by simp [lo32]
  rw [State.put, busWrite_b32 ha.1 (reaches_commons ha lo hi acc.path), low, write32_commons ha acc hr lo]

end

/-- In OFF and RETAIN no path writes the page (R25, R254). -/
theorem busWrite_silent {s : State} (h : ¬ Answers s) (acc : Acc) (size : Size) {o : Nat} (lo : 0x2000 ≤ o) (v : DWord) :
    s.busWrite acc size o v = s := by
  by_cases off : s.mode = .off
  · exact busWrite_unanswered (.inl off) size v
  have retained : s.mode = .retain := by
    by_contra awake
    exact h ⟨off, awake⟩
  have closed {k : Nat} (hk : 0x2000 ≤ k) (w : Word) (da : Nat) : (s.write32 acc k w da).1 = s := by
    have shut : retainOpen k = false := by
      simp only [retainOpen, Bool.or_eq_false_iff, decide_eq_false_iff_not, beq_eq_false_iff_ne]
      omega
    unfold State.write32
    rw [if_pos ⟨retained, shut⟩, refuse_retain retained]
  unfold State.busWrite
  refine ite_eq_left_iff.mpr fun _ => ?_
  cases size with
  | b8 | b16 => exact refuse_retain retained acc o
  | b32 => exact closed lo _ _
  | b64 =>
    have low := closed lo (lo32 v) o
    refine (ite_congr rfl (fun _ => ?_) fun _ => refuse_retain retained acc o).trans (ite_self s)
    unfold State.write64
    dsimp only
    rw [low]
    exact closed (by omega) _ _

/-- Any access may write the registers of the page. -/
theorem commonsReg_unbarred {r : Reg} (h : CommonsReg r) (s : State) (acc : Acc) (v : Word) :
    ¬ ((r.caminOnly = true ∨ r.caminCmd v = true) ∧ acc.path ≠ .camin) ∧ ¬ s.secureBars acc r v = true := by
  cases h <;> simp [Reg.caminOnly, Reg.caminCmd, State.secureBars]

/-! ### CMN_TIME (R252) -/

theorem writeReg_cmnTime_low (s : State) (acc : Acc) (v : Word) (da : Nat) :
    s.writeReg acc (.cmnTime 0) v da = (s.setStage (pathKey acc.path 0x2000) v, 0) :=
  (if_neg (commonsReg_unbarred (.cmnTime 0) s acc v).1).trans (if_neg (commonsReg_unbarred (.cmnTime 0) s acc v).2)

theorem writeReg_cmnTime_high (s : State) (acc : Acc) (v : Word) (da : Nat) :
    s.writeReg acc (.cmnTime 1) v da = s.commitTime acc (mk64 v (s.stageAt (pathKey acc.path 0x2000))) da :=
  (if_neg (commonsReg_unbarred (.cmnTime 1) s acc v).1).trans (if_neg (commonsReg_unbarred (.cmnTime 1) s acc v).2)

/-- The low word is staged, and the high word commits both (R246). -/
theorem commonsTimeWrite_commits {s : State} (ha : Answers s) (acc : Acc) (val : DWord) : exec (.commonsTimeWrite acc val) s =
    .next ((s.setStage (pathKey acc.path 0x2000) (lo32 val)).commitTime acc val 0x2004).1 := by
  have staged : (s.setStage (pathKey acc.path 0x2000) (lo32 val)).stageAt (pathKey acc.path 0x2000) = lo32 val := get_put_same _ _ _
  have page : regAt (Reg.off (.cmnTime 0) + 4) = some (.cmnTime 1) := regAt_off (r := .cmnTime 1) (by decide) (by decide)
  have named : wideDa (Reg.off (.cmnTime 0)) = 0x2004 := wideDa_of_noAction fun q => by rw [page]; simp
  refine congrArg Host.Outcome.next ?_
  rw [busWrite_b64 ha.1 (reaches_commons ha (by decide) (by decide) acc.path) (by decide), named,
    write32_commons ha acc (r := .cmnTime 0) (by decide) (by decide), writeReg_cmnTime_low]
  refine congrArg Prod.fst ((write32_commons (r := .cmnTime 1) (s := s.setStage _ _) ha acc (by decide) (by decide) _ _).trans ?_)
  rw [writeReg_cmnTime_high, staged, mk64_halves]

/-! ### CMN_RADJ and CMN_SLEW (R247, R248) -/

theorem writeReg_cmnRadj (s : State) (acc : Acc) (v : Word) (da : Nat) : s.writeReg acc .cmnRadj v da = s.putFields acc .cmnRadj v da :=
  (if_neg (commonsReg_unbarred .cmnRadj s acc v).1).trans (if_neg (commonsReg_unbarred .cmnRadj s acc v).2)

theorem writeReg_cmnSlew (s : State) (acc : Acc) (v : Word) (da : Nat) : s.writeReg acc .cmnSlew v da = s.putFields acc .cmnSlew v da :=
  (if_neg (commonsReg_unbarred .cmnSlew s acc v).1).trans (if_neg (commonsReg_unbarred .cmnSlew s acc v).2)

theorem judge_cmnRadj (s : State) (v : Word) : s.judge .cmnRadj v = if 2 ^ 24 < v.toInt.natAbs then some 0x60 else none := by
  simp [State.judge, State.reservedIn, State.stoppedBars, State.ownerBars, changesStopped, Reg.fields]

theorem judge_cmnSlew (s : State) (v : Word) : s.judge .cmnSlew v = if v = 0x80000000 then some 0x60 else none := by
  simp [State.judge, State.reservedIn, State.stoppedBars, State.ownerBars, changesStopped, Reg.fields]

theorem putFields_turnedAway {s : State} (ha : Answers s) (acc : Acc) {r : Reg} {v : Word} {code : Nat} (h : s.judge r v = some code)
    (da : Nat) : s.putFields acc r v da = (turnedAway s acc code da, code) := by
  unfold State.putFields
  rw [h]
  exact refuse_answers ha acc code da

theorem rateAdjustWrite_accepted {s : State} (ha : Answers s) (acc : Acc) {val : Word} (h : val.toInt.natAbs ≤ 2 ^ 24) :
    exec (.rateAdjustWrite acc val) s = .next (s.setReg .cmnRadj val).touch := by
  have judged : s.judge .cmnRadj val = none := (judge_cmnRadj s val).trans (if_neg (by omega))
  refine congrArg Host.Outcome.next ((put_commons ha acc (r := .cmnRadj) rfl (by decide) (by decide) val).trans ?_)
  rw [writeReg_cmnRadj, putFields_accepted judged rfl]
  exact congrArg (fun w => (s.setReg .cmnRadj w).touch) (setFld_word _ val)

theorem rateAdjustWrite_refused {s : State} (ha : Answers s) (acc : Acc) {val : Word} (h : 2 ^ 24 < val.toInt.natAbs) :
    exec (.rateAdjustWrite acc val) s = .next (turnedAway s acc 0x60 0x2018) := by
  have judged : s.judge .cmnRadj val = some 0x60 := (judge_cmnRadj s val).trans (if_pos h)
  refine congrArg Host.Outcome.next ((put_commons ha acc (r := .cmnRadj) rfl (by decide) (by decide) val).trans ?_)
  rw [writeReg_cmnRadj, putFields_turnedAway ha acc judged]
  rfl

/-- A slew is a touch, and its units are counted from now on (R248). -/
def slewSet (s : State) (val : Word) : State :=
  { s.setReg .cmnSlew val with commons := { s.commons with touch := s.now, slewCnt := 0 } }

theorem slewWrite_accepted {s : State} (ha : Answers s) (acc : Acc) {val : Word} (h : val ≠ 0x80000000) :
    exec (.slewWrite acc val) s = .next (slewSet s val) := by
  have judged : s.judge .cmnSlew val = none := (judge_cmnSlew s val).trans (if_neg h)
  refine congrArg Host.Outcome.next ((put_commons ha acc (r := .cmnSlew) rfl (by decide) (by decide) val).trans ?_)
  rw [writeReg_cmnSlew, putFields_accepted judged rfl]
  exact congrArg (slewSet s) (setFld_word _ val)

theorem slewWrite_refused {s : State} (ha : Answers s) (acc : Acc) : exec (.slewWrite acc 0x80000000) s =
    .next (turnedAway s acc 0x60 0x201C) := by
  have judged : s.judge .cmnSlew 0x80000000 = some 0x60 := (judge_cmnSlew s _).trans (if_pos rfl)
  refine congrArg Host.Outcome.next ((put_commons ha acc (r := .cmnSlew) rfl (by decide) (by decide) _).trans ?_)
  rw [writeReg_cmnSlew, putFields_turnedAway ha acc judged]
  rfl

/-! ### CMN_STEP (R249) -/

/-- A step within the limit: it enters the advance of the cycle, counts and is a touch. -/
def stepTaken (s : State) (val : Word) : State :=
  { (s.setReg .cmnStep val).bumpRf .cmnStepcnt 15 0 1 with commons := { s.commons with touch := s.now, v := s.commons.v + val.toInt } }

/-- A step beyond the limit: STEPREF is set, the refusal counts. -/
def stepBarred (s : State) (val : Word) : State := ((s.setReg .cmnStep val).setRb .cmnStat 30 true).bumpRf .cmnStepcnt 31 16 1

theorem requestStep_eq (s : State) (path : Nat) (w : Word) : s.requestStep path w =
    if w.toInt.natAbs ≤ s.rf .cmnSteplim 30 0 then (stepTaken s w, true)
    else ((stepBarred s w).report 0x50 10 0 w (BitVec.ofNat 32 path), false) := by
  have limit : (s.setReg .cmnStep w).rf .cmnSteplim 30 0 = s.rf .cmnSteplim 30 0 :=
    congrArg (fld · 30 0) (setReg_reg_other s w (by decide))
  exact if_congr (iff_of_eq (congrArg (w.toInt.natAbs ≤ ·) limit)) rfl rfl

theorem writeReg_cmnStep (s : State) (acc : Acc) (v : Word) (da : Nat) : s.writeReg acc .cmnStep v da =
    if v = 0x80000000 then s.refuse acc 0x60 da
    else ((s.requestStep (pathIdx acc.path) v).1, if (s.requestStep (pathIdx acc.path) v).2 then 0 else 0x50) := by
  refine (if_neg (commonsReg_unbarred .cmnStep s acc v).1).trans ((if_neg (commonsReg_unbarred .cmnStep s acc v).2).trans ?_)
  refine if_congr beq_iff_eq rfl ?_
  obtain ⟨u, taken⟩ := s.requestStep (pathIdx acc.path) v
  cases taken <;> rfl

theorem stepRequest_asks {s : State} (ha : Answers s) (acc : Acc) {val : Word} (h : val ≠ 0x80000000) :
    exec (.stepRequest acc val) s = .next (s.requestStep (pathIdx acc.path) val).1 := by
  refine congrArg Host.Outcome.next ((put_commons ha acc (r := .cmnStep) rfl (by decide) (by decide) val).trans ?_)
  rw [writeReg_cmnStep, if_neg h]

theorem stepRequest_reserved {s : State} (ha : Answers s) (acc : Acc) : exec (.stepRequest acc 0x80000000) s =
    .next (turnedAway s acc 0x60 0x2024) := by
  refine congrArg Host.Outcome.next ((put_commons ha acc (r := .cmnStep) rfl (by decide) (by decide) _).trans ?_)
  rw [writeReg_cmnStep, if_pos rfl, refuse_answers ha]
  rfl

theorem stepTaken_regs (s : State) (val : Word) : OnlyRegs [.cmnStep, .cmnStepcnt] s ((s.setReg .cmnStep val).bumpRf .cmnStepcnt 15 0 1) ∧
    (stepTaken s val).reg .cmnStepcnt = satFld (s.reg .cmnStepcnt) 15 0 1 :=
  ⟨(setReg_onlyRegs s (by simp) val).trans (setReg_onlyRegs _ (by simp) _),
   (setReg_reg_self _ _ _).trans (congrArg (satFld · 15 0 1) (setReg_reg_other s val (by decide)))⟩

theorem stepBarred_regs (s : State) (val : Word) : OnlyRegs [.cmnStep, .cmnStepcnt, .cmnStat] s (stepBarred s val) ∧
    (stepBarred s val).reg .cmnStepcnt = satFld (s.reg .cmnStepcnt) 31 16 1 ∧
    (stepBarred s val).reg .cmnStat = setBit (s.reg .cmnStat) 30 true := by
  refine ⟨((setReg_onlyRegs s (by simp) val).trans (setReg_onlyRegs _ (by simp) _)).trans (setReg_onlyRegs _ (by simp) _), ?_, ?_⟩
  · refine (setReg_reg_self _ _ _).trans (congrArg (satFld · 31 16 1) ?_)
    exact (setReg_reg_other _ _ (by decide)).trans (setReg_reg_other s val (by decide))
  · refine (setReg_reg_other _ _ (by decide)).trans ((setReg_reg_self _ _ _).trans (congrArg (setBit · 30 true) ?_))
    exact setReg_reg_other s val (by decide)

/-! ### The four writes -/

/-- A committed time is the time of the next cycle, with fraction 0 and the era kept (R252). -/
theorem commonsTimeWrite_configure {s : State} (ha : Answers s) (acc : Acc) (val : DWord) (cfg : s.mode = .configure) :
    Leads (.commonsTimeWrite acc val) s fun t => t = { s with stage := t.stage, commons := t.commons, regs := t.regs } ∧
      OnlyAt (pathKey acc.path 0x2000) s.stageAt t.stageAt ∧ t.stageAt (pathKey acc.path 0x2000) = lo32 val ∧
      RegsBut [.cmnSync] s t ∧ t.rb .cmnSync 30 = false ∧ t.rb .cmnSync 31 = s.rb .cmnSync 31 ∧
      t.rf .cmnSync 23 0 = s.rf .cmnSync 23 0 ∧ t.commons = { s.commons with set := some val } ∧
      t.advanceTime.now = val ∧ t.advanceTime.commons.frac = 0 ∧ t.advanceTime.commons.era = s.commons.era := by
  let u := s.setStage (pathKey acc.path 0x2000) (lo32 val)
  let w : State := { u with commons := { s.commons with set := some val } }
  let t := w.setRb .cmnSync 30 false
  have others : RegsBut [.cmnSync] w t := setReg_regsBut w .cmnSync _
  have committed : u.commitTime acc val 0x2004 = (t, 0) := if_pos cfg
  have sync : t.reg .cmnSync = setBit (s.reg .cmnSync) 30 false := setReg_reg_self _ _ _
  refine ⟨t, (commonsTimeWrite_commits ha acc val).trans (by rw [committed]), rfl, fun j other => get_put_other _ _ other,
    get_put_same _ _ _, others, ?_, ?_, ?_, rfl, rfl, rfl, rfl⟩
  · exact (congrArg (bit · 30) sync).trans (bit_setBit false (by decide))
  · exact (congrArg (bit · 31) sync).trans (bit_setBit false (by decide))
  · exact (congrArg (fld · 23 0) sync).trans (fld_setBit_outside false (by decide) (by decide))

theorem commonsTimeWrite_running {s : State} (ha : Answers s) (acc : Acc) (val : DWord) (run : s.mode ≠ .configure) :
    exec (.commonsTimeWrite acc val) s = .next (if val = s.now then s.setStage (pathKey acc.path 0x2000) (lo32 val)
      else turnedAway (s.setStage (pathKey acc.path 0x2000) (lo32 val)) acc 0x60 0x2004) := by
  rw [commonsTimeWrite_commits ha]
  refine congrArg Host.Outcome.next ((congrArg Prod.fst (if_neg run)).trans ((apply_ite Prod.fst _ _ _).trans ?_))
  exact if_congr Iff.rfl rfl (congrArg Prod.fst (refuse_answers (s := s.setStage _ _) ha acc 0x60 0x2004))

theorem stepRequest_within {s : State} (ha : Answers s) (acc : Acc) {val : Word} (h : val ≠ 0x80000000)
    (within : val.toInt.natAbs ≤ s.rf .cmnSteplim 30 0) : exec (.stepRequest acc val) s = .next (stepTaken s val) := by
  rw [stepRequest_asks ha acc h, requestStep_eq, if_pos within]

theorem stepRequest_beyond {s : State} (ha : Answers s) (acc : Acc) {val : Word} (h : val ≠ 0x80000000)
    (beyond : s.rf .cmnSteplim 30 0 < val.toInt.natAbs) : exec (.stepRequest acc val) s = .next
      { stepBarred s val with reports := s.reports ++ [⟨s.cycle + 1, 0x50, 10, 0, val, BitVec.ofNat 32 (pathIdx acc.path), false⟩] } := by
  rw [stepRequest_asks ha acc h, requestStep_eq, if_neg (by omega), report_answers (s := stepBarred s val) ha]
  rfl

/-- Settles O50: each write as the register window gives it, by its register's own equation. -/
theorem steeringWritesSetTheCount : Obligations.SteeringWritesSetTheCount := by
  refine ⟨fun acc val s ha cfg => commonsTimeWrite_configure ha acc val cfg,
    fun acc val s ha run => commonsTimeWrite_running ha acc val run, ?_, fun acc val s ha large => rateAdjustWrite_refused ha acc large,
    ?_, ?_, ?_, fun acc s ha => ⟨slewWrite_refused ha acc, stepRequest_reserved ha acc⟩, ?_⟩
  case refine_1 =>
    intro acc val s ha range
    have kept {r : Reg} (other : r.off ≠ (Reg.cmnRadj).off) : (s.setReg .cmnRadj val).touch.reg r = s.reg r :=
      setReg_reg_other s val other
    have radj : (s.setReg .cmnRadj val).touch.reg .cmnRadj = val := setReg_reg_self s _ _
    refine ⟨_, rateAdjustWrite_accepted ha acc range, rfl, radj, setReg_regsBut s _ _, ?_⟩
    rw [State.rateNow, radj, kept (r := .cmnInci) (by decide), kept (r := .cmnIncf) (by decide)]
    rfl
  case refine_2 =>
    intro acc val s ha listed
    exact ⟨_, slewWrite_accepted ha acc listed, rfl, congrArg BitVec.toInt (setReg_reg_self s .cmnSlew val), setReg_regsBut s _ _⟩
  case refine_3 =>
    intro acc val s ha listed within
    obtain ⟨⟨⟨a, same⟩, others⟩, count⟩ := stepTaken_regs s val
    have taken := stepRequest_within ha acc listed within
    unfold stepTaken at taken count
    generalize (s.setReg .cmnStep val).bumpRf .cmnStepcnt 15 0 1 = u at *
    subst same
    refine ⟨_, taken, rfl, others, ?_, ?_⟩
    · exact (congrArg (fld · 15 0) count).trans (fld_satFld 1 (by decide))
    · exact (congrArg (fld · 31 16) count).trans (fld_setFld_apart (by decide) (by decide))
  case refine_4 =>
    intro acc val s ha listed beyond
    obtain ⟨⟨⟨a, same⟩, others⟩, count, stat⟩ := stepBarred_regs s val
    have barred := stepRequest_beyond ha acc listed beyond
    generalize stepBarred s val = u at *
    subst same
    refine ⟨_, barred, rfl, others, ?_, ?_, ?_, ?_, rfl⟩
    · exact (congrArg (bit · 30) stat).trans (bit_setBit true (by decide))
    · exact (congrArg (bit · 29) stat).trans (bit_setBit true (by decide))
    · exact (congrArg (fld · 15 0) count).trans (fld_setFld_apart (by decide) (by decide))
    · exact (congrArg (fld · 31 16) count).trans (fld_satFld 1 (by decide))
  case refine_5 =>
    intro acc v w s silent
    have unheard (size : Size) {o : Nat} (lo : 0x2000 ≤ o) (x : DWord) := busWrite_silent silent acc size lo x
    exact ⟨congrArg _ (unheard .b32 (by decide) _), congrArg _ (unheard .b32 (by decide) _),
      congrArg _ (unheard .b32 (by decide) _), congrArg _ (unheard .b64 (by decide) _)⟩

end Sys2Proof.Proofs
end
section
/-! SUPPORT. Timer channels (R258 to R264): what a fire does to its own channel, its event flag, the channels that watch the flag and
its slaves. -/
namespace Sys2Proof.Proofs
open Sys2Proof.Machine Sys2Proof.Laws

/-! ### One channel after another -/

/-- Of two states only the timers differ, and of these only channel `a`, which is `x` in the second. -/
structure TimerIs (a : Nat) (x : Timer) (u v : State) : Prop where
  frame : ∃ l, v = { u with timers := l }
  timer : ∀ j, v.timer j = if j = a then x else u.timer j

theorem setTimer_is (u : State) (a : Nat) (x : Timer) : TimerIs a x u (u.setTimer a x) := ⟨⟨_, rfl⟩, fun j => setTimer_timer u a j x⟩

theorem timerIs_refl (u : State) (a : Nat) : TimerIs a (u.timer a) u u := by
  refine ⟨⟨u.timers, rfl⟩, fun j => ?_⟩
  split
  · rename_i same
    rw [same]
  · rfl

theorem TimerIs.ite {a : Nat} {x y : Timer} {u v w : State} {p : Prop} [Decidable p] (hv : TimerIs a x u v) (hw : TimerIs a y u w) :
    TimerIs a (if p then x else y) u (if p then v else w) := by
  split
  · exact hv
  · exact hw

theorem tmrCapture_is (u : State) (a : Nat) : TimerIs a (captured (u.timer a) u.now) u (u.tmrCapture a) :=
  .ite (setTimer_is u a _) (setTimer_is u a _)

/-- Steps of which each changes one channel by what it is alone, in any state that they reach. -/
theorem each_timers {f : State → Nat → State} {g : Nat → Timer → Timer} {I : State → Prop} {l : List Nat} (distinct : l.Nodup)
    (step : ∀ u, ∀ a ∈ l, I u → I (f u a) ∧ ∀ j, (f u a).timer j = if j = a then g a (u.timer a) else u.timer j) {s : State} (start : I s) :
    I (s.each l f) ∧ ∀ j, (s.each l f).timer j = if j ∈ l then g j (s.timer j) else s.timer j := by
  induction l generalizing s with
  | nil => exact ⟨start, fun j => rfl⟩
  | cons a l ih =>
    obtain ⟨fresh, distinct⟩ := List.nodup_cons.mp distinct
    obtain ⟨next, first⟩ := step s a List.mem_cons_self start
    obtain ⟨last, rest⟩ := ih distinct (fun u b hb => step u b (List.mem_cons_of_mem a hb)) next
    refine ⟨last, fun j => (rest j).trans ?_⟩
    by_cases same : j = a
    · subst same
      rw [if_neg fresh, first, if_pos rfl, if_pos List.mem_cons_self]
    · rw [first, if_neg same]
      exact if_congr ((List.mem_cons.trans (or_iff_right same)).symm) rfl rfl

theorem mem_upto {n j : Nat} : j ∈ upto n ↔ j < n := List.mem_range

/-- The settings of the channels, the mode and the time are the same. -/
structure SameChannels (s u : State) : Prop where
  ctl : ∀ j, u.reg (.tmrCtl j) = s.reg (.tmrCtl j)
  mode : u.mode = s.mode
  now : u.now = s.now

theorem SameChannels.rb {s u : State} (h : SameChannels s u) (j i : Nat) : u.rb (.tmrCtl j) i = s.rb (.tmrCtl j) i :=
  congrArg (bit · i) (h.ctl j)

theorem SameChannels.live {s u : State} (h : SameChannels s u) (j : Nat) : u.tmrLive j = s.tmrLive j := by
  unfold State.tmrLive State.tmrFrozen State.rf State.rb
  rw [h.ctl, h.mode]

/-- Only the timers differ. -/
def TimersDiffer (s u : State) : Prop := ∃ l, u = { s with timers := l }

theorem TimersDiffer.sameChannels {s u : State} (h : TimersDiffer s u) : SameChannels s u := by
  obtain ⟨l, rfl⟩ := h
  exact ⟨fun _ => rfl, rfl, rfl⟩

theorem TimersDiffer.then {s u v : State} {a : Nat} {x : Timer} (h : TimersDiffer s u) (k : TimerIs a x u v) : TimersDiffer s v := by
  obtain ⟨l, rfl⟩ := h
  obtain ⟨l', rfl⟩ := k.frame
  exact ⟨l', rfl⟩

/-! ### Captures of a flag (R262) -/

/-- What the change of event flag `f` of cluster `c` from 0 makes of channel `j`: a capture where it watches the flag. -/
def watchedTimer (s : State) (c f j : Nat) (x : Timer) : Timer :=
  let w := s.reg (.tmrCtl j)
  if tmrMode w = 2 ∧ fld w 1 0 = 2 ∧ fld w 18 16 = c ∧ fld w 15 8 = f ∧ s.tmrLive j then captured x s.now else x

/-- The model's step for one channel. -/
def watchStep (c f : Nat) (s : State) (j : Nat) : State :=
  let w := s.reg (.tmrCtl j)
  if tmrMode w = 2 ∧ fld w 1 0 = 2 ∧ fld w 18 16 = c ∧ fld w 15 8 = f ∧ s.tmrLive j then s.tmrCapture j else s

theorem flagCaptures_eq (s : State) (c f : Nat) : s.flagCaptures c f = s.each (upto 32) (watchStep c f) := rfl

theorem watchStep_is (c f : Nat) (u : State) (j : Nat) : TimerIs j (watchedTimer u c f j (u.timer j)) u (watchStep c f u j) :=
  .ite (tmrCapture_is u j) (timerIs_refl u j)

theorem watchedTimer_same {s u : State} (h : SameChannels s u) (c f j : Nat) (x : Timer) :
    watchedTimer u c f j x = watchedTimer s c f j x := by
  unfold watchedTimer
  rw [h.ctl, h.live, h.now]

theorem flagCaptures_spec (s : State) (c f : Nat) : TimersDiffer s (s.flagCaptures c f) ∧
    ∀ j, (s.flagCaptures c f).timer j = if j < 32 then watchedTimer s c f j (s.timer j) else s.timer j := by
  obtain ⟨frame, timers⟩ := each_timers (I := TimersDiffer s) (g := watchedTimer s c f) (f := watchStep c f) (l := upto 32)
    List.nodup_range (fun u j _ reached => by
      have one := watchStep_is c f u j
      rw [watchedTimer_same reached.sameChannels] at one
      exact ⟨reached.then one, one.timer⟩) ⟨s.timers, rfl⟩
  exact ⟨frame, fun j => (timers j).trans (if_congr mem_upto rfl rfl)⟩

/-! ### Slaves (R264) -/

/-- What a fire of channel `m`, whose LAST is now `last`, makes of channel `j`. -/
def drivenTimer (s : State) (m : Nat) (last : DWord) (j : Nat) (x : Timer) : Timer :=
  let w := s.reg (.tmrCtl j)
  if tmrMaster w ≠ m ∨ j ≤ m ∨ ¬ s.rb (.tmrCtl j) 31 then x
  else if tmrMode w = 2 then (if fld w 1 0 = 1 ∧ s.tmrLive j then captured x s.now else x)
  else if tmrLink w = 2 then { x with armed := true, next := last + x.ivl }
  else if tmrLink w = 3 ∧ s.tmrLive j ∧ x.armed then { x with clk := x.clk - 1 }
  else x

/-- The model's step for one channel. -/
def driveStep (m : Nat) (s : State) (j : Nat) : State :=
  let w := s.reg (.tmrCtl j)
  if tmrMaster w ≠ m ∨ j ≤ m ∨ ¬ s.rb (.tmrCtl j) 31 then s
  else if tmrMode w = 2 then (if fld w 1 0 = 1 ∧ s.tmrLive j then s.tmrCapture j else s)
  else if tmrLink w = 2 then
    s.setTimer j { s.timer j with armed := true, next := (s.timer m).last + (s.timer j).ivl }
  else if tmrLink w = 3 ∧ s.tmrLive j ∧ (s.timer j).armed then
    s.setTimer j { s.timer j with clk := (s.timer j).clk - 1 }
  else s

theorem tmrSlaves_eq (s : State) (m : Nat) : s.tmrSlaves m = s.each (upto 32) (driveStep m) := rfl

theorem driveStep_is (m : Nat) (u : State) (j : Nat) :
    TimerIs j (drivenTimer u m (u.timer m).last j (u.timer j)) u (driveStep m u j) :=
  .ite (timerIs_refl u j) (.ite (.ite (tmrCapture_is u j) (timerIs_refl u j))
    (.ite (setTimer_is u j _) (.ite (setTimer_is u j _) (timerIs_refl u j))))

theorem drivenTimer_same {s u : State} (h : SameChannels s u) (m : Nat) (last : DWord) (j : Nat) (x : Timer) :
    drivenTimer u m last j x = drivenTimer s m last j x := by
  unfold drivenTimer
  rw [h.ctl, h.live, h.now, h.rb]

/-- A master drives only channels of higher numbers. -/
theorem drivenTimer_self (s : State) (m : Nat) (last : DWord) (x : Timer) : drivenTimer s m last m x = x :=
  if_pos (.inr (.inl (Nat.le_refl m)))

theorem tmrSlaves_spec (s : State) (m : Nat) : TimersDiffer s (s.tmrSlaves m) ∧
    ∀ j, (s.tmrSlaves m).timer j = if j < 32 then drivenTimer s m (s.timer m).last j (s.timer j) else s.timer j := by
  obtain ⟨⟨frame, -⟩, timers⟩ := each_timers (I := fun u => TimersDiffer s u ∧ u.timer m = s.timer m)
    (g := drivenTimer s m (s.timer m).last) (f := driveStep m) (l := upto 32)
    List.nodup_range (fun u j _ reached => by
      obtain ⟨differ, master⟩ := reached
      have one := driveStep_is m u j
      rw [master, drivenTimer_same differ.sameChannels] at one
      refine ⟨⟨differ.then one, (one.timer m).trans ?_⟩, one.timer⟩
      split
      · rename_i same
        rw [← same, drivenTimer_self, master]
      · exact master) ⟨⟨s.timers, rfl⟩, rfl⟩
  exact ⟨frame, fun j => (timers j).trans (if_congr mem_upto rfl rfl)⟩

end Sys2Proof.Proofs
end
section
/-! SUPPORT. A fire (R258, R260): the record and the status of the channel itself, its event flag, and the fire as a whole. -/
namespace Sys2Proof.Proofs
open Sys2Proof.Machine Sys2Proof.Laws

/-! ### When a channel fires -/

theorem tmrDue_iff (s : State) (ch : Nat) : s.tmrDue ch = true ↔ TmrFires s ch := by
  have reached : atOrAfter s.now (s.timer ch).next = true ↔ (s.now - (s.timer ch).next).toNat < 2 ^ 63 := atOrAfter_iff ..
  unfold TmrFires State.tmrDue
  change (s.tmrLive ch && decide (s.rf (.tmrCtl ch) 30 29 ≤ 1) && (s.timer ch).armed && (s.timer ch).fired != some s.cycle &&
    (if s.rf (.tmrCtl ch) 28 27 = 3 then (s.timer ch).clk == 0 && (s.timer (s.rf (.tmrCtl ch) 26 22)).fired == some s.cycle
     else atOrAfter s.now (s.timer ch).next && (s.rf (.tmrCtl ch) 28 27 != 1 || (s.timer (s.rf (.tmrCtl ch) 26 22)).level))) = true ↔ _
  by_cases clock : s.rf (.tmrCtl ch) 28 27 = 3
  · simp [clock, and_assoc]
  · simp [clock, and_assoc, reached, imp_iff_not_or]

theorem timerFire_due {ch : BitVec 5} {s : State} (h : TmrFires s ch.toNat) : exec (.timerFire ch) s = .next (s.tmrFire ch.toNat) :=
  congrArg Host.Outcome.next (if_pos ((tmrDue_iff s _).mpr h))

theorem timerFire_idle {ch : BitVec 5} {s : State} (h : ¬ TmrFires s ch.toNat) : Idle (.timerFire ch) s :=
  congrArg Host.Outcome.next (if_neg fun due => h ((tmrDue_iff s _).mp due))

/-! ### The channel itself -/

/-- The whole intervals that a late fire of a PERIODIC channel passes over (R260). -/
def skipped (s : State) (ch : Nat) : Nat := (s.now - (s.timer ch).next).toNat / (s.timer ch).ivl.toNat

/-- What a fire makes of its own channel (R258, R260, Table 82). -/
def firedTimer (s : State) (ch : Nat) : Timer :=
  let x := { s.timer ch with level := !(s.timer ch).level, fired := some s.cycle, first := false }
  let last := x.next + BitVec.ofNat 64 (skipped s ch * x.ivl.toNat)
  if s.rf (.tmrCtl ch) 28 27 = 3 then
    if s.rf (.tmrCtl ch) 30 29 = 1 then { x with last := s.now, clk := lo32 x.ivl } else { x with last := s.now, armed := false }
  else if s.rf (.tmrCtl ch) 30 29 = 0 then { x with last := x.next, armed := false }
  else { x with last := last, next := last + x.ivl }

/-- LATE_FIRE is set where NEXT was reached in an earlier cycle. -/
def lateNoted (s : State) (ch : Nat) : State :=
  if atOrAfter s.commons.prev (s.timer ch).next then s.setRb (.tmrStat ch) 31 true else s

theorem lateNoted_onlyRegs {l : List Reg} (s : State) {ch : Nat} (listed : .tmrStat ch ∈ l) : OnlyRegs l s (lateNoted s ch) :=
  .ite (setReg_onlyRegs s listed _) (.refl _ s)

theorem lateNoted_bit31 (s : State) (ch : Nat) : (lateNoted s ch).rb (.tmrStat ch) 31 =
    (s.rb (.tmrStat ch) 31 || decide ((s.commons.prev - (s.timer ch).next).toNat < 2 ^ 63)) := by
  have late : atOrAfter s.commons.prev (s.timer ch).next = decide ((s.commons.prev - (s.timer ch).next).toNat < 2 ^ 63) :=
    Bool.eq_iff_iff.mpr ((atOrAfter_iff _ _).trans decide_eq_true_iff.symm)
  unfold lateNoted
  rw [late]
  split
  · rename_i h
    rw [h, Bool.or_true]
    exact (congrArg (bit · 31) (setReg_reg_self s (.tmrStat ch) _)).trans (bit_setBit true (by decide))
  · rename_i h
    rw [Bool.eq_false_iff.mpr h, Bool.or_false]

theorem lateNoted_fld (s : State) (ch : Nat) {hi lo : Nat} (h : hi < 31) :
    (lateNoted s ch).rf (.tmrStat ch) hi lo = s.rf (.tmrStat ch) hi lo := by
  unfold lateNoted
  split
  · exact (congrArg (fld · hi lo) (setReg_reg_self s (.tmrStat ch) _)).trans (fld_setBit_outside true (by omega) (.inr h))
  · rfl

theorem tmrAdvance_clock {s : State} {ch : Nat} (clock : s.rf (.tmrCtl ch) 28 27 = 3) :
    s.tmrAdvance ch = s.setTimer ch (firedTimer s ch) :=
  (if_pos clock).trans ((apply_ite (s.setTimer ch) _ _ _).symm.trans (congrArg (s.setTimer ch) (if_pos clock).symm))

theorem tmrAdvance_oneshot {s : State} {ch : Nat} (timed : s.rf (.tmrCtl ch) 28 27 ≠ 3) (oneshot : s.rf (.tmrCtl ch) 30 29 = 0) :
    s.tmrAdvance ch = (lateNoted s ch).setTimer ch (firedTimer s ch) :=
  (if_neg timed).trans ((if_pos oneshot).trans
    (congrArg ((lateNoted s ch).setTimer ch) ((if_neg timed).trans (if_pos oneshot)).symm))

theorem tmrAdvance_periodic {s : State} {ch : Nat} (timed : s.rf (.tmrCtl ch) 28 27 ≠ 3) (periodic : s.rf (.tmrCtl ch) 30 29 ≠ 0) :
    s.tmrAdvance ch = ((lateNoted s ch).setTimer ch (firedTimer s ch)).bumpRf (.tmrStat ch) 7 0 (skipped s ch) := by
  have now : (lateNoted s ch).now = s.now := by
    unfold lateNoted
    split <;> rfl
  have fired := (if_neg timed).trans (if_neg periodic) (a := firedTimer s ch)
  rw [fired]
  unfold skipped
  rw [← now]
  exact (if_neg timed).trans (if_neg periodic)

theorem OnlyRegs.setTimer {l : List Reg} {s t : State} (h : OnlyRegs l s t) (ch : Nat) (x : Timer) :
    OnlyRegs l (s.setTimer ch x) (t.setTimer ch x) := by
  obtain ⟨⟨a, rfl⟩, regs⟩ := h
  exact ⟨⟨a, rfl⟩, regs⟩

theorem tmrAdvance_onlyRegs {l : List Reg} (s : State) {ch : Nat} (listed : .tmrStat ch ∈ l) :
    OnlyRegs l (s.setTimer ch (firedTimer s ch)) (s.tmrAdvance ch) := by
  have noted := (lateNoted_onlyRegs s listed).setTimer ch (firedTimer s ch)
  by_cases clock : s.rf (.tmrCtl ch) 28 27 = 3
  · rw [tmrAdvance_clock clock]
    exact .refl _ _
  by_cases oneshot : s.rf (.tmrCtl ch) 30 29 = 0
  · rwa [tmrAdvance_oneshot clock oneshot]
  · rw [tmrAdvance_periodic clock oneshot]
    exact noted.trans (setReg_onlyRegs _ listed _)

/-! ### The flag (R258, R262) -/

theorem setFlagAt_frame (s : State) (c f e : Nat) : s.setFlagAt c f e = { s with flags := (s.setFlagAt c f e).flags } := by
  unfold State.setFlagAt
  dsimp only
  repeat' split
  all_goals rfl

theorem setFlagAt_flagSet (s : State) (c f e d g : Nat) :
    (s.setFlagAt c f e).flagSet d g = (s.flagSet d g || decide (256 * d + g = 256 * c + f)) := by
  have put (x : EFlag) (set : x.val = true) : (s.putFlag c f x).flagSet d g = (s.flagSet d g || decide (256 * d + g = 256 * c + f)) := by
    rw [State.flagSet, putFlag_flag]
    split
    · rename_i same
      rw [set, decide_eq_true same, Bool.or_true]
    · rename_i other
      rw [decide_eq_false other, Bool.or_false]
      rfl
  unfold State.setFlagAt
  dsimp only
  split
  · rename_i set
    exact put _ set
  · split <;> exact put _ rfl

/-- A fire under TMR_CTL `w` sets its flag where OUTEN is 1, and channels capture the flag's change from 0. -/
def signalled (u : State) (w : Word) : State :=
  if bit w 19 then
    let v := u.setFlagAt (fld w 18 16) (fld w 15 8) u.cycle
    if u.flagNow (fld w 18 16) (fld w 15 8) then v else v.flagCaptures (fld w 18 16) (fld w 15 8)
  else u

/-- OUTEN is 1, and the flag still reads 0. -/
def raises (u : State) (w : Word) : Bool := bit w 19 && !u.flagNow (fld w 18 16) (fld w 15 8)

/-- Only timers and event flags differ. -/
def SignalsDiffer (u v : State) : Prop := ∃ l f, v = { u with timers := l, flags := f }

theorem SignalsDiffer.then {u v t : State} (h : SignalsDiffer u v) (k : TimersDiffer v t) : SignalsDiffer u t := by
  obtain ⟨l, f, rfl⟩ := h
  obtain ⟨l', rfl⟩ := k
  exact ⟨l', f, rfl⟩

theorem SignalsDiffer.sameChannels {u v : State} (h : SignalsDiffer u v) : SameChannels u v := by
  obtain ⟨l, f, rfl⟩ := h
  exact ⟨fun _ => rfl, rfl, rfl⟩

theorem setFlagAt_differ (u : State) (c f e : Nat) : SignalsDiffer u (u.setFlagAt c f e) := ⟨u.timers, _, setFlagAt_frame u c f e⟩

theorem setFlagAt_timer (u : State) (c f e j : Nat) : (u.setFlagAt c f e).timer j = u.timer j := by
  rw [setFlagAt_frame]
  rfl

theorem signalled_differ (u : State) (w : Word) : SignalsDiffer u (signalled u w) := by
  have set := setFlagAt_differ u (fld w 18 16) (fld w 15 8) u.cycle
  unfold signalled
  split
  · dsimp only
    split
    · exact set
    · exact set.then (flagCaptures_spec _ _ _).1
  · exact ⟨u.timers, u.flags, rfl⟩

theorem signalled_timer (u : State) (w : Word) (j : Nat) : (signalled u w).timer j =
    if j < 32 ∧ raises u w = true then watchedTimer u (fld w 18 16) (fld w 15 8) j (u.timer j) else u.timer j := by
  unfold signalled raises
  cases bit w 19 with
  | false => simp
  | true =>
    cases u.flagNow (fld w 18 16) (fld w 15 8) with
    | true => simp [setFlagAt_timer]
    | false =>
      have captures := (flagCaptures_spec (u.setFlagAt (fld w 18 16) (fld w 15 8) u.cycle) (fld w 18 16) (fld w 15 8)).2 j
      rw [watchedTimer_same (setFlagAt_differ ..).sameChannels, setFlagAt_timer] at captures
      simpa using captures

theorem signalled_flagSet (u : State) (w : Word) (c f : Nat) : (signalled u w).flagSet c f =
    (u.flagSet c f || (bit w 19 && decide (256 * c + f = 256 * fld w 18 16 + fld w 15 8))) := by
  have set := setFlagAt_flagSet u (fld w 18 16) (fld w 15 8) u.cycle c f
  unfold signalled
  cases bit w 19 with
  | false => simp
  | true =>
    rw [Bool.true_and, ← set]
    refine (apply_ite (State.flagSet · c f) _ _ _).trans ((if_pos rfl).trans ?_)
    refine (apply_ite (State.flagSet · c f) _ _ _).trans ((ite_congr rfl (fun _ => rfl) fun _ => ?_).trans (ite_self _))
    obtain ⟨l, frame⟩ := (flagCaptures_spec (u.setFlagAt (fld w 18 16) (fld w 15 8) u.cycle) (fld w 18 16) (fld w 15 8)).1
    rw [frame]
    rfl

/-! ### The fire -/

/-- The channel has advanced and counted its fire. -/
def struck (s : State) (ch : Nat) : State := (s.tmrAdvance ch).bump (.tmrFires ch) 1

theorem tmrFire_eq (s : State) (ch : Nat) : s.tmrFire ch = (signalled (struck s ch) (s.reg (.tmrCtl ch))).tmrSlaves ch := rfl

theorem struck_onlyRegs (s : State) (ch : Nat) :
    OnlyRegs [.tmrStat ch, .tmrFires ch] (s.setTimer ch (firedTimer s ch)) (struck s ch) :=
  (tmrAdvance_onlyRegs s (by simp)).trans (setReg_onlyRegs _ (by simp) _)

theorem struck_timer (s : State) (ch j : Nat) : (struck s ch).timer j = if j = ch then firedTimer s ch else s.timer j := by
  obtain ⟨a, frame⟩ := (struck_onlyRegs s ch).frame
  rw [frame]
  exact setTimer_timer s ch j _

theorem struck_sameChannels (s : State) (ch : Nat) : SameChannels s (struck s ch) := by
  obtain ⟨⟨a, frame⟩, regs⟩ := struck_onlyRegs s ch
  refine ⟨fun j => regs (.tmrCtl j) ?_, by rw [frame]; rfl, by rw [frame]; rfl⟩
  simp only [List.map_cons, List.map_nil, List.mem_cons, List.not_mem_nil, or_false, Reg.off]
  omega

theorem struck_flags (s : State) (ch : Nat) : (struck s ch).flags = s.flags ∧ (struck s ch).cycle = s.cycle := by
  obtain ⟨a, frame⟩ := (struck_onlyRegs s ch).frame
  rw [frame]
  exact ⟨rfl, rfl⟩

/-- The record of channel `j` once the fire's flag is set: with a capture where the channel watches the flag's change. -/
def noticed (s : State) (ch j : Nat) : Timer :=
  if raises s (s.reg (.tmrCtl ch)) then watchedTimer s (s.rf (.tmrCtl ch) 18 16) (s.rf (.tmrCtl ch) 15 8) j (s.timer j)
  else s.timer j

/-- What a fire of channel `ch` leaves. -/
structure Fired (s : State) (ch : Nat) (t : State) : Prop where
  frame : t = { s with regs := t.regs, timers := t.timers, flags := t.flags }
  regs : RegsBut [.tmrStat ch, .tmrFires ch] s t
  stat : t.reg (.tmrStat ch) = (s.tmrAdvance ch).reg (.tmrStat ch)
  fires : t.reg (.tmrFires ch) = satAdd (s.reg (.tmrFires ch)) 1
  own : t.timer ch = firedTimer s ch
  others : ∀ j, j ≠ ch → t.timer j = if j < 32 then drivenTimer s ch (t.timer ch).last j (noticed s ch j) else s.timer j
  flags : ∀ c f, t.flagSet c f = (s.flagSet c f || (s.rb (.tmrCtl ch) 19 &&
    decide (256 * c + f = 256 * s.rf (.tmrCtl ch) 18 16 + s.rf (.tmrCtl ch) 15 8)))

/-- A channel in mode CAPTURE alone captures. -/
theorem watchedTimer_other {s : State} {j : Nat} (h : s.rf (.tmrCtl j) 30 29 ≠ 2) (c f : Nat) (x : Timer) :
    watchedTimer s c f j x = x := if_neg fun watches => h watches.1

theorem tmrFire_fired {s : State} {ch : Nat} (h : s.rf (.tmrCtl ch) 30 29 ≠ 2) : Fired s ch (s.tmrFire ch) := by
  have channels := struck_sameChannels s ch
  obtain ⟨sameFlags, sameCycle⟩ := struck_flags s ch
  have raised : raises (struck s ch) (s.reg (.tmrCtl ch)) = raises s (s.reg (.tmrCtl ch)) := by
    unfold raises State.flagNow State.flag
    rw [sameFlags, sameCycle]
  have signals := signalled_differ (struck s ch) (s.reg (.tmrCtl ch))
  have timer (j : Nat) : (signalled (struck s ch) (s.reg (.tmrCtl ch))).timer j =
      if j = ch then firedTimer s ch else if j < 32 then noticed s ch j else s.timer j := by
    rw [signalled_timer, raised, watchedTimer_same channels, struck_timer]
    unfold noticed
    by_cases same : j = ch
    · subst same
      simp only [if_true, watchedTimer_other h, ite_self]
    · simp only [same, if_false, ite_and]
      rfl
  obtain ⟨slaves, driven⟩ := tmrSlaves_spec (signalled (struck s ch) (s.reg (.tmrCtl ch))) ch
  rw [← tmrFire_eq] at slaves driven
  have own : (s.tmrFire ch).timer ch = firedTimer s ch := by
    rw [driven, drivenTimer_self, ite_self, timer, if_pos rfl]
  have differ := signals.then slaves
  obtain ⟨a, frame⟩ := (struck_onlyRegs s ch).frame
  have reg (r : Reg) : (s.tmrFire ch).reg r = (struck s ch).reg r := by
    obtain ⟨l, f, e⟩ := differ
    rw [e]
    rfl
  refine ⟨?_, fun r other => (reg r).trans ((struck_onlyRegs s ch).regs r other), (reg _).trans ?_, (reg _).trans ?_, own, ?_, ?_⟩
  · obtain ⟨l, f, e⟩ := differ
    rw [e, frame]
    rfl
  · exact setReg_reg_other _ _ (by simp [Reg.off])
  · refine (setReg_reg_self _ _ _).trans (congrArg (satAdd · 1) ?_)
    exact (tmrAdvance_onlyRegs (l := [.tmrStat ch]) s (by simp)).regs _ (by simp [Reg.off])
  · intro j other
    rw [driven, own, timer, timer, if_neg other, if_pos rfl, drivenTimer_same signals.sameChannels, drivenTimer_same channels]
    split <;> rfl
  · intro c f
    have kept : (s.tmrFire ch).flagSet c f = (signalled (struck s ch) (s.reg (.tmrCtl ch))).flagSet c f := by
      obtain ⟨l, e⟩ := slaves
      rw [e]
      rfl
    rw [kept, signalled_flagSet]
    unfold State.flagSet State.flag
    rw [sameFlags]
    rfl

end Sys2Proof.Proofs
end
section
/-! SUPPORT. A fire by the settings of its channels (Tables 81 to 83): what each kind of slave and each watching channel takes, and the
end of a cycle with a lost capture (R263). -/
namespace Sys2Proof.Proofs
open Sys2Proof.Machine Sys2Proof.Laws

/-! ### The status of the channel -/

theorem tmrAdvance_stat {s : State} {ch : Nat} (timed : s.rf (.tmrCtl ch) 28 27 ≠ 3) :
    (s.tmrAdvance ch).rb (.tmrStat ch) 31 =
      (s.rb (.tmrStat ch) 31 || decide ((s.commons.prev - (s.timer ch).next).toNat < 2 ^ 63)) ∧
    (s.tmrAdvance ch).rf (.tmrStat ch) 30 8 = s.rf (.tmrStat ch) 30 8 ∧
    (s.tmrAdvance ch).rf (.tmrStat ch) 7 0 =
      if s.rf (.tmrCtl ch) 30 29 = 0 then s.rf (.tmrStat ch) 7 0 else min (s.rf (.tmrStat ch) 7 0 + skipped s ch) 255 := by
  rw [← lateNoted_bit31, ← lateNoted_fld s ch (hi := 30) (lo := 8) (by decide), ← lateNoted_fld s ch (hi := 7) (lo := 0) (by decide)]
  by_cases oneshot : s.rf (.tmrCtl ch) 30 29 = 0
  · rw [tmrAdvance_oneshot timed oneshot, if_pos oneshot]
    exact ⟨rfl, rfl, rfl⟩
  · rw [tmrAdvance_periodic timed oneshot, if_neg oneshot]
    have stat := setReg_reg_self ((lateNoted s ch).setTimer ch (firedTimer s ch)) (.tmrStat ch)
      (satFld ((lateNoted s ch).reg (.tmrStat ch)) 7 0 (skipped s ch))
    exact ⟨(congrArg (bit · 31) stat).trans (bit_setFld_apart (by decide) (by decide)),
      (congrArg (fld · 30 8) stat).trans (fld_setFld_apart (by decide) (by decide)),
      (congrArg (fld · 7 0) stat).trans (fld_satFld _ (by decide))⟩

/-! ### Slaves -/

section
variable {s : State} {m j : Nat} (last : DWord) (x : Timer)

theorem drivenTimer_slave (h : SlaveOf s m j) : drivenTimer s m last j x =
    if s.rf (.tmrCtl j) 30 29 = 2 then (if s.rf (.tmrCtl j) 1 0 = 1 ∧ s.tmrLive j = true then captured x s.now else x)
    else if s.rf (.tmrCtl j) 28 27 = 2 then { x with armed := true, next := last + x.ivl }
    else if s.rf (.tmrCtl j) 28 27 = 3 ∧ s.tmrLive j = true ∧ x.armed = true then { x with clk := x.clk - 1 }
    else x := by
  obtain ⟨above, -, master, enabled⟩ := h
  refine if_neg ?_
  rintro (foreign | below | disabled)
  · exact foreign master
  · omega
  · exact disabled enabled

theorem drivenTimer_free (hj : j < 32) (h : ¬ SlaveOf s m j) : drivenTimer s m last j x = x := by
  refine if_pos ?_
  by_contra driven
  obtain ⟨master, above, enabled⟩ : tmrMaster (s.reg (.tmrCtl j)) = m ∧ m < j ∧ s.rb (.tmrCtl j) 31 = true := by
    simpa only [not_or, not_not, not_le] using driven
  exact h ⟨above, hj, master, enabled⟩

/-- A channel in mode CAPTURE takes a fire only where it captures its master's fires. -/
theorem drivenTimer_capture (hj : j < 32) (mode : s.rf (.tmrCtl j) 30 29 = 2) (h : ¬ (s.rf (.tmrCtl j) 1 0 = 1 ∧ s.tmrLive j = true)) :
    drivenTimer s m last j x = x := by
  by_cases slave : SlaveOf s m j
  · rw [drivenTimer_slave last x slave, if_pos mode, if_neg h]
  · exact drivenTimer_free last x hj slave

end

/-! ### Watchers -/

/-- The cluster and the number of a flag field. -/
theorem fld_flag (w : Word) : fld w 18 8 = 256 * fld w 18 16 + fld w 15 8 ∧ fld w 15 8 < 256 := by
  simp only [fld, natFld, Nat.shiftRight_eq_div_pow]
  omega

section
variable {s : State} {ch j : Nat}

theorem noticed_other (h : ¬ (s.rf (.tmrCtl j) 30 29 = 2 ∧ s.rf (.tmrCtl j) 1 0 = 2 ∧ s.tmrLive j = true)) :
    noticed s ch j = s.timer j := by
  refine ite_eq_right_iff.mpr fun _ => if_neg ?_
  rintro ⟨mode, source, -, -, live⟩
  exact h ⟨mode, source, live⟩

theorem noticed_quiet (h : s.rb (.tmrCtl ch) 19 = false ∨ s.rf (.tmrCtl j) 18 8 ≠ s.rf (.tmrCtl ch) 18 8 ∨
    s.flagNow (s.rf (.tmrCtl j) 18 16) (s.rf (.tmrCtl j) 15 8) = true) : noticed s ch j = s.timer j := by
  refine ite_eq_right_iff.mpr fun raised => if_neg ?_
  rintro ⟨-, -, cluster, number, -⟩
  obtain ⟨outen, clear⟩ : s.rb (.tmrCtl ch) 19 = true ∧ s.flagNow (s.rf (.tmrCtl ch) 18 16) (s.rf (.tmrCtl ch) 15 8) = false := by
    simpa [raises, State.rb, State.rf] using raised
  rcases h with off | other | set
  · simp [off] at outen
  · exact other ((fld_flag _).1.trans (by rw [cluster, number]; exact (fld_flag _).1.symm))
  · rw [State.rf, State.rf, cluster, number, clear] at set
    cases set

theorem noticed_watching (mode : s.rf (.tmrCtl j) 30 29 = 2) (source : s.rf (.tmrCtl j) 1 0 = 2) (live : s.tmrLive j = true)
    (outen : s.rb (.tmrCtl ch) 19 = true) (same : s.rf (.tmrCtl j) 18 8 = s.rf (.tmrCtl ch) 18 8)
    (clear : s.flagNow (s.rf (.tmrCtl j) 18 16) (s.rf (.tmrCtl j) 15 8) = false) : noticed s ch j = captured (s.timer j) s.now := by
  obtain ⟨cluster, number⟩ : s.rf (.tmrCtl j) 18 16 = s.rf (.tmrCtl ch) 18 16 ∧ s.rf (.tmrCtl j) 15 8 = s.rf (.tmrCtl ch) 15 8 := by
    have mine := fld_flag (s.reg (.tmrCtl j))
    have its := fld_flag (s.reg (.tmrCtl ch))
    unfold State.rf at *
    omega
  rw [cluster, number] at clear
  have raised : raises s (s.reg (.tmrCtl ch)) = true := by
    rw [raises, Bool.and_eq_true, Bool.not_eq_true']
    exact ⟨outen, clear⟩
  exact (if_pos raised).trans (if_pos ⟨mode, source, cluster, number, live⟩)

end

/-! ### Other channels than the one that fires -/

section
variable {s t : State} {ch j : Nat} (h : Fired s ch t) (other : j ≠ ch)
include h other

theorem Fired.below (hj : j < 32) : t.timer j = drivenTimer s ch (t.timer ch).last j (noticed s ch j) :=
  (h.others j other).trans (if_pos hj)

theorem Fired.same (hn : noticed s ch j = s.timer j) (hd : j < 32 → drivenTimer s ch (t.timer ch).last j (s.timer j) = s.timer j) :
    t.timer j = s.timer j := by
  refine (h.others j other).trans (ite_eq_right_iff.mpr fun hj => ?_)
  rw [hn, hd hj]

/-- A channel in mode CAPTURE that captures its master's fires. -/
theorem Fired.captures_fire (slave : SlaveOf s ch j) (mode : s.rf (.tmrCtl j) 30 29 = 2) (source : s.rf (.tmrCtl j) 1 0 = 1)
    (live : s.tmrLive j = true) : t.timer j = captured (s.timer j) s.now := by
  rw [h.below other slave.2.1, noticed_other (by simp [source]), drivenTimer_slave _ _ slave, if_pos mode, if_pos ⟨source, live⟩]

theorem Fired.resets (slave : SlaveOf s ch j) (mode : s.rf (.tmrCtl j) 30 29 ≠ 2) (link : s.rf (.tmrCtl j) 28 27 = 2) :
    t.timer j = { s.timer j with armed := true, next := (t.timer ch).last + (s.timer j).ivl } := by
  rw [h.below other slave.2.1, noticed_other (by simp [mode]), drivenTimer_slave _ _ slave, if_neg mode, if_pos link]

theorem Fired.clocks (slave : SlaveOf s ch j) (mode : s.rf (.tmrCtl j) 30 29 ≠ 2) (link : s.rf (.tmrCtl j) 28 27 = 3)
    (live : s.tmrLive j = true) (armed : (s.timer j).armed = true) : t.timer j = { s.timer j with clk := (s.timer j).clk - 1 } := by
  rw [h.below other slave.2.1, noticed_other (by simp [mode]), drivenTimer_slave _ _ slave, if_neg mode, if_neg (by simp [link]),
    if_pos ⟨link, live, armed⟩]

theorem Fired.captures_flag (hj : j < 32) (mode : s.rf (.tmrCtl j) 30 29 = 2) (source : s.rf (.tmrCtl j) 1 0 = 2)
    (live : s.tmrLive j = true) (outen : s.rb (.tmrCtl ch) 19 = true) (same : s.rf (.tmrCtl j) 18 8 = s.rf (.tmrCtl ch) 18 8)
    (clear : s.flagNow (s.rf (.tmrCtl j) 18 16) (s.rf (.tmrCtl j) 15 8) = false) : t.timer j = captured (s.timer j) s.now := by
  rw [h.below other hj, drivenTimer_capture _ _ hj mode (by simp [source]), noticed_watching mode source live outen same clear]

theorem Fired.captures_none (mode : s.rf (.tmrCtl j) 30 29 = 2)
    (idle : s.tmrLive j = false ∨ s.rf (.tmrCtl j) 1 0 = 0 ∨ (s.rf (.tmrCtl j) 1 0 = 1 ∧ ¬ SlaveOf s ch j)) : t.timer j = s.timer j := by
  rcases idle with dead | none | ⟨source, free⟩
  · exact h.same other (noticed_other (by simp [dead])) fun hj => drivenTimer_capture _ _ hj mode (by simp [dead])
  · exact h.same other (noticed_other (by simp [none])) fun hj => drivenTimer_capture _ _ hj mode (by simp [none])
  · exact h.same other (noticed_other (by simp [source])) fun hj => drivenTimer_free _ _ hj free

theorem Fired.drives_none (mode : s.rf (.tmrCtl j) 30 29 ≠ 2) (idle : ¬ SlaveOf s ch j ∨ s.rf (.tmrCtl j) 28 27 < 2 ∨
    (s.rf (.tmrCtl j) 28 27 = 3 ∧ (s.tmrLive j = false ∨ (s.timer j).armed = false))) : t.timer j = s.timer j := by
  refine h.same other (noticed_other (by simp [mode])) fun hj => ?_
  by_cases slave : SlaveOf s ch j
  · rw [drivenTimer_slave _ _ slave, if_neg mode]
    rcases idle with free | low | ⟨link, stopped⟩
    · exact absurd slave free
    · rw [if_neg (by omega), if_neg (by omega)]
    · rw [if_neg (by omega), if_neg]
      rintro ⟨-, live, armed⟩
      rcases stopped with dead | disarmed
      · simp [dead] at live
      · simp [disarmed] at armed
  · exact drivenTimer_free _ _ hj slave

end

/-! ### The end of a cycle (R263) -/

theorem tmrSettle_none {s : State} {ch : Nat} (h : (s.timer ch).lost = none) : s.tmrSettle ch = s := by
  unfold State.tmrSettle
  dsimp only
  rw [h]

theorem tmrSettle_lost {s : State} {ch : Nat} (h : (s.timer ch).lost ≠ none) : s.tmrSettle ch =
    ((s.setTimer ch { s.timer ch with lost := none }).setRb (.tmrStat ch) 30 true).bumpRf (.tmrStat ch) 15 8 1 := by
  obtain ⟨v, lost⟩ := Option.ne_none_iff_exists'.mp h
  unfold State.tmrSettle
  dsimp only
  rw [lost]

/-- A bit of a register is set, and a saturating field of it counts. -/
theorem setRb_bumpRf_regs (u : State) (r : Reg) (i hi lo : Nat) :
    ((u.setRb r i true).bumpRf r hi lo 1).reg r = satFld (setBit (u.reg r) i true) hi lo 1 ∧
    RegsBut [r] u ((u.setRb r i true).bumpRf r hi lo 1) := by
  have listed : r ∈ [r] := List.mem_singleton_self r
  have noted : OnlyRegs [r] u (u.setRb r i true) := setReg_onlyRegs u listed _
  have counted : OnlyRegs [r] (u.setRb r i true) ((u.setRb r i true).bumpRf r hi lo 1) := setReg_onlyRegs _ listed _
  exact ⟨(setReg_reg_self _ _ _).trans (congrArg (satFld · hi lo 1) (setReg_reg_self u _ _)), (noted.trans counted).regs⟩

theorem tmrSettle_lost_stat {s : State} {ch : Nat} (h : (s.timer ch).lost ≠ none) :
    (s.tmrSettle ch).reg (.tmrStat ch) = satFld (setBit (s.reg (.tmrStat ch)) 30 true) 15 8 1 ∧
    RegsBut [.tmrStat ch] s (s.tmrSettle ch) := by
  rw [tmrSettle_lost h]
  exact setRb_bumpRf_regs (s.setTimer ch { s.timer ch with lost := none }) (.tmrStat ch) 30 15 8

/-! ### The statement -/

theorem fires_fired {s : State} {ch : BitVec 5} (fires : TmrFires s ch.toNat) : Fired s ch.toNat (s.tmrFire ch.toNat) := by
  obtain ⟨-, mode, -⟩ := fires
  exact tmrFire_fired (by omega)

/-- Settles O53: a fire by `tmrFire_fired`, its own channel by `firedTimer` and `tmrAdvance_stat`, the others by what they take. -/
theorem timersFireWhenReached : Obligations.TimersFireWhenReached := by
  refine ⟨fun ch s idle => timerFire_idle idle, ?_, ?_, ?_, ?_, fun s ch => ⟨tmrSettle_none, fun lost => ?_⟩⟩
  case refine_1 =>
    rintro ch _ s fires timed rfl
    have fired := fires_fired fires
    obtain ⟨late, rest, skip⟩ := tmrAdvance_stat timed
    have rf (hi lo : Nat) : (s.tmrFire ch.toNat).rf (.tmrStat ch.toNat) hi lo = (s.tmrAdvance ch.toNat).rf (.tmrStat ch.toNat) hi lo :=
      congrArg (fld · hi lo) fired.stat
    refine ⟨_, timerFire_due fires, fun oneshot => ⟨?_, ?_⟩, fun periodic => ⟨?_, ?_⟩, ?_, ?_⟩
    · exact fired.own.trans ((if_neg timed).trans (if_pos oneshot))
    · rw [rf, skip, if_pos oneshot]
    · exact fired.own.trans ((if_neg timed).trans (if_neg (by omega)))
    · rw [rf, skip, if_neg (by omega)]
      rfl
    · exact (congrArg (bit · 31) fired.stat).trans late
    · rw [rf, rest]
  case refine_2 =>
    intro ch s fires clock
    have fired := fires_fired fires
    have due := timerFire_due fires
    obtain ⟨-, -, armed, -⟩ := fires
    refine ⟨_, due, ?_, ?_⟩
    · rw [fired.stat, tmrAdvance_clock clock]
      rfl
    · rw [fired.own, firedTimer, if_pos clock]
      by_cases periodic : s.rf (.tmrCtl ch.toNat) 30 29 = 1
      · rw [if_pos periodic, if_pos periodic, periodic, armed]
        rfl
      · rw [if_neg periodic, if_neg periodic, beq_eq_false_iff_ne.mpr periodic]
  case refine_3 =>
    intro ch c f s fires
    have fired := fires_fired fires
    refine ⟨_, timerFire_due fires, fired.frame, fired.regs, fired.fires, fun small => ?_⟩
    have number : s.rf (.tmrCtl ch.toNat) 15 8 < 256 := (fld_flag _).2
    have flag : decide (256 * c + f = 256 * s.rf (.tmrCtl ch.toNat) 18 16 + s.rf (.tmrCtl ch.toNat) 15 8) =
        (c == s.rf (.tmrCtl ch.toNat) 18 16 && f == s.rf (.tmrCtl ch.toNat) 15 8) := by
      rw [Bool.eq_iff_iff, decide_eq_true_iff, Bool.and_eq_true, beq_iff_eq, beq_iff_eq]
      omega
    rw [fired.flags, flag, Bool.and_assoc]
  case refine_4 =>
    intro ch j s fires other
    have fired := fires_fired fires
    refine ⟨_, timerFire_due fires, fired.captures_fire other, fired.resets other, fired.clocks other, fired.captures_flag other,
      fired.captures_none other, fun mode source quiet => ?_, fired.drives_none other⟩
    exact fired.same other (noticed_quiet quiet) fun hj => drivenTimer_capture _ _ hj mode (by simp [source])
  case refine_5 =>
    obtain ⟨stat, others⟩ := tmrSettle_lost_stat lost
    refine ⟨?_, ?_, ?_, others⟩
    · rw [tmrSettle_lost lost]
      exact (setTimer_timer s ch ch _).trans (if_pos rfl)
    · refine (congrArg (bit · 30) stat).trans ?_
      exact (bit_setFld_apart (by decide) (by decide)).trans (bit_setBit true (by decide))
    · refine (congrArg (fld · 15 8) stat).trans ((fld_satFld 1 (by decide)).trans ?_)
      rw [fld_setBit_outside true (by decide) (by decide)]
      rfl

end Sys2Proof.Proofs
end
section
/-! SUPPORT. Reads of 64-bit values (R245, R246): the two words of a value behind a path's latch, and the FIFOs that deliver so. -/
namespace Sys2Proof.Proofs
open Sys2Proof.Machine Sys2Proof.Laws

/-! ### A read of one word -/

section
variable {s : State} {acc : Acc} (h : Open s acc) {r : Reg}
include h

theorem read32_open (hr : r.inRange = true) (ho : 0x100 ≤ r.off) : s.read32 acc r.off = s.readReg acc r := by
  obtain ⟨-, -, awake⟩ := h
  unfold State.read32
  rw [if_neg fun retained => awake retained.1, if_neg (by omega), regAt_off hr ho]

theorem open_answers (o : Nat) : ¬ (s.mode = .off ∨ s.reaches acc.path o = false) := by
  obtain ⟨-, on, -⟩ := id h
  simp [on, reaches_open h]

theorem busRead_b32 (hr : r.inRange = true) (ho : 0x100 ≤ r.off) :
    s.busRead acc .b32 r.off = (s.readReg acc r).1.setRead acc.path ((s.readReg acc r).2.setWidth 64) := by
  rw [← read32_open h hr ho]
  exact if_neg (open_answers h _)

theorem busRead_b64 {o : Nat} (aligned : o % 8 = 0) :
    s.busRead acc .b64 o = (read64 s acc o).1.setRead acc.path (read64 s acc o).2 :=
  (if_neg (open_answers h o)).trans (if_pos aligned)

end

theorem wideReadLow_at {r : Reg} (hr : r.inRange = true) (ho : 0x100 ≤ r.off) (acc : Acc) (size : Size) (s : State) :
    exec (.wideReadLow acc size (BitVec.ofNat 20 r.off)) s = .next (s.busRead acc size r.off) :=
  congrArg (fun o => Host.Outcome.next (s.busRead acc size o)) (toNat_off hr ho rfl)

theorem readData_other {p x : Path} (s : State) (v : DWord) (h : x ≠ p) : (s.setRead p v).readData x = s.readData x :=
  get_put_other _ _ (by cases x <;> cases p <;> simp_all [pathIdx])

/-! ### Two words of one value -/

/-- A read of `lo` delivers the low word of `v`, latches the high word on the path and leaves `u` beside that; `hi` reads the latch. -/
structure WidePair (s : State) (acc : Acc) (lo hi : Reg) (v : DWord) (u : State) : Prop where
  low : s.readReg acc lo = (u.setLatch (pathKey acc.path lo.off) (hi32 v), lo32 v)
  high : ∀ t : State, t.readReg acc hi = (t, t.latchAt (pathKey acc.path lo.off))
  lowRange : lo.inRange = true
  highRange : hi.inRange = true
  next : hi.off = lo.off + 4
  aligned : lo.off % 8 = 0
  above : 0x100 ≤ lo.off
  mode : u.mode = s.mode

section
variable {s u : State} {acc : Acc} {lo hi : Reg} {v : DWord} (pair : WidePair s acc lo hi v u)
include pair

theorem WidePair.read_low (h : Open s acc) : s.busRead acc .b32 lo.off =
    (u.setLatch (pathKey acc.path lo.off) (hi32 v)).setRead acc.path ((lo32 v).setWidth 64) := by
  rw [busRead_b32 h pair.lowRange pair.above, pair.low]

theorem WidePair.opened (h : Open s acc) (k : Nat) (w : Word) : Open (u.setLatch k w) acc := by
  obtain ⟨path, on, awake⟩ := h
  exact ⟨path, fun off => on (pair.mode.symm.trans off), fun retained => awake (pair.mode.symm.trans retained)⟩

theorem WidePair.high_above : 0x100 ≤ hi.off := by
  have above := pair.above
  have next := pair.next
  omega

/-- The high word read next, whatever the path's read port shows meanwhile. -/
theorem WidePair.read_high (h : Open s acc) (x : DWord) :
    ((u.setLatch (pathKey acc.path lo.off) (hi32 v)).setRead acc.path x).busRead acc .b32 hi.off =
      ((u.setLatch (pathKey acc.path lo.off) (hi32 v)).setRead acc.path x).setRead acc.path ((hi32 v).setWidth 64) := by
  have after : Open ((u.setLatch (pathKey acc.path lo.off) (hi32 v)).setRead acc.path x) acc :=
    pair.opened h (pathKey acc.path lo.off) (hi32 v)
  have latched : ((u.setLatch (pathKey acc.path lo.off) (hi32 v)).setRead acc.path x).latchAt (pathKey acc.path lo.off) = hi32 v :=
    get_put_same _ _ _
  rw [busRead_b32 after pair.highRange pair.high_above, pair.high, latched]

theorem WidePair.read_both (h : Open s acc) : s.busRead acc .b64 lo.off =
    (u.setLatch (pathKey acc.path lo.off) (hi32 v)).setRead acc.path v := by
  have low : s.read32 acc lo.off = (u.setLatch (pathKey acc.path lo.off) (hi32 v), lo32 v) :=
    (read32_open h pair.lowRange pair.above).trans pair.low
  have high : (u.setLatch (pathKey acc.path lo.off) (hi32 v)).read32 acc (lo.off + 4) =
      (u.setLatch (pathKey acc.path lo.off) (hi32 v), hi32 v) := by
    rw [← pair.next, read32_open (pair.opened h _ _) pair.highRange pair.high_above, pair.high]
    exact congrArg (Prod.mk _) (get_put_same _ _ _)
  rw [busRead_b64 h pair.aligned, read64, low]
  dsimp only
  rw [high, mk64_halves]

end

/-! ### The values under the rule (R245, R263, R292) -/

theorem wide_pair {s : State} (acc : Acc) {r : Reg} {v : DWord} (listed : r.inRange = true) (value : wide s r = some v) :
    ∃ latch, WidePair s acc r (highWord r) v { s with latch := latch } := by
  unfold wide at value
  split at value
  case h_5 => cases value
  all_goals
    obtain rfl := Option.some.inj value
    simp only [Reg.inRange, Bool.and_eq_true, decide_eq_true_eq] at listed
  case h_2 =>
    exact ⟨_, rfl, fun _ => rfl, rfl, rfl, rfl, rfl, by decide, rfl⟩
  all_goals
    refine ⟨s.latch, rfl, fun _ => rfl, ?_, ?_, rfl, ?_, ?_, rfl⟩
  all_goals
    simp only [Reg.inRange, highWord, Reg.off, Bool.and_eq_true, decide_eq_true_eq]
    omega

theorem capture_pair {s u : State} (acc : Acc) {ch : Nat} {v : DWord} (hc : ch < 32) (popped : s.tmrPop ch = (u, v)) (mode : u.mode = s.mode) :
    WidePair s acc (.tmrCap ch 0) (.tmrCap ch 1) v u := by
  have low : s.readReg acc (.tmrCap ch 0) = (s.tmrPop ch).1.readLow acc.path (Reg.off (.tmrCap ch 0)) (s.tmrPop ch).2 := rfl
  rw [popped] at low
  refine ⟨low, fun _ => rfl, ?_, ?_, rfl, ?_, ?_, mode⟩
  all_goals
    simp only [Reg.inRange, Reg.off, Bool.and_eq_true, decide_eq_true_eq]
    omega

theorem laneCapture_pair {s u : State} (acc : Acc) {q l : Nat} {v : DWord} (hq : q < 64) (hl : l < 8) (popped : s.popCap q l = (u, v))
    (mode : u.mode = s.mode) : WidePair s acc (.psqCap q l 0) (.psqCap q l 1) v u := by
  have low : s.readReg acc (.psqCap q l 0) = (s.popCap q l).1.readLow acc.path (Reg.off (.psqCap q l 0)) (s.popCap q l).2 := rfl
  rw [popped] at low
  refine ⟨low, fun _ => rfl, ?_, ?_, rfl, ?_, ?_, mode⟩
  all_goals
    simp only [Reg.inRange, Reg.off, psqBase, Bool.and_eq_true, decide_eq_true_eq]
    omega

theorem tmrPop_kept {s : State} {ch : Nat} {v : DWord} {l : List DWord} (caps : (s.timer ch).caps = v :: l)
    (kept : (s.timer ch).lost = none) : s.tmrPop ch = (s.setTimer ch { s.timer ch with caps := l }, v) := by
  unfold State.tmrPop
  dsimp only
  rw [caps]
  dsimp only
  rw [kept]

theorem tmrPop_empty {s : State} {ch : Nat} (caps : (s.timer ch).caps = []) : s.tmrPop ch = (s, 0) := by
  unfold State.tmrPop
  dsimp only
  rw [caps]

theorem popCap_entry {s : State} {q l : Nat} {w : Word} {b : Bool} {rest : List (Word × Bool)} (caps : (s.lane q l).caps = (w, b) :: rest) :
    s.popCap q l = (s.setLane q l { s.lane q l with caps := rest }, mk64 (BitVec.ofNat 32 b.toNat) w) := by
  unfold State.popCap
  dsimp only
  rw [caps]
  cases b <;> rfl

theorem popCap_empty {s : State} {q l : Nat} (caps : (s.lane q l).caps = []) : s.popCap q l = (s, 0) := by
  unfold State.popCap
  dsimp only
  rw [caps]

/-! ### The statement -/

/-- Settles O27: a value's two words by `WidePair`, program words and the peek by `busRead_b32`. -/
theorem wideReadsAreOneValue : Obligations.WideReadsAreOneValue := by
  refine ⟨?_, ?_, ?_, ?_, ?_, ?_, ?_, ?_, ?_, ?_⟩
  case refine_1 =>
    rintro acc _ _ r v s h listed value rfl rfl
    obtain ⟨latch, pair⟩ := wide_pair acc listed value
    refine ⟨_, (wideReadLow_at listed pair.above acc .b32 s).trans (congrArg _ (pair.read_low h)), setRead_readData _ _ _, rfl, ?_,
      fun p _ other => readData_other _ _ other⟩
    exact (wideReadLow_at pair.highRange pair.high_above acc .b32 _).trans (congrArg _ (pair.read_high h _))
  case refine_2 =>
    rintro acc _ _ r v s h listed value rfl rfl
    obtain ⟨latch, pair⟩ := wide_pair acc listed value
    exact ⟨_, (wideReadLow_at listed pair.above acc .b64 s).trans (congrArg _ (pair.read_both h)), setRead_readData _ _ _, rfl⟩
  case refine_3 =>
    rintro acc _ ch v l s h rfl caps kept
    have pair := capture_pair acc ch.isLt (tmrPop_kept caps kept) rfl
    refine ⟨_, congrArg Host.Outcome.next (pair.read_both h), setRead_readData _ _ _, ?_, fun j other => ?_, rfl⟩
    · exact (setTimer_timer s _ _ _).trans (if_pos rfl)
    · exact (setTimer_timer s _ _ _).trans (if_neg other)
  case refine_4 =>
    rintro acc size ch s h sized caps
    have pair := capture_pair acc ch.isLt (tmrPop_empty caps) rfl
    rcases sized with rfl | rfl
    · exact ⟨_, congrArg Host.Outcome.next (pair.read_low h), setRead_readData _ _ _, rfl⟩
    · exact ⟨_, congrArg Host.Outcome.next (pair.read_both h), setRead_readData _ _ _, rfl⟩
  case refine_5 =>
    intro acc q s h
    have read := busRead_b32 h (r := .psqPdata q.toNat) (decide_eq_true q.isLt) (by simp only [Reg.off, psqBase]; omega)
    refine ⟨_, congrArg Host.Outcome.next read, setRead_readData _ _ _, ?_, setReg_regsBut s _ _, rfl⟩
    refine (congrArg (fld · 7 0) (setReg_reg_self s _ _)).trans ?_
    simp only [fld, natFld, BitVec.toNat_ofNat, Nat.shiftRight_zero]
    omega
  case refine_6 =>
    rintro _ q l acc w b rest s rfl h caps
    have pair := laneCapture_pair acc q.isLt l.isLt (popCap_entry caps) rfl
    refine ⟨_, congrArg Host.Outcome.next (pair.read_both h), setRead_readData _ _ _, ?_, rfl⟩
    exact (setLane_lane s _ _ _ _ _).trans (if_pos rfl)
  case refine_7 =>
    rintro _ q l g w b rest s rfl reach caps
    exact congrArg Host.Outcome.next ((if_pos reach).trans (congrArg Prod.fst (popCap_entry caps)))
  case refine_8 =>
    rintro _ q l g s rfl idle
    refine congrArg Host.Outcome.next ?_
    rcases idle with barred | caps
    · exact if_neg (by rw [barred]; decide)
    · rw [popCap_empty caps, ite_self]
  case refine_9 =>
    intro acc s h camin
    have word : s.readReg acc .cpxGchdata = (s, (s.chan (0x100 + s.rf .cpxGchsel 10 4)).word (s.rf .cpxGchsel 3 0)) := if_pos camin
    refine congrArg Host.Outcome.next ((busRead_b32 h (r := .cpxGchdata) rfl (by decide)).trans ?_)
    rw [word, camin]
  case refine_10 =>
    intro acc s h other
    have word : s.readReg acc .cpxGchdata = ((s.refuse acc 0x05 0x414).1, 0) := if_neg other
    refine congrArg Host.Outcome.next ((busRead_b32 h (r := .cpxGchdata) rfl (by decide)).trans ?_)
    rw [word, refuse_open h]
    rfl

end Sys2Proof.Proofs
end
section
/-! SUPPORT. The step that begins a cycle (R242): what ends and what begins with a cycle leaves Commons time, the rate and a hold
request alone, so that the advance alone moves the time. -/
namespace Sys2Proof.Proofs
open Sys2Proof.Machine Sys2Proof.Laws

/-! ### The end of a cycle -/

/-- Commons time, the hold request and the rate that the registers give. -/
def clockwork (s : State) : Commons × Option (HoldSrc × Nat) × Int := (s.commons, s.holdReq, s.rateNow)

/-- The registers of the rate lie below 0x2100. -/
theorem setReg_clockwork (s : State) {r : Reg} (h : 0x2100 ≤ r.off) (v : Word) : clockwork (s.setReg r v) = clockwork s := by
  have other {x : Reg} (below : x.off < 0x2100) : (s.setReg r v).reg x = s.reg x := setReg_reg_other s v (by omega)
  unfold clockwork State.rateNow
  rw [other (x := .cmnInci) (by decide), other (x := .cmnIncf) (by decide), other (x := .cmnRadj) (by decide)]
  rfl

theorem tmrSettle_clockwork (s : State) (ch : Nat) : clockwork (s.tmrSettle ch) = clockwork s := by
  by_cases kept : (s.timer ch).lost = none
  · rw [tmrSettle_none kept]
  · have above : 0x2100 ≤ (Reg.tmrStat ch).off := by
      simp only [Reg.off]
      omega
    rw [tmrSettle_lost kept]
    exact (setReg_clockwork _ above _).trans (setReg_clockwork _ above _)

theorem settleLane_clockwork (s : State) (q l : Nat) : clockwork (s.settleLane q l) = clockwork s := by
  unfold State.settleLane
  dsimp only
  split <;> rfl

theorem psq_above (q : Nat) : 0x28000 ≤ psqBase q := by
  unfold psqBase
  omega

theorem settleCaps_clockwork (s : State) (q l : Nat) : clockwork (s.settleCaps q l) = clockwork s := by
  have above : 0x2100 ≤ (Reg.psqCapst q l).off := by
    have := psq_above q
    simp only [Reg.off]
    omega
  refine each_keep clockwork (fun u a => ?_) s _
  dsimp only
  split
  · rfl
  · exact (setReg_clockwork _ above _).trans (setReg_clockwork _ above _)

theorem settleFl_clockwork (s : State) (q l : Nat) : clockwork (s.settleFl q l) = clockwork s := by
  unfold State.settleFl
  dsimp only
  split <;> rfl

theorem settleV_clockwork (s : State) (q : Nat) : clockwork (s.settleV q) = clockwork s := by
  have above (w : Nat) : 0x2100 ≤ (Reg.psqV q w).off := by
    have := psq_above q
    simp only [Reg.off]
    omega
  have put (u : State) (p : Psq) : clockwork (u.setPsq q p) = clockwork u := rfl
  unfold State.settleV
  refine (put _ _).trans (each_keep clockwork (fun u pri => ?_) s _)
  refine each_keep clockwork (fun x w => ?_) u _
  exact setReg_clockwork x (above w.reg) _

theorem psqHalt_clockwork (s : State) (q : Nat) : clockwork (s.psqHalt q true) = clockwork s := by
  have above (k : Nat) : 0x2100 ≤ (Reg.psqCnt q k).off := by
    have := psq_above q
    simp only [Reg.off]
    omega
  exact (setReg_clockwork _ (above 1) _).trans (setReg_clockwork _ (above 0) _)

theorem settleSeqs_clockwork (s : State) : clockwork s.settleSeqs = clockwork s := by
  refine (each_keep clockwork (fun u q => ?_) _ _).trans (each_keep clockwork (fun u k => ?_) s _)
  · dsimp only
    split
    · exact (psqHalt_clockwork _ q).trans (settleV_clockwork u q)
    · exact settleV_clockwork u q
  · exact (settleFl_clockwork _ _ _).trans ((settleCaps_clockwork _ _ _).trans (settleLane_clockwork u _ _))

theorem countCycle_clockwork (s : State) : clockwork s.countCycle = clockwork s := by
  unfold State.countCycle
  split
  · refine (each_keep clockwork (fun u g => ?_) _ _).trans (each_keep clockwork (fun u n => ?_) s _)
    · exact setReg_clockwork u (by simp only [thrReg, Reg.off, coreBase]; omega) _
    · split
      · rfl
      · exact setReg_clockwork u (by simp only [Reg.off, coreBase]; omega) _
  · rfl

theorem settleFlags_clockwork (s : State) : clockwork s.settleFlags = clockwork s := rfl

theorem settleDeadlocks_clockwork (s : State) : clockwork s.settleDeadlocks = clockwork s := rfl

theorem endCycle_clockwork (s : State) : clockwork s.endCycle = clockwork s := by
  unfold State.endCycle
  rw [settleDeadlocks_clockwork, countCycle_clockwork, settleFlags_clockwork, settleSeqs_clockwork]
  exact each_keep clockwork tmrSettle_clockwork s _

/-! ### What begins with a cycle -/

/-- Commons time and the hold request. -/
def timeAndHold (s : State) : Commons × Option (HoldSrc × Nat) := (s.commons, s.holdReq)

theorem putMem_timeAndHold (s : State) (g ready a : Nat) (cells : List (Nat × Byte)) (gen : Option (Nat × Nat)) :
    timeAndHold (s.putMem g ready (.near a) cells gen) = timeAndHold s := by
  unfold State.putMem
  split
  · rfl
  · obtain ⟨_, _, _, _, _, _, frame⟩ := (putRuns_saves g s cells).frame
    dsimp only
    rw [frame]
    rfl

theorem finishDiv_timeAndHold (s : State) (g : Nat) : timeAndHold (s.finishDiv g) = timeAndHold s := by
  unfold State.finishDiv
  dsimp only
  split
  · rfl
  · split
    · exact each_keep timeAndHold (fun u cells => putMem_timeAndHold u g _ 0 cells none) _ _
    · rfl

theorem flagCaptures_timeAndHold (s : State) (c f : Nat) : timeAndHold (s.flagCaptures c f) = timeAndHold s := by
  obtain ⟨l, frame⟩ := (flagCaptures_spec s c f).1
  rw [frame]
  rfl

theorem startFills_commons (s : State) : s.startFills.commons = s.commons := by
  have put (u : State) (g : Nat) (x : Thread) : (u.setThr g x).commons = u.commons := rfl
  unfold State.startFills
  split
  · exact each_keep State.commons (fun u g => put u g _) s _
  · rfl

theorem acceptHold_commons {s u : State} (kept : timeAndHold u = timeAndHold s) (noHold : s.holdReq = none) :
    u.acceptHold.commons = s.commons := by
  obtain ⟨commons, request⟩ := Prod.mk.inj kept
  unfold State.acceptHold
  rw [request, noHold]
  exact commons

theorem openCycle_commons {s : State} (noHold : s.holdReq = none) : s.openCycle.commons = s.commons := by
  unfold State.openCycle
  dsimp only
  refine (startFills_commons _).trans (acceptHold_commons (.trans (each_keep timeAndHold (fun u e => ?_) _ _) ?_) noHold)
  · exact flagCaptures_timeAndHold u _ _
  · exact each_keep timeAndHold finishDiv_timeAndHold s _

/-! ### The advance -/

/-- A carry or a borrow of bit 63 steps the era. -/
def eraAfter (era : Half) (x : Int) : Half := if 2 ^ 64 ≤ x then era + 1 else if x < 0 then era - 1 else era

theorem advanceTime_commons {s : State} (h : s.commons.set = none) : s.advanceTime.commons =
    { s.commons with
      prev := s.commons.time
      time := BitVec.ofInt 64 (s.commons.time.toNat + (s.commons.adv + s.commons.frac.toNat) / 2 ^ 32 + s.commons.u + s.commons.v)
      adv := s.rateNow
      era := eraAfter s.commons.era
        (s.commons.time.toNat + (s.commons.adv + s.commons.frac.toNat) / 2 ^ 32 + s.commons.u + s.commons.v)
      frac := BitVec.ofInt 32 (s.commons.adv + s.commons.frac.toNat)
      u := 0
      v := 0 } := by
  unfold State.advanceTime eraAfter
  dsimp only
  rw [h]
  simp only [add_assoc, ge_iff_le]

theorem beginCycle_commons (s : State) : ∃ n, s.beginCycle.commons = { s.advanceTime.commons with slewCnt := n } := by
  unfold State.beginCycle State.slewCycle
  dsimp only
  split
  · exact ⟨s.advanceTime.commons.slewCnt, rfl⟩
  · exact ⟨_, rfl⟩

theorem toNat_ofInt (n : Nat) (x : Int) : ((BitVec.ofInt n x).toNat : Int) = x % 2 ^ n := by
  rw [BitVec.toNat_ofInt, Int.toNat_of_nonneg (Int.emod_nonneg _ (by positivity)), Nat.cast_pow, Nat.cast_ofNat]

theorem step_idle {s : State} (h : s.pending = []) : step s = .next s.tick := by
  unfold step
  rw [h]

theorem advanceTime_holdReq (s : State) : s.advanceTime.holdReq = s.holdReq := by
  unfold State.advanceTime
  dsimp only
  split <;> rfl

theorem slewCycle_holdReq (s : State) : s.slewCycle.holdReq = s.holdReq := by
  unfold State.slewCycle
  split <;> rfl

theorem beginCycle_holdReq (s : State) : s.beginCycle.holdReq = s.holdReq :=
  (slewCycle_holdReq s.advanceTime).trans (advanceTime_holdReq s)

theorem firstHalf_commons {s : State} (free : s.commons.set = none) (noHold : s.holdReq = none) :
    ∃ n, s.firstHalf.commons = { s.advanceTime.commons with slewCnt := n } := by
  obtain ⟨commons, rest⟩ := Prod.mk.inj (endCycle_clockwork s)
  obtain ⟨request, rate⟩ := Prod.mk.inj rest
  obtain ⟨n, begun⟩ := beginCycle_commons s.endCycle
  have noHoldNow : s.endCycle.beginCycle.holdReq = none := by rw [beginCycle_holdReq, request, noHold]
  have opened : s.firstHalf.commons = s.endCycle.beginCycle.commons := by
    unfold State.firstHalf
    dsimp only
    exact openCycle_commons noHoldNow
  have advanced : s.endCycle.advanceTime.commons = s.advanceTime.commons := by
    rw [advanceTime_commons (by rw [commons, free]), advanceTime_commons free, commons, rate]
  exact ⟨n, by rw [opened, begun, advanced]⟩

/-- Settles O33: what ends and begins with a cycle keeps the time (`firstHalf_commons`), which the advance moves. -/
theorem timeAdvancesByTheRate : Obligations.TimeAdvancesByTheRate := by
  refine ⟨fun s idle on awake first free noHold => ?_, fun s idle stopped => ⟨_, step_idle idle, ?_⟩⟩
  · have tick : s.tick = s.firstHalf := by
      unfold State.tick
      rw [if_neg on, if_neg awake, first]
      rfl
    obtain ⟨n, commons⟩ := firstHalf_commons free noHold
    rw [advanceTime_commons free] at commons
    refine ⟨_, (step_idle idle).trans (congrArg _ tick), ?_⟩
    rw [commons]
    exact ⟨toNat_ofInt 64 _, toNat_ofInt 32 _, rfl, rfl, rfl, rfl⟩
  · unfold State.tick
    rcases stopped with off | retained
    · rw [if_pos off]
    · rw [if_neg (by rw [retained]; decide), if_pos retained]

end Sys2Proof.Proofs
end

section
/-! SUPPORT. What a command of a sequencer may touch (R272, R280): its own record, its own lanes, some registers and event flags; and what
a change, or a change of each lane of a mask, leaves of the lanes and of COLL. -/
namespace Sys2Proof.Proofs
open Sys2Proof.Machine Sys2Proof.Laws

/-! ### A record written twice -/

theorem erase_insert {α : Type} (t : Tab α) (k : Nat) (v : α) : (t.insert k v).erase k = t.erase k := by
  induction t with
  | nil => simp [Tab.insert, Tab.erase]
  | cons e r ih =>
    obtain ⟨j, w⟩ := e
    by_cases before : k < j
    · rw [Tab.insert, if_pos before, Tab.erase, if_pos rfl]
    · rw [Tab.insert, if_neg before, Tab.erase, Tab.erase, ih]

theorem erase_erase {α : Type} (t : Tab α) (k : Nat) : (t.erase k).erase k = t.erase k := by
  induction t with
  | nil => rfl
  | cons e r ih =>
    obtain ⟨j, w⟩ := e
    by_cases here : k = j
    · rw [Tab.erase, if_pos here, ih]
    · rw [Tab.erase, if_neg here, Tab.erase, if_neg here, ih]

theorem erase_put {α : Type} [DecidableEq α] (d : Nat → α) (t : Tab α) (k : Nat) (v : α) : (Tab.put d t k v).erase k = t.erase k := by
  unfold Tab.put
  split
  · exact erase_erase t k
  · rw [erase_insert, erase_erase]

theorem put_put {α : Type} [DecidableEq α] (d : Nat → α) (t : Tab α) (k : Nat) (v w : α) :
    Tab.put d (Tab.put d t k v) k w = Tab.put d t k w := by
  rw [Tab.put, erase_put, ← Tab.put]

theorem setPsq_setPsq (s : State) (q : Nat) (a b : Psq) : (s.setPsq q a).setPsq q b = s.setPsq q b :=
  congrArg (fun x => { s with psqs := x }) (put_put _ s.psqs q a b)

theorem setPsq_psq_self (s : State) (q : Nat) (x : Psq) : (s.setPsq q x).psq q = x := (setPsq_psq s q q x).trans (if_pos rfl)

theorem setPsq_onlyAt (s : State) (q : Nat) (x : Psq) : OnlyAt q s.psq (s.setPsq q x).psq :=
  fun j other => (setPsq_psq s q j x).trans (if_neg other)

theorem setLane_lane_at (s : State) (q l j : Nat) (x : Lane) : (s.setLane q l x).lane q j = if j = l then x else s.lane q j :=
  (setLane_lane s q l q j x).trans (if_congr (by omega) rfl rfl)

/-! ### Rows of steps -/

/-- Steps that lead from each number to the next lead from 0 to the last. -/
theorem each_upto {P : Nat → State → Prop} {f : State → Nat → State} {s : State} {n : Nat} (start : P 0 s)
    (step : ∀ k u, k < n → P k u → P (k + 1) (f u k)) : P n (s.each (upto n) f) := by
  induction n with
  | zero => exact start
  | succ n ih =>
    have last : s.each (upto (n + 1)) f = f (s.each (upto n) f) n := by simp [State.each, upto, List.range_succ]
    rw [last]
    exact step n _ (by omega) (ih fun k u below => step k u (by omega))

theorem any_upto_succ (n : Nat) (p : Nat → Bool) : (upto (n + 1)).any p = ((upto n).any p || p n) := by
  simp [upto, List.range_succ]

theorem any_upto_congr {n : Nat} {p r : Nat → Bool} (h : ∀ i, i < n → p i = r i) : (upto n).any p = (upto n).any r := by
  induction n with
  | zero => rfl
  | succ n ih => rw [any_upto_succ, any_upto_succ, ih fun i below => h i (by omega), h n (by omega)]

/-! ### What a sequencer's command may touch -/

/-- Only sequencer `q`, its lanes, registers of a list and event flags differ. -/
structure SeqStep (q : Nat) (rs : List Reg) (s t : State) : Prop where
  frame : ∃ a b c d, t = { s with psqs := a, lanes := b, regs := c, flags := d }
  psqs : OnlyAt q s.psq t.psq
  lanes : ∀ j i, j ≠ q → i < 8 → t.lane j i = s.lane j i
  regs : RegsBut rs s t

section
variable {q : Nat} {rs : List Reg} {s t u : State}

theorem SeqStep.refl (q : Nat) (rs : List Reg) (s : State) : SeqStep q rs s s :=
  ⟨⟨s.psqs, s.lanes, s.regs, s.flags, rfl⟩, fun _ _ => rfl, fun _ _ _ _ => rfl, fun _ _ => rfl⟩

theorem SeqStep.trans (h : SeqStep q rs s t) (k : SeqStep q rs t u) : SeqStep q rs s u := by
  refine ⟨?_, fun j other => (k.psqs j other).trans (h.psqs j other),
    fun j i other hi => (k.lanes j i other hi).trans (h.lanes j i other hi), fun r hr => (k.regs r hr).trans (h.regs r hr)⟩
  obtain ⟨_, _, _, _, rfl⟩ := h.frame
  obtain ⟨_, _, _, _, rfl⟩ := k.frame
  exact ⟨_, _, _, _, rfl⟩

theorem SeqStep.ite {p : Prop} [Decidable p] (ht : SeqStep q rs s t) (hu : SeqStep q rs s u) : SeqStep q rs s (if p then t else u) := by
  split
  · exact ht
  · exact hu

theorem SeqStep.setPsq (h : SeqStep q rs s t) (x : Psq) : SeqStep q rs s (t.setPsq q x) :=
  h.trans ⟨⟨_, t.lanes, t.regs, t.flags, rfl⟩, setPsq_onlyAt t q x, fun _ _ _ _ => rfl, fun _ _ => rfl⟩

theorem SeqStep.setLane (h : SeqStep q rs s t) {l : Nat} (hl : l < 8) (x : Lane) : SeqStep q rs s (t.setLane q l x) :=
  h.trans ⟨⟨t.psqs, _, t.regs, t.flags, rfl⟩, fun _ _ => rfl,
    fun j i other hi => (setLane_lane t q l j i x).trans (if_neg (by omega)), fun _ _ => rfl⟩

theorem SeqStep.setReg (h : SeqStep q rs s t) {r : Reg} (listed : r ∈ rs) (v : Word) : SeqStep q rs s (t.setReg r v) :=
  h.trans ⟨⟨t.psqs, t.lanes, _, t.flags, rfl⟩, fun _ _ => rfl, fun _ _ _ _ => rfl, (setReg_onlyRegs t listed v).regs⟩

theorem SeqStep.setFlagAt (h : SeqStep q rs s t) (c f e : Nat) : SeqStep q rs s (t.setFlagAt c f e) := by
  refine h.trans ?_
  rw [setFlagAt_frame]
  exact ⟨⟨t.psqs, t.lanes, t.regs, _, rfl⟩, fun _ _ => rfl, fun _ _ _ _ => rfl, fun _ _ => rfl⟩

theorem SeqStep.psqFrame (h : SeqStep q rs s t) : PsqFrame s t q := by
  refine ⟨?_, h.psqs, h.lanes⟩
  obtain ⟨_, _, _, _, rfl⟩ := h.frame
  rfl

theorem SeqStep.cycle (h : SeqStep q rs s t) : t.cycle = s.cycle := by
  obtain ⟨_, _, _, _, rfl⟩ := h.frame
  rfl

theorem SeqStep.active (h : SeqStep q rs s t) : t.active = s.active := by
  obtain ⟨_, _, _, _, rfl⟩ := h.frame
  rfl

theorem SeqStep.reg (h : SeqStep q rs s t) {r : Reg} (apart : ∀ x ∈ rs, r.off ≠ x.off) : t.reg r = s.reg r :=
  h.regs r fun listed => by
    obtain ⟨x, hx, same⟩ := List.mem_map.mp listed
    exact apart x hx same.symm

end

/-! ### Changes of a lane (R280) -/

/-- A change reaches its lane: a change of the value only with LMODE 0. -/
def obeys (s : State) (q l : Nat) (op : ChgOp) : Bool :=
  match op with
  | .en _ => true
  | _ => s.rf (.psqLcfg q l) 26 24 == 0

/-- What a change makes of lane `l`. -/
def chgLane (s : State) (q l : Nat) (c : Chg) : Lane :=
  if obeys s q l c.op then { s.lane q l with chg := insertChg c (s.lane q l).chg } else s.lane q l

/-- A change meets another one of its lane at its phase. -/
def collides (s : State) (q l : Nat) (c : Chg) : Bool := obeys s q l c.op && (s.lane q l).chg.any fun d => d.ph == c.ph

section
variable (s : State) (q : Nat)

theorem change_eq (l : Nat) (c : Chg) : s.change q l c =
    if obeys s q l c.op then
      (if (s.lane q l).chg.any (fun d => d.ph == c.ph) then s.setRb (.psqStat q) 28 true else s).setLane q l
        { s.lane q l with chg := insertChg c (s.lane q l).chg }
    else s := rfl

theorem change_seqStep {rs : List Reg} (listed : .psqStat q ∈ rs) {l : Nat} (hl : l < 8) (c : Chg) : SeqStep q rs s (s.change q l c) := by
  rw [change_eq]
  exact .ite ((SeqStep.ite ((SeqStep.refl q rs s).setReg listed _) (.refl q rs s)).setLane hl _) (.refl q rs s)

theorem change_psqs (l : Nat) (c : Chg) : (s.change q l c).psqs = s.psqs := by
  rw [change_eq]
  repeat' split
  all_goals rfl

theorem change_flags (l : Nat) (c : Chg) : (s.change q l c).flags = s.flags := by
  rw [change_eq]
  repeat' split
  all_goals rfl

theorem change_lane (l j : Nat) (c : Chg) : (s.change q l c).lane q j = if j = l then chgLane s q l c else s.lane q j := by
  rw [change_eq, chgLane]
  by_cases reaches : obeys s q l c.op = true
  · rw [if_pos reaches, if_pos reaches, setLane_lane_at]
    split
    · rfl
    · split <;> rfl
  · rw [if_neg reaches, if_neg reaches]
    split
    · rename_i same
      rw [same]
    · rfl

theorem setRb_rb (r : Reg) {i j : Nat} (b : Bool) (hj : j < 32) : (s.setRb r i b).rb r j = if j = i then b else s.rb r j := by
  rw [State.rb, State.setRb, setReg_reg_self, bit_setBit b hj]
  rfl

theorem setRb_rf (r : Reg) {hi lo i : Nat} (b : Bool) (hh : hi < 32) (apart : i < lo ∨ hi < i) : (s.setRb r i b).rf r hi lo = s.rf r hi lo := by
  rw [State.rf, State.setRb, setReg_reg_self, fld_setBit_outside b hh apart]
  rfl

theorem change_coll (l : Nat) (c : Chg) : (s.change q l c).rb (.psqStat q) 28 = (s.rb (.psqStat q) 28 || collides s q l c) := by
  rw [change_eq, collides]
  cases obeys s q l c.op with
  | false => rw [if_neg (by decide), Bool.false_and, Bool.or_false]
  | true =>
    rw [if_pos rfl, Bool.true_and]
    cases (s.lane q l).chg.any fun d => d.ph == c.ph with
    | false => rw [if_neg (by decide), Bool.or_false]; rfl
    | true => rw [if_pos rfl, Bool.or_true]; exact (setRb_rb s (.psqStat q) true (by decide)).trans (if_pos rfl)

end

/-- Two states give a lane the same changes and LMODE. -/
theorem chgLane_congr {s u : State} {q l : Nat} (reg : u.reg (.psqLcfg q l) = s.reg (.psqLcfg q l)) (lane : u.lane q l = s.lane q l)
    (c : Chg) : chgLane u q l c = chgLane s q l c ∧ collides u q l c = collides s q l c := by
  unfold chgLane collides obeys State.rf
  rw [reg, lane]
  exact ⟨rfl, rfl⟩

/-- Where lane `l` has become what a change makes of it, the lane takes the change. -/
theorem laneTakes_of {s t : State} {q l ph pri : Nat} {op : ChgOp} (lane : t.lane q l = chgLane s q l ⟨ph, pri, op⟩)
    (coll : collides s q l ⟨ph, pri, op⟩ = true → t.rb (.psqStat q) 28 = true) : LaneTakes s t q l ph pri op :=
  ⟨lane, fun reaches met => coll (by rw [collides, Bool.and_eq_true]; exact ⟨reaches, met⟩)⟩

/-! ### A change of each lane of a mask -/

/-- What the changes of a mask leave: the flags as they were, each lane of the mask changed, COLL where a change met another. -/
structure MaskDone (s t : State) (q n : Nat) (on : Nat → Bool) (c : Nat → Chg) : Prop where
  step : SeqStep q [.psqStat q] s t
  flags : t.flags = s.flags
  lane : ∀ l, l < 8 → t.lane q l = if l < n ∧ on l then chgLane s q l (c l) else s.lane q l
  coll : t.rb (.psqStat q) 28 = (s.rb (.psqStat q) 28 || (upto n).any fun i => on i && collides s q i (c i))

theorem lcfg_beside_stat (q l : Nat) : ∀ x ∈ [Reg.psqStat q], (Reg.psqLcfg q l).off ≠ x.off := by
  simp only [List.mem_singleton, forall_eq, Reg.off]
  omega

theorem maskDone_next {s u : State} {q n : Nat} {on : Nat → Bool} {c : Nat → Chg} (hn : n < 8) (h : MaskDone s u q n on c) :
    MaskDone s (if on n then u.change q n (c n) else u) q (n + 1) on c := by
  obtain ⟨sameLane, sameColl⟩ := chgLane_congr (c := c n) (h.step.reg (lcfg_beside_stat q n)) ((h.lane n hn).trans (if_neg (by omega)))
  by_cases taken : on n = true
  · rw [if_pos taken]
    refine ⟨h.step.trans (change_seqStep u q (List.mem_singleton_self _) hn (c n)), (change_flags u q n (c n)).trans h.flags, fun l hl => ?_, ?_⟩
    · rw [change_lane, h.lane l hl]
      by_cases same : l = n
      · rw [same, if_pos rfl, sameLane, if_pos ⟨by omega, taken⟩]
      · rw [if_neg same]
        exact if_congr (and_congr_left' (by omega)) rfl rfl
    · rw [change_coll, h.coll, any_upto_succ, sameColl, taken, Bool.true_and, Bool.or_assoc]
  · rw [if_neg taken]
    refine ⟨h.step, h.flags, fun l hl => ?_, ?_⟩
    · rw [h.lane l hl]
      refine if_congr ⟨fun k => ⟨by omega, k.2⟩, fun k => ⟨?_, k.2⟩⟩ rfl rfl
      have differs : l ≠ n := fun same => taken (same ▸ k.2)
      omega
    · rw [h.coll, any_upto_succ, Bool.eq_false_iff.mpr taken, Bool.false_and, Bool.or_false]

theorem changeMask_psqs (s : State) (q mask ph pri : Nat) (op : Nat → ChgOp) : (s.changeMask q mask ph pri op).psqs = s.psqs := by
  refine each_keep State.psqs (fun u l => ?_) s (upto 8)
  split
  · exact change_psqs u q l _
  · rfl

theorem changeMask_done (s : State) (q mask ph pri : Nat) (op : Nat → ChgOp) :
    MaskDone s (s.changeMask q mask ph pri op) q 8 mask.testBit fun l => ⟨ph, pri, op l⟩ := by
  refine each_upto (P := fun n u => MaskDone s u q n mask.testBit fun l => ⟨ph, pri, op l⟩) ?_ fun n u hn h => maskDone_next hn h
  exact ⟨.refl q _ s, rfl, fun l _ => (if_neg (by omega)).symm, by simp [upto]⟩

section
variable {s t : State} {q l : Nat} {on : Nat → Bool} {c : Nat → Chg} (h : MaskDone s t q 8 on c) (hl : l < 8)
include h hl

theorem MaskDone.takes {ph pri : Nat} {op : ChgOp} (taken : on l = true) (is : c l = ⟨ph, pri, op⟩) : LaneTakes s t q l ph pri op := by
  refine laneTakes_of ?_ fun met => ?_
  · rw [h.lane l hl, if_pos ⟨hl, taken⟩, is]
  · rw [h.coll, Bool.or_eq_true, List.any_eq_true]
    exact .inr ⟨l, mem_upto.mpr hl, by rw [taken, is, met]; rfl⟩

theorem MaskDone.keeps (untaken : on l = false) : t.lane q l = s.lane q l := by
  rw [h.lane l hl, if_neg (by simp [untaken])]

end

end Sys2Proof.Proofs
end

section
/-! SUPPORT. The instruction words of Table 87: each is its opcode, its fields and zeros between them, so that it is a word whose other
bits are 0 (R276). -/
namespace Sys2Proof.Proofs
open Sys2Proof.Machine Sys2Proof.Laws

/-- The word `r` of `k` bits starts with the opcode `o` and has, below it, those bits of the upper `k` bits of `w` that `m` names. -/
structure Row (w : Word) (o : BitVec 5) {k : Nat} (r m : BitVec k) : Prop where
  opcode : r.toNat / 2 ^ (k - 5) = o.toNat
  size : 5 ≤ k ∧ k ≤ 32
  picks : fld w 31 27 = o.toNat → ∀ i, i < k → r.getLsbD i = (m.getLsbD i && w.getLsbD (32 - k + i))

theorem toNat_append_div {k n : Nat} (r : BitVec k) (x : BitVec n) (hk : 5 ≤ k) :
    (r ++ x).toNat / 2 ^ (k + n - 5) = r.toNat / 2 ^ (k - 5) := by
  have small : x.toNat / 2 ^ n = 0 := Nat.div_eq_of_lt x.isLt
  rw [show k + n - 5 = n + (k - 5) by omega, Nat.pow_add, ← Nat.div_div_eq_div_mul, BitVec.toNat_append,
    ← Nat.shiftLeft_add_eq_or_of_lt x.isLt, Nat.shiftLeft_eq, Nat.mul_comm, Nat.mul_add_div (Nat.two_pow_pos n), small, Nat.add_zero]

section
variable {w : Word} {o : BitVec 5}

theorem Row.op : Row w o o 31#5 := by
  refine ⟨by simp, by omega, fun is i hi => ?_⟩
  have top : bit w (27 + i) = (fld w 31 27).testBit i := by rw [testBit_fld, decide_eq_true (by omega), Bool.true_and]
  have ones : (31#5).getLsbD i = true := by interval_cases i <;> rfl
  rw [ones, Bool.true_and, ← BitVec.testBit_toNat, ← is, ← top]
  rfl

theorem Row.append {k n : Nat} {r m : BitVec k} {x y : BitVec n} (h : Row w o r m) (fits : k + n ≤ 32)
    (next : ∀ i, i < n → x.getLsbD i = (y.getLsbD i && w.getLsbD (32 - (k + n) + i))) : Row w o (r ++ x) (m ++ y) := by
  refine ⟨(toNat_append_div r x h.size.1).trans h.opcode, ⟨by have := h.size.1; omega, fits⟩, fun is i hi => ?_⟩
  rw [BitVec.getLsbD_append, BitVec.getLsbD_append]
  by_cases low : i < n
  · rw [if_pos low, if_pos low, next i low]
  · rw [if_neg low, if_neg low, h.picks is (i - n) (by omega), show 32 - k + (i - n) = 32 - (k + n) + i by omega]

theorem Row.zeros {k n : Nat} {r m : BitVec k} (h : Row w o r m) (fits : k + n ≤ 32 := by decide) : Row w o (r ++ 0#n) (m ++ 0#n) :=
  h.append fits fun i hi => by simp

theorem Row.field {k n l : Nat} {r m : BitVec k} (h : Row w o r m) (here : l + (k + n) = 32 := by decide) :
    Row w o (r ++ w.extractLsb' l n) (m ++ BitVec.allOnes n) :=
  h.append (by omega) fun i hi => by
    rw [BitVec.getLsbD_extractLsb', BitVec.getLsbD_allOnes, show 32 - (k + n) + i = l + i by omega]

/-- A word is a row exactly where it has the row's opcode and no bit that the row does not name. -/
theorem Row.iff {r m : Word} (h : Row w o r m) : w = r ↔ fld w 31 27 = o.toNat ∧ w &&& ~~~ m = 0 := by
  have opcode : fld r 31 27 = o.toNat := by
    rw [← h.opcode, fld, natFld, Nat.shiftRight_eq_div_pow]
    exact Nat.mod_eq_of_lt (by have := r.isLt; omega)
  have named (is : fld w 31 27 = o.toNat) : r = m &&& w := BitVec.eq_of_getLsbD_eq fun i hi => by
    rw [h.picks is i hi, BitVec.getLsbD_and, Nat.sub_self, Nat.zero_add]
  constructor
  · intro same
    have is : fld w 31 27 = o.toNat := same ▸ opcode
    refine ⟨is, BitVec.eq_of_getLsbD_eq fun i hi => ?_⟩
    have both := congrArg (BitVec.getLsbD · i) (same.trans (named is))
    simp only [BitVec.getLsbD_and] at both
    rw [BitVec.getLsbD_and, BitVec.getLsbD_not, decide_eq_true hi, Bool.true_and, both]
    cases m.getLsbD i <;> simp
  · rintro ⟨is, rest⟩
    rw [named is]
    refine BitVec.eq_of_getLsbD_eq fun i hi => ?_
    have none := congrArg (BitVec.getLsbD · i) rest
    simp only [BitVec.getLsbD_and, BitVec.getLsbD_not, decide_eq_true hi, Bool.true_and] at none
    rw [BitVec.getLsbD_and]
    revert none
    cases m.getLsbD i <;> simp

theorem Row.named {n : Nat} {r m : Word} (h : Row w o r m) (is : o.toNat = n := by decide) (names : m = psqNamed n := by decide) :
    w = r ↔ fld w 31 27 = n ∧ w &&& ~~~ psqNamed n = 0 := by
  rw [h.iff, is, names]

end

/-- Each word of the table has its opcode, in order, and the bits that `psqNamed` lists. -/
theorem table87_word (w : Word) {i : Nat} (hi : i < (table87 w).length) :
    w = (table87 w)[i].1 ↔ fld w 31 27 = i + 1 ∧ w &&& ~~~ psqNamed (i + 1) = 0 := by
  have rows : i < 18 := hi
  interval_cases i
  exacts [Row.named (Row.op.zeros.field.field.zeros.field), Row.named (Row.op.zeros.field.zeros.field), Row.named
    (Row.op.zeros.field.field.zeros.field), Row.named (Row.op.field.zeros.field.zeros.field), Row.named
    (Row.op.field.zeros.field.zeros.field), Row.named (Row.op.zeros.field), Row.named (Row.op.zeros.field.zeros.field.zeros), Row.named
    (Row.op.zeros.field.zeros.field), Row.named (Row.op.field.zeros), Row.named (Row.op.zeros.field), Row.named (Row.op.zeros.field),
    Row.named (Row.op.field.zeros.field), Row.named (Row.op.field.zeros.field), Row.named (Row.op.zeros.field), Row.named
    (Row.op.zeros.field.zeros.field.field), Row.named (Row.op.field.zeros.field), Row.named (Row.op.zeros.field.zeros.field), Row.named
    (Row.op.zeros.field.field)]

/-- A word of a row is rejected for a bit that the row does not name, and for the fields that the row reserves. -/
theorem psqBad_row {w : Word} {i : Nat} (hi : i < (table87 w).length) (is : fld w 31 27 = i + 1) :
    psqBad w = !(w &&& ~~~ psqNamed (i + 1) == 0 && (table87 w)[i].2) := by
  have rows : i < 18 := hi
  simp only [psqBad, is]
  interval_cases i <;> simp [table87, bne]

theorem psqBad_of_noRow {w : Word} (h : ∀ i, i < (table87 w).length → fld w 31 27 ≠ i + 1) : psqBad w = true := by
  have none : fld w 31 27 = 0 ∨ 18 < fld w 31 27 := by
    by_contra listed
    exact h (fld w 31 27 - 1) (show _ < 18 by omega) (by omega)
  rcases none with zero | beyond
  · simp [psqBad, zero]
  · simp [psqBad, beyond]

theorem psqBad_iff (w : Word) : psqBad w = false ↔ ∃ r ∈ table87 w, w = r.1 ∧ r.2 = true := by
  constructor
  · intro good
    by_cases listed : ∃ i, i < (table87 w).length ∧ fld w 31 27 = i + 1
    · obtain ⟨i, hi, is⟩ := listed
      rw [psqBad_row hi is, Bool.not_eq_false', Bool.and_eq_true, beq_iff_eq] at good
      exact ⟨_, List.getElem_mem hi, (table87_word w hi).mpr ⟨is, good.1⟩, good.2⟩
    · rw [psqBad_of_noRow fun i hi is => listed ⟨i, hi, is⟩] at good
      exact absurd good (by decide)
  · rintro ⟨r, listed, same, fits⟩
    obtain ⟨i, hi, rfl⟩ := List.getElem_of_mem listed
    obtain ⟨is, named⟩ := (table87_word w hi).mp same
    rw [psqBad_row hi is, named, fits]
    rfl

end Sys2Proof.Proofs
end

section
/-! SUPPORT. A fault of a sequencer (R279): what it leaves of the record, the counters and PSQ_FLT, and its report. -/
namespace Sys2Proof.Proofs
open Sys2Proof.Machine Sys2Proof.Laws

section
variable (s : State) (q : Nat)

theorem cnt_listed {k : Nat} (hk : k < 2) : Reg.psqCnt q k ∈ [Reg.psqCnt q 0, .psqCnt q 1] := by
  interval_cases k <;> simp

theorem stopCounters_onlyRegs : OnlyRegs [.psqCnt q 0, .psqCnt q 1] s (s.stopCounters q) :=
  (setReg_onlyRegs s (cnt_listed q (by decide)) _).trans (setReg_onlyRegs _ (cnt_listed q (by decide)) _)

/-- Both counters are off, and the rest of their registers is as it was. -/
theorem stopCounters_reg {k : Nat} (hk : k < 2) : (s.stopCounters q).reg (.psqCnt q k) = setBit (s.reg (.psqCnt q k)) 31 false := by
  unfold State.stopCounters State.setRb
  interval_cases k
  · rw [setReg_reg_other _ _ (by simp [Reg.off]), setReg_reg_self]
  · rw [setReg_reg_self, setReg_reg_other _ _ (by simp [Reg.off])]

theorem stopped_counter {k : Nat} {u : State} (h : u.reg (.psqCnt q k) = setBit (s.reg (.psqCnt q k)) 31 false) :
    u.rb (.psqCnt q k) 31 = false ∧ u.rf (.psqCnt q k) 30 0 = s.rf (.psqCnt q k) 30 0 := by
  rw [State.rb, State.rf, h]
  exact ⟨(bit_setBit false (by decide)).trans (if_pos rfl), fld_setBit_outside false (by decide) (by decide)⟩

end

/-- PSQ_FLT, put together from its fields. -/
theorem fltWord (pc : Byte) (dirm : Bool) : BitVec.ofNat 32 (1 <<< 31 ||| b2n dirm <<< 16 ||| pc.toNat <<< 8 ||| 1) =
    1#1 ++ 0#14 ++ BitVec.ofBool dirm ++ pc ++ BitVec.ofNat 8 1 := by
  have small := pc.isLt
  refine BitVec.eq_of_toNat_eq ?_
  simp only [BitVec.toNat_append, BitVec.toNat_ofNat, BitVec.toNat_ofBool, Nat.shiftLeft_or_distrib, ← Nat.shiftLeft_add]
  rw [Nat.mod_eq_of_lt]
  · cases dirm <;> simp [b2n]
  · refine Nat.or_lt_two_pow (Nat.or_lt_two_pow (Nat.or_lt_two_pow (by decide) ?_) ?_) (by decide)
    · cases dirm <;> decide
    · rw [Nat.shiftLeft_eq]; omega

/-- The state that the engine leaves to the body of a row: the sequencer has executed in this cycle, and its state is `st`. -/
def marked (s : State) (q : Nat) (st : PSt) : State := s.setPsq q { s.psq q with ran := some s.cycle, st := st }

theorem marked_psq (s : State) (q : Nat) (st : PSt) : (marked s q st).psq q = { s.psq q with ran := some s.cycle, st := st } :=
  setPsq_psq_self s q _

theorem active_answers {s : State} (h : s.active = true) : Answers s := by
  unfold State.active at h
  constructor <;> intro off <;> rw [off] at h <;> exact absurd h (by decide)

/-- The first fault of a sequencer is recorded in PSQ_FLT. -/
def noteFault (s : State) (q : Nat) (pc : Byte) (dirm : Bool) : State :=
  if s.rb (.psqFlt q) 31 then s else s.setReg (.psqFlt q) (1#1 ++ 0#14 ++ BitVec.ofBool dirm ++ pc ++ BitVec.ofNat 8 1)

/-- The state of a faulted sequencer, before the report: it stops, its counters are off, the first fault is recorded. -/
def faultStop (s : State) (q : Nat) (ran : Option Nat) (dirm : Bool) : State :=
  noteFault ((s.setPsq q { s.psq q with st := .stopped, dly := none, stopping := false, ran := ran }).stopCounters q) q (s.psq q).pc dirm

theorem psqFault_eq (s : State) (q : Nat) (dirm : Bool) : s.psqFault q 0x01 dirm =
    (faultStop s q (s.psq q).ran dirm).report 0x01 3 q ((s.psq q).pc.setWidth 32) (BitVec.ofNat 32 (b2n dirm)) := by
  unfold State.psqFault faultStop noteFault
  dsimp only
  rw [fltWord, BitVec.ofNat_toNat]
  rfl

theorem psqFault_marked (s : State) (q : Nat) (st : PSt) (dirm : Bool) : (marked s q st).psqFault q 0x01 dirm =
    (faultStop s q (some s.cycle) dirm).report 0x01 3 q ((s.psq q).pc.setWidth 32) (BitVec.ofNat 32 (b2n dirm)) := by
  rw [psqFault_eq, faultStop, marked_psq, marked, setPsq_setPsq]
  rfl

theorem noteFault_onlyRegs (s : State) (q : Nat) (pc : Byte) (dirm : Bool) : OnlyRegs [.psqFlt q] s (noteFault s q pc dirm) :=
  .ite (.refl _ s) (setReg_onlyRegs s (List.mem_singleton_self _) _)

theorem OnlyRegs.weaken {l m : List Reg} {s t : State} (h : OnlyRegs l s t) (sub : ∀ r ∈ l, r ∈ m) : OnlyRegs m s t :=
  ⟨h.frame, fun r hr => h.regs r fun listed => hr (by
    obtain ⟨x, hx, same⟩ := List.mem_map.mp listed
    exact same ▸ List.mem_map_of_mem (sub x hx))⟩

theorem noteFault_flt (s : State) (q : Nat) (pc : Byte) (dirm : Bool) : (noteFault s q pc dirm).reg (.psqFlt q) =
    if s.rb (.psqFlt q) 31 then s.reg (.psqFlt q) else 1#1 ++ 0#14 ++ BitVec.ofBool dirm ++ pc ++ BitVec.ofNat 8 1 := by
  unfold noteFault
  split
  · rfl
  · exact setReg_reg_self s _ _

theorem faultStop_reports {s : State} (on : s.active = true) (q : Nat) (ran : Option Nat) (dirm : Bool) :
    SeqFault s ((faultStop s q ran dirm).report 0x01 3 q ((s.psq q).pc.setWidth 32) (BitVec.ofNat 32 (b2n dirm))) q 0x01 dirm := by
  unfold faultStop
  generalize hp : ({ s.psq q with st := .stopped, dly := none, stopping := false, ran := ran } : Psq) = p
  have counters := stopCounters_onlyRegs (s.setPsq q p) q
  have noted := noteFault_onlyRegs ((s.setPsq q p).stopCounters q) q (s.psq q).pc dirm
  have flt := noteFault_flt ((s.setPsq q p).stopCounters q) q (s.psq q).pc dirm
  rw [State.rb, counters.regs (.psqFlt q) (by simp [Reg.off])] at flt
  have count (k : Nat) (hk : k < 2) := (noted.regs (.psqCnt q k) (by simp [Reg.off]; omega)).trans (stopCounters_reg (s.setPsq q p) q hk)
  have all : OnlyRegs [.psqCnt q 0, .psqCnt q 1, .psqFlt q] _ _ := (counters.weaken (by simp)).trans (noted.weaken (by simp))
  generalize noteFault ((s.setPsq q p).stopCounters q) q (s.psq q).pc dirm = t at *
  obtain ⟨off0, rest0⟩ := stopped_counter (s.setPsq q p) q (count 0 (by decide))
  obtain ⟨off1, rest1⟩ := stopped_counter (s.setPsq q p) q (count 1 (by decide))
  have answers : Answers t := by
    obtain ⟨_, rfl⟩ := all.frame
    exact active_answers on
  rw [report_answers answers]
  obtain ⟨regs, rfl⟩ := all.frame
  refine ⟨rfl, setPsq_onlyAt s q p, ?_, all.regs, off0, off1, rest0, rest1, fun was => flt.trans (if_pos was),
    fun wasNot => flt.trans (if_neg (ne_true_of_eq_false wasNot)), rfl⟩
  change (s.setPsq q p).psq q =
    { s.psq q with st := .stopped, dly := none, stopping := false, ran := ((s.setPsq q p).psq q).ran }
  rw [setPsq_psq_self, ← hp]

theorem psqFault_faults {s : State} (on : s.active = true) (q : Nat) (dirm : Bool) : SeqFault s (s.psqFault q 0x01 dirm) q 0x01 dirm := by
  rw [psqFault_eq]
  exact faultStop_reports on q _ dirm

theorem marked_faults {s : State} (on : s.active = true) (q : Nat) (st : PSt) (dirm : Bool) :
    SeqFault s ((marked s q st).psqFault q 0x01 dirm) q 0x01 dirm := by
  rw [psqFault_marked]
  exact faultStop_reports on q _ dirm

end Sys2Proof.Proofs
end

section
/-! SUPPORT. The program engine (R276 to R278): which row executes, and the rows that wait, jump or write a value register. -/
namespace Sys2Proof.Proofs
open Sys2Proof.Machine Sys2Proof.Laws

/-! ### Which row executes (R276, R278) -/

section
variable {s : State} {q op : Nat} {w : Word} {body : State → Word → State}

theorem psqDue_iff (s : State) (q : Nat) : s.psqDue q = true ↔ EngineDue s q := by
  simp only [State.psqDue, EngineDue, Bool.and_eq_true, Bool.or_eq_true, beq_iff_eq, Option.isNone_iff_eq_none, bne_iff_ne, and_assoc]

theorem engine_idle (h : ¬ EngineDue s q) : s.engine q op body = s := if_pos fun due => h ((psqDue_iff s q).mp due)

theorem engine_due (h : EngineDue s q) : s.engine q op body =
    if psqBad (s.progWord q (s.psq q).pc.toNat) then s.psqFault q 0x01 false
    else if fld (s.progWord q (s.psq q).pc.toNat) 31 27 = op then body (marked s q .running) (s.progWord q (s.psq q).pc.toNat)
    else s :=
  if_neg (not_not.mpr ((psqDue_iff s q).mpr h))

theorem engine_other (h : EngineDue s q) (good : psqBad (s.progWord q (s.psq q).pc.toNat) = false)
    (other : fld (s.progWord q (s.psq q).pc.toNat) 31 27 ≠ op) : s.engine q op body = s := by
  rw [engine_due h, good, if_neg Bool.false_ne_true, if_neg other]

theorem engine_bad (h : EngineDue s q) (bad : psqBad (s.progWord q (s.psq q).pc.toNat) = true) :
    s.engine q op body = s.psqFault q 0x01 false := by
  rw [engine_due h, if_pos bad]

theorem engine_runs (h : Executes s q op w) : s.engine q op body = body (marked s q .running) w := by
  obtain ⟨due, rfl, is, good⟩ := h
  rw [engine_due due, good, if_neg Bool.false_ne_true, if_pos is]

end

/-- Every row is an execution of its opcode, with a body of its own. -/
theorem psqRows_engine : ∀ r ∈ psqRows, ∀ (q : BitVec 6) (s : State), ∃ body, exec (r.1 q) s = .next (s.engine q.toNat r.2 body) := by
  simp only [psqRows, List.forall_mem_cons, List.not_mem_nil, false_implies, implies_true, and_true]
  repeat' apply And.intro
  all_goals exact fun q s => ⟨_, rfl⟩

theorem psqRows_idle {q : BitVec 6} {s : State} (h : ¬ EngineDue s q.toNat) : ∀ r ∈ psqRows, Idle (r.1 q) s := by
  intro r listed
  obtain ⟨body, run⟩ := psqRows_engine r listed q s
  exact run.trans (congrArg _ (engine_idle h))

theorem psqRows_other {q : BitVec 6} {s : State} (h : EngineDue s q.toNat)
    (good : psqBad (s.progWord q.toNat (s.psq q.toNat).pc.toNat) = false) :
    ∀ r ∈ psqRows, fld (s.progWord q.toNat (s.psq q.toNat).pc.toNat) 31 27 ≠ r.2 → Idle (r.1 q) s := by
  intro r listed other
  obtain ⟨body, run⟩ := psqRows_engine r listed q s
  exact run.trans (congrArg _ (engine_other h good other))

theorem psqRows_bad {q : BitVec 6} {s : State} (h : EngineDue s q.toNat)
    (bad : psqBad (s.progWord q.toNat (s.psq q.toNat).pc.toNat) = true) :
    ∀ r ∈ psqRows, ∃ t, exec (r.1 q) s = .next t ∧ SeqFault s t q.toNat 0x01 false := by
  intro r listed
  obtain ⟨body, run⟩ := psqRows_engine r listed q s
  exact ⟨_, run.trans (congrArg _ (engine_bad h bad)), psqFault_faults h.1 q.toNat false⟩

section
variable {q : BitVec 6} {w : Word} {s : State} {op : Nat}

/-- A row that executes does what its body does to the marked state. -/
theorem row_runs {c : Instr} {body : State → Word → State} (h : Executes s q.toNat op w)
    (run : exec c s = .next (s.engine q.toNat op body)) : exec c s = .next (body (marked s q.toNat .running) w) :=
  run.trans (congrArg _ (engine_runs h))

/-! ### Where the program goes on -/

theorem marked_setPsq (s : State) (q : Nat) (st : PSt) (x : Psq) : (marked s q st).setPsq q x = s.setPsq q x := setPsq_setPsq s q _ x

theorem marked_go (s : State) (q : Nat) (pc : Byte) : (marked s q .running).psqGo q pc = s.setPsq q (goneTo s q pc) := by
  rw [State.psqGo, marked_setPsq, marked_psq]
  rfl

theorem marked_next (s : State) (q : Nat) : (marked s q .running).psqNext q = s.setPsq q (goneTo s q ((s.psq q).pc + 1)) := by
  rw [State.psqNext, marked_go, marked_psq]

theorem marked_wait (s : State) (q : Nat) (met : Bool) : (marked s q .running).psqWait q met = s.setPsq q (waited s q met) := by
  cases met with
  | true => exact marked_next s q
  | false =>
    rw [State.psqWait, if_neg Bool.false_ne_true, marked_setPsq, marked_psq]
    rfl

theorem ofNat_fld (n hi : Nat) (hn : hi + 1 = n) : BitVec.ofNat n (fld w hi 0) = w.setWidth n := by
  subst hn
  refine BitVec.eq_of_toNat_eq ?_
  rw [BitVec.toNat_ofNat, BitVec.toNat_setWidth, fld, natFld, Nat.shiftRight_zero, Nat.sub_zero, Nat.mod_mod]

theorem psqDly_runs (h : Executes s q.toNat 0x06 w) : exec (.psqDly q) s = .next (s.setPsq q.toNat
    { goneTo s q.toNat (s.psq q.toNat).pc with dly := some (s.cycle + fld w 15 0) }) := by
  rw [row_runs (c := .psqDly q) h rfl]
  dsimp only
  rw [marked_setPsq, marked_psq]
  rfl

theorem psqWlvl_runs (h : Executes s q.toNat 0x07 w) : exec (.psqWlvl q) s =
    .next (s.setPsq q.toNat (waited s q.toNat (s.flSeen q.toNat (fld w 10 8) == bit w 12))) :=
  (row_runs (c := .psqWlvl q) h rfl).trans (congrArg _ (marked_wait s _ _))

theorem fld_lt (w : Word) {hi lo n : Nat} (hn : 2 ^ (hi + 1 - lo) = n) : fld w hi lo < n := by
  rw [fld, natFld, hn]
  exact Nat.mod_lt _ (by rw [← hn]; exact Nat.two_pow_pos _)

/-- A polarity field of two bits, of which the lower selects the rise and the upper the fall. -/
theorem edgeSel_fld (w : Word) (lo : Nat) (lvl : Bool) : edgeSel (fld w (lo + 1) lo) lvl = bit w (if lvl then lo else lo + 1) := by
  have field (j : Nat) := testBit_fld w (lo + 1) lo j
  have small : fld w (lo + 1) lo < 4 := fld_lt w (by rw [show lo + 1 + 1 - lo = 2 by omega]; decide)
  cases lvl with
  | true => exact (Nat.testBit_zero _).symm.trans ((field 0).trans (by rw [decide_eq_true (by omega)]; rfl))
  | false =>
    have upper := (field 1).trans (by rw [decide_eq_true (by omega), Bool.true_and])
    rw [Nat.testBit_succ, Nat.testBit_zero] at upper
    exact .trans (decide_eq_decide.mpr (by omega)) upper

theorem psqWedg_runs (h : Executes s q.toNat 0x08 w) : exec (.psqWedg q) s = .next (s.setPsq q.toNat (waited s q.toNat
    ((s.lane q.toNat (fld w 10 8)).seen.any fun e => e.cyc + 2 == s.cycle && bit w (if e.lvl then 0 else 1)))) := by
  rw [row_runs (c := .psqWedg q) h rfl]
  rw [marked_wait]
  simp only [edgeSel_fld w 0]
  rfl

theorem marked_cnt (s : State) (q k : Nat) (st : PSt) : (marked s q st).cnt q k = s.cnt q k := by
  unfold State.cnt
  rw [marked_psq]

theorem psqWcnt_runs (h : Executes s q.toNat 0x09 w) : exec (.psqWcnt q) s = .next (s.setPsq q.toNat (waited s q.toNat
    ((s.cnt q.toNat (fld w 26 26)).wrap.any fun c => c + 1 == s.cycle))) := by
  rw [row_runs (c := .psqWcnt q) h rfl]
  rw [marked_wait, marked_cnt]
  cases (s.cnt q.toNat (fld w 26 26)).wrap <;> rfl

theorem psqLdv_runs (h : Executes s q.toNat 0x0C w) : exec (.psqLdv q) s = .next (s.setPsq q.toNat
    { goneTo s q.toNat ((s.psq q.toNat).pc + 1) with vq := (s.psq q.toNat).vq ++ [⟨0, fld w 26 24, w.setWidth 16⟩] }) := by
  rw [row_runs (c := .psqLdv q) h rfl]
  dsimp only [State.psqNext, State.psqGo, State.vwrite]
  rw [marked_psq, setPsq_psq_self, setPsq_setPsq, marked_setPsq, ofNat_fld 16 15 rfl]
  rfl

theorem psqJmp_runs (h : Executes s q.toNat 0x0E w) : exec (.psqJmp q) s =
    .next (s.setPsq q.toNat (goneTo s q.toNat (w.setWidth 8))) := by
  rw [row_runs (c := .psqJmp q) h rfl]
  rw [marked_go, ofNat_fld 8 7 rfl]

theorem psqBlv_runs (h : Executes s q.toNat 0x0F w) : exec (.psqBlv q) s = .next (s.setPsq q.toNat (goneTo s q.toNat
    (if s.flSeen q.toNat (fld w 10 8) = bit w 12 then w.setWidth 8 else (s.psq q.toNat).pc + 1))) := by
  rw [row_runs (c := .psqBlv q) h rfl]
  have seen : (marked s q.toNat .running).flSeen q.toNat (fld w 10 8) = s.flSeen q.toNat (fld w 10 8) := rfl
  rw [seen, marked_go, marked_next, ofNat_fld 8 7 rfl]
  split <;> rfl

theorem less_one (n : Nat) : BitVec.ofNat 16 ((n + 0xFFFF) % 0x10000) = BitVec.ofNat 16 n - 1 ∧
    ((n + 0xFFFF) % 0x10000 = 0 ↔ BitVec.ofNat 16 n - 1 = 0) := by
  have same : BitVec.ofNat 16 ((n + 0xFFFF) % 0x10000) = BitVec.ofNat 16 n - 1 := by
    refine BitVec.eq_of_toNat_eq ?_
    have one : (1 : Half).toNat = 1 := rfl
    simp only [BitVec.toNat_ofNat, BitVec.toNat_sub, one]
    omega
  refine ⟨same, ?_⟩
  rw [← same, ← BitVec.toNat_inj, BitVec.toNat_ofNat]
  simp

theorem psqDjnz_runs {v : Half} (h : Executes s q.toNat 0x0D w) (hv : v = BitVec.ofNat 16 (s.vreg q.toNat (fld w 26 24)) - 1) :
    exec (.psqDjnz q) s = .next (s.setPsq q.toNat { goneTo s q.toNat (if v = 0 then (s.psq q.toNat).pc + 1 else w.setWidth 8) with
      vq := (s.psq q.toNat).vq ++ [⟨0, fld w 26 24, v⟩] }) := by
  rw [row_runs (c := .psqDjnz q) h rfl]
  have vreg : (marked s q.toNat .running).vreg q.toNat (fld w 26 24) = s.vreg q.toNat (fld w 26 24) := rfl
  obtain ⟨word, zero⟩ := less_one (s.vreg q.toNat (fld w 26 24))
  dsimp only [State.psqNext, State.psqGo, State.vwrite]
  rw [vreg, word, ← hv, setPsq_psq_self, setPsq_setPsq, setPsq_setPsq, marked_setPsq, marked_setPsq, marked_psq, ofNat_fld 8 7 rfl]
  rw [← hv] at zero
  simp only [zero]
  split <;> rfl

end

end Sys2Proof.Proofs
end

section
/-! SUPPORT. The rows of Table 87 that change lanes, shift registers, trigger bits, flags or reflex pairs. -/
namespace Sys2Proof.Proofs
open Sys2Proof.Machine Sys2Proof.Laws

/-! ### Lanes: SET, TGL and OE -/

theorem marked_step (s : State) (q : Nat) (st : PSt) (rs : List Reg) : SeqStep q rs s (marked s q st) := (SeqStep.refl q rs s).setPsq _

/-- What a row that changes the lanes of a mask leaves. -/
structure MaskRow (s t : State) (q : Nat) (on : Nat → Bool) (c : Nat → Chg) : Prop where
  done : MaskDone s t q 8 on c
  psq : t.psq q = goneTo s q ((s.psq q).pc + 1)

theorem maskRow_done (s : State) (q mask ph : Nat) (op : Nat → ChgOp) :
    MaskRow s (((marked s q .running).changeMask q mask ph 0 op).psqNext q) q mask.testBit fun l => ⟨ph, 0, op l⟩ := by
  have h := changeMask_done (marked s q .running) q mask ph 0 op
  have psq : ((marked s q .running).changeMask q mask ph 0 op).psq q = { s.psq q with ran := some s.cycle, st := .running } := by
    rw [State.psq, changeMask_psqs]
    exact marked_psq s q .running
  refine ⟨⟨((marked_step s q .running _).trans h.step).setPsq _, h.flags, h.lane, h.coll⟩, ?_⟩
  rw [State.psqNext, State.psqGo, setPsq_psq_self, psq]
  rfl

section
variable {q : BitVec 6} {w : Word} {l : Nat} {s t : State}

theorem testBit_mask (w : Word) {i : Nat} (hi : i < 8) : (fld w 23 16).testBit i = bit w (16 + i) := by
  rw [testBit_fld, decide_eq_true (by omega), Bool.true_and]

theorem testBit_values (w : Word) {i : Nat} (hi : i < 8) : (fld w 15 8).testBit i = bit w (8 + i) := by
  rw [testBit_fld, decide_eq_true (by omega), Bool.true_and]

/-- The lanes that a row with a mask names take its change, and the others stay. -/
theorem MaskRow.lanes {q ph : Nat} {op : Nat → ChgOp} (h : MaskRow s t q (fld w 23 16).testBit fun l => ⟨ph, 0, op l⟩) (hl : l < 8)
    {x : ChgOp} (hx : op l = x) : (bit w (16 + l) = true → LaneTakes s t q l ph 0 x) ∧ (bit w (16 + l) = false → t.lane q l = s.lane q l) :=
  ⟨fun named => h.done.takes hl ((testBit_mask w hl).trans named) (by rw [hx]),
    fun unnamed => h.done.keeps hl ((testBit_mask w hl).trans unnamed)⟩

theorem psqSet_runs (h : Executes s q.toNat 0x01 w) (hl : l < 8) : Leads (.psqSet q) s fun t =>
    PsqFrame s t q.toNat ∧ t.flags = s.flags ∧ RegsBut [.psqStat q.toNat] s t ∧
      t.psq q.toNat = goneTo s q.toNat ((s.psq q.toNat).pc + 1) ∧ (bit w (16 + l) = true → LaneTakes s t q.toNat l (fld w 2 0)
    0 (.val (bit w (8 + l)))) ∧
      (bit w (16 + l) = false → t.lane q.toNat l = s.lane q.toNat l) ∧
      t.rb (.psqStat q.toNat) 28 = (s.rb (.psqStat q.toNat) 28 || (upto 8).any fun i => bit w (16 + i) && s.rf (.psqLcfg
    q.toNat i) 26 24 == 0 && (s.lane q.toNat i).chg.any fun d => d.ph == fld w 2 0) := by
  have row := maskRow_done s q.toNat (fld w 23 16) (fld w 2 0) fun l => .val ((fld w 15 8).testBit l)
  obtain ⟨takes, keeps⟩ := row.lanes hl (congrArg _ (testBit_values w hl))
  refine ⟨_, row_runs (c := .psqSet q) h rfl, row.done.step.psqFrame, row.done.flags, row.done.step.regs, row.psq, takes, keeps, ?_⟩
  refine row.done.coll.trans (congrArg _ (any_upto_congr fun i hi => ?_))
  rw [testBit_mask w hi, Bool.and_assoc]
  rfl

theorem psqTgl_runs (h : Executes s q.toNat 0x02 w) (hl : l < 8) : Leads (.psqTgl q) s fun t =>
    PsqFrame s t q.toNat ∧ t.flags = s.flags ∧ RegsBut [.psqStat q.toNat] s t ∧
      t.psq q.toNat = goneTo s q.toNat ((s.psq q.toNat).pc + 1) ∧ (bit w (16 + l) = true → LaneTakes s t q.toNat l (fld w 2 0)
    0 .tgl) ∧ (bit w (16 + l) = false → t.lane q.toNat l = s.lane q.toNat l) := by
  have row := maskRow_done s q.toNat (fld w 23 16) (fld w 2 0) fun _ => .tgl
  obtain ⟨takes, keeps⟩ := row.lanes hl rfl
  exact ⟨_, row_runs (c := .psqTgl q) h rfl, row.done.step.psqFrame, row.done.flags, row.done.step.regs, row.psq, takes, keeps⟩

theorem psqOe_runs (h : Executes s q.toNat 0x03 w) (hl : l < 8) : Leads (.psqOe q) s fun t =>
    PsqFrame s t q.toNat ∧ t.flags = s.flags ∧ RegsBut [.psqStat q.toNat] s t ∧
      t.psq q.toNat = goneTo s q.toNat ((s.psq q.toNat).pc + 1) ∧ (bit w (16 + l) = true → LaneTakes s t q.toNat l (fld w 2 0)
    0 (.en (bit w (8 + l)))) ∧ (bit w (16 + l) = false → t.lane q.toNat l = s.lane q.toNat l) := by
  have row := maskRow_done s q.toNat (fld w 23 16) (fld w 2 0) fun l => .en ((fld w 15 8).testBit l)
  obtain ⟨takes, keeps⟩ := row.lanes hl (congrArg _ (testBit_values w hl))
  exact ⟨_, row_runs (c := .psqOe q) h rfl, row.done.step.psqFrame, row.done.flags, row.done.step.regs, row.psq, takes, keeps⟩

end

/-! ### Trigger bits: WTRG (R295) -/

theorem one_shiftLeft_byte (b : Nat) : 1#8 <<< b = BitVec.twoPow 8 b := by rw [BitVec.shiftLeft_eq_mul_twoPow, BitVec.one_mul]

/-- The trigger bits of a record that WTRG sees in cycle `c`. -/
def trigNow (x : Psq) (c : Nat) : Byte := if x.trigCyc < c then x.trig ||| x.trigNew else x.trig

theorem trigSeen_eq (s : State) (q : Nat) : s.trigSeen q = trigNow (s.psq q) s.cycle := rfl

theorem setPsq_trigSeen (s : State) (q : Nat) (x : Psq) : (s.setPsq q x).trigSeen q = trigNow x s.cycle := by
  rw [trigSeen_eq, setPsq_psq_self]
  rfl

theorem setPsq_trigAll (s : State) (q : Nat) (x : Psq) : (s.setPsq q x).trigAll q = x.trig ||| x.trigNew := by
  rw [State.trigAll, setPsq_psq_self]

theorem marked_trigSeen (s : State) (q : Nat) (st : PSt) : (marked s q st).trigSeen q = s.trigSeen q := setPsq_trigSeen s q _

/-- The record after trigger bit `b` is cleared in cycle `c`; the bits set in that cycle stay. -/
def clearedTrig (x : Psq) (c b : Nat) : Psq :=
  { x with trig := trigNow x c &&& ~~~ BitVec.twoPow 8 b, trigNew := if x.trigCyc < c then 0 else x.trigNew }

theorem trigNow_clearedTrig (x : Psq) (c b : Nat) : trigNow (clearedTrig x c b) c = trigNow x c &&& ~~~ BitVec.twoPow 8 b := by
  unfold clearedTrig
  generalize trigNow x c &&& ~~~ BitVec.twoPow 8 b = left
  unfold trigNow
  by_cases old : x.trigCyc < c
  · simp [old]
  · simp [old]

section
variable {q : BitVec 6} {w : Word} {s : State}

theorem psqWtrg_set (h : Executes s q.toNat 0x0A w) (set : (s.trigSeen q.toNat).getLsbD (fld w 2 0) = true) :
    exec (.psqWtrg q) s = .next (s.setPsq q.toNat (clearedTrig (goneTo s q.toNat ((s.psq q.toNat).pc + 1)) s.cycle (fld w 2 0))) := by
  rw [row_runs (c := .psqWtrg q) h rfl, marked_trigSeen, if_pos set]
  dsimp only [State.psqNext, State.psqGo, State.clrTrig]
  rw [setPsq_psq_self, setPsq_setPsq, marked_setPsq, marked_psq, marked_trigSeen, one_shiftLeft_byte]
  rfl

theorem psqWtrg_unset (h : Executes s q.toNat 0x0A w) (unset : (s.trigSeen q.toNat).getLsbD (fld w 2 0) = false) :
    exec (.psqWtrg q) s = .next (s.setPsq q.toNat { goneTo s q.toNat (s.psq q.toNat).pc with st := .waiting }) := by
  rw [row_runs (c := .psqWtrg q) h rfl, marked_trigSeen, unset, if_neg Bool.false_ne_true]
  exact congrArg _ (marked_wait s q.toNat false)

theorem psqWtrg_runs (h : Executes s q.toNat 0x0A w) : Leads (.psqWtrg q) s fun t => t = { s with psqs := t.psqs } ∧
    OnlyAt q.toNat s.psq t.psq ∧
      ((s.trigSeen q.toNat).getLsbD (fld w 2 0) = false → t.psq q.toNat = { goneTo s q.toNat (s.psq q.toNat).pc with st := .waiting }) ∧
      ((s.trigSeen q.toNat).getLsbD (fld w 2 0) = true → t.psq q.toNat =
    { goneTo s q.toNat ((s.psq q.toNat).pc + 1) with trig := (t.psq q.toNat).trig, trigNew := (t.psq q.toNat).trigNew } ∧
        t.trigSeen q.toNat = s.trigSeen q.toNat &&& ~~~BitVec.twoPow 8 (fld w 2 0) ∧
        t.trigAll q.toNat = (s.trigSeen q.toNat &&& ~~~BitVec.twoPow 8 (fld w 2 0)) ||| (if (s.psq q.toNat).trigCyc < s.cycle
    then 0 else (s.psq q.toNat).trigNew)) := by
  cases seen : (s.trigSeen q.toNat).getLsbD (fld w 2 0) with
  | false =>
    exact ⟨_, psqWtrg_unset h seen, rfl, setPsq_onlyAt s _ _, fun _ => setPsq_psq_self s _ _, fun set => absurd set Bool.false_ne_true⟩
  | true =>
    refine ⟨_, psqWtrg_set h seen, rfl, setPsq_onlyAt s _ _, fun unset => absurd unset.symm Bool.false_ne_true, fun _ => ⟨?_, ?_, ?_⟩⟩
    · rw [setPsq_psq_self]
      rfl
    · rw [setPsq_trigSeen, trigNow_clearedTrig]
      rfl
    · rw [setPsq_trigAll]
      rfl

/-! ### Flags and reflex pairs: SIG, END and RARM -/

theorem flag_index {c d f g : Nat} (hf : f < 256) (hg : g < 256) : decide (256 * c + f = 256 * d + g) = (c == d && f == g) := by
  rw [Bool.beq_eq_decide_eq, Bool.beq_eq_decide_eq, ← Bool.decide_and]
  exact decide_eq_decide.mpr (by omega)

/-- A flag set now is set, and every other flag is as it was. -/
theorem setFlagAt_sets (s : State) {c f d g : Nat} (e : Nat) (hf : f < 256) (hg : g < 256) :
    (s.setFlagAt d g e).flagSet c f = (s.flagSet c f || (c == d && f == g)) := by
  rw [setFlagAt_flagSet, flag_index hf hg]

/-- A flag that a word names in its low byte is set, and every other flag is as it was. -/
theorem setFlag_sets (s : State) (d : Nat) (w : Word) {c f : Nat} (hf : f < 256) :
    (s.setFlag d (fld w 7 0)).flagSet c f = (s.flagSet c f || (c == d && f == fld w 7 0)) :=
  setFlagAt_sets s (s.cycle + 1) hf (fld_lt w rfl)

/-- The record that a row leaves stands beside the flags that it sets. -/
theorem setFlag_psqNext (s : State) (q c f : Nat) : ((marked s q .running).setFlag c f).psqNext q =
    { s.setPsq q (goneTo s q ((s.psq q).pc + 1)) with flags := ((marked s q .running).setFlag c f).flags } := by
  have frame := setFlag_frame (marked s q .running) c f
  generalize (marked s q .running).setFlag c f = u at *
  obtain ⟨fl, rfl⟩ : ∃ fl, u = { marked s q .running with flags := fl } := ⟨_, frame⟩
  exact congrArg (fun v => { v with flags := fl }) (marked_next s q)

theorem psqSig_runs {c f : Nat} (h : Executes s q.toNat 0x0B w) : Leads (.psqSig q) s fun t =>
    t = { s with psqs := t.psqs, flags := t.flags } ∧ OnlyAt q.toNat s.psq t.psq ∧
      t.psq q.toNat = goneTo s q.toNat ((s.psq q.toNat).pc + 1) ∧ (f < 256 → t.flagSet c f = (s.flagSet c f || (c == psqCl
    q.toNat && f == fld w 7 0))) := by
  have sets := fun hf => setFlag_sets (marked s q.toNat .running) (psqCl q.toNat) w (c := c) (f := f) hf
  have run := (row_runs (c := .psqSig q) h rfl).trans (congrArg _ (setFlag_psqNext s q.toNat _ _))
  generalize goneTo s q.toNat ((s.psq q.toNat).pc + 1) = x at *
  exact ⟨_, run, rfl, setPsq_onlyAt s q.toNat x, setPsq_psq_self s q.toNat x, sets⟩

/-- RARM arms its pair and clears FIRED, or disarms it; the rest of the pair stays. -/
theorem armed_pair (s : State) (r : Reg) (arm : Bool) :
    let t := if arm then (s.setRb r 31 true).setRb r 29 false else s.setRb r 31 false
    OnlyRegs [r] s t ∧ t.rb r 31 = arm ∧ t.rb r 29 = (s.rb r 29 && !arm) ∧ t.rb r 30 = s.rb r 30 ∧ t.rf r 28 0 = s.rf r 28 0 := by
  have listed : r ∈ [r] := List.mem_singleton_self r
  cases arm with
  | true =>
    refine ⟨(setReg_onlyRegs s listed _).trans (setReg_onlyRegs _ listed _), ?_, ?_, ?_, ?_⟩
    · exact (setRb_rb _ r _ (by decide)).trans (setRb_rb s r _ (by decide))
    · exact (setRb_rb _ r _ (by decide)).trans (Bool.and_false _).symm
    · exact (setRb_rb _ r _ (by decide)).trans (setRb_rb s r _ (by decide))
    · exact (setRb_rf _ r _ (by decide) (by decide)).trans (setRb_rf s r _ (by decide) (by decide))
  | false =>
    exact ⟨setReg_onlyRegs s listed _, setRb_rb s r _ (by decide), (setRb_rb s r _ (by decide)).trans (Bool.and_true _).symm,
      setRb_rb s r _ (by decide), setRb_rf s r _ (by decide) (by decide)⟩

theorem psqRarm_runs {r : Reg} (h : Executes s q.toNat 0x11 w) (hr : r = .psqRfx q.toNat (fld w 1 0)) : Leads (.psqRarm q) s fun t =>
    t = { s with psqs := t.psqs, regs := t.regs } ∧ OnlyAt q.toNat s.psq t.psq ∧
      t.psq q.toNat = goneTo s q.toNat ((s.psq q.toNat).pc + 1) ∧ RegsBut [r] s t ∧ t.rb r 31 = bit w 4 ∧ t.rb r 29 = (s.rb r
    29 && !bit w 4) ∧ t.rb r 30 = s.rb r 30 ∧ t.rf r 28 0 = s.rf r 28 0 := by
  obtain ⟨only, arm, fired, free, rest⟩ := armed_pair (marked s q.toNat .running) r (bit w 4)
  have run := row_runs (c := .psqRarm q) h rfl
  dsimp only at run
  rw [← hr] at run
  generalize (if bit w 4 = true then ((marked s q.toNat .running).setRb r 31 true).setRb r 29 false
    else (marked s q.toNat .running).setRb r 31 false) = u at *
  obtain ⟨⟨regs, rfl⟩, others⟩ := only
  have next := congrArg (fun v => { v with regs := regs }) (marked_next s q.toNat)
  generalize goneTo s q.toNat ((s.psq q.toNat).pc + 1) = x at *
  exact ⟨_, run.trans (congrArg _ next), rfl, setPsq_onlyAt s q.toNat x, setPsq_psq_self s q.toNat x, others, arm, fired, free, rest⟩

theorem psqEnd_runs {c f : Nat} (h : Executes s q.toNat 0x12 w) : Leads (.psqEnd q) s fun t =>
    t = { s with psqs := t.psqs, flags := t.flags } ∧ OnlyAt q.toNat s.psq t.psq ∧
      t.psq q.toNat = { goneTo s q.toNat (s.psq q.toNat).pc with st := .stopped, stopping := false } ∧
      (f < 256 → t.flagSet c f = (s.flagSet c f || (bit w 8 && c == psqCl q.toNat && f == fld w 7 0))) := by
  have halted : (marked s q.toNat .running).psqHalt q.toNat false =
      s.setPsq q.toNat { goneTo s q.toNat (s.psq q.toNat).pc with st := .stopped, stopping := false } := by
    have ⟨⟨_, _, idle, _⟩, _⟩ := h
    rw [State.psqHalt, if_neg Bool.false_ne_true, marked_setPsq, marked_psq, goneTo]
    rw [idle]
  have run := row_runs (c := .psqEnd q) h rfl
  dsimp only at run
  rw [halted] at run
  generalize ({ goneTo s q.toNat (s.psq q.toNat).pc with st := .stopped, stopping := false } : Psq) = x at *
  cases raises : bit w 8 with
  | false =>
    rw [raises, if_neg Bool.false_ne_true] at run
    exact ⟨_, run, rfl, setPsq_onlyAt s q.toNat x, setPsq_psq_self s q.toNat x, fun _ => (Bool.or_false _).symm⟩
  | true =>
    rw [raises, if_pos rfl, setFlag_frame] at run
    have sets := fun hf => setFlag_sets (s.setPsq q.toNat x) (psqCl q.toNat) w (c := c) (f := f) hf
    exact ⟨_, run, rfl, setPsq_onlyAt s q.toNat x, setPsq_psq_self s q.toNat x, sets⟩

/-! ### The end of a DLY (R277) -/

theorem psqDlyExpiry_due {n : Nat} (is : (s.psq q.toNat).dly = some n) (on : s.active = true) (run : (s.psq q.toNat).st = .running)
    (due : n ≤ s.cycle) : exec (.psqDlyExpiry q) s =
      .next (s.setPsq q.toNat { s.psq q.toNat with dly := none, pc := (s.psq q.toNat).pc + 1 }) := by
  change execPsqDlyExpiry q s = _
  unfold execPsqDlyExpiry
  simp only [is, if_pos (show s.active = true ∧ (s.psq q.toNat).st = .running ∧ n ≤ s.cycle from ⟨on, run, due⟩)]

theorem psqDlyExpiry_idle (h : (s.psq q.toNat).dly = none ∨ s.active = false ∨ (s.psq q.toNat).st ≠ .running ∨
    ∃ n ∈ (s.psq q.toNat).dly, s.cycle < n) : Idle (.psqDlyExpiry q) s := by
  change execPsqDlyExpiry q s = _
  unfold execPsqDlyExpiry
  cases is : (s.psq q.toNat).dly with
  | none => simp only [is]
  | some n =>
    simp only [is]
    refine if_neg fun ⟨on, run, due⟩ => ?_
    rcases h with none | off | other | ⟨m, held, early⟩
    · exact absurd (is.symm.trans none) (by simp)
    · exact absurd (on.symm.trans off) (by decide)
    · exact other run
    · cases Option.some.inj (is.symm.trans held)
      omega

end

end Sys2Proof.Proofs
end

section
/-! SUPPORT. The rows that shift, and the release of a stalled one (R285, R286). -/
namespace Sys2Proof.Proofs
open Sys2Proof.Machine Sys2Proof.Laws

/-! ### Shift registers -/

/-- Shift register `k` of a record. -/
def shOf (p : Psq) (k : Nat) : Shift := if k = 0 then p.sh0 else p.sh1
/-- A record whose shift register `k` takes `x`. -/
def withSh (p : Psq) (k : Nat) (x : Shift) : Psq := if k = 0 then { p with sh0 := x } else { p with sh1 := x }

theorem sh_eq (s : State) (q k : Nat) : s.sh q k = shOf (s.psq q) k := rfl

theorem setSh_eq (s : State) (q k : Nat) (x : Shift) : s.setSh q k x = s.setPsq q (withSh (s.psq q) k x) :=
  (apply_ite (s.setPsq q) (k = 0) _ _).symm

theorem marked_sh (s : State) (q k : Nat) (st : PSt) : (marked s q st).sh q k = s.sh q k := by
  rw [sh_eq, marked_psq]
  rfl

section
variable {p : Psq} {k : Nat} {x : Shift}

theorem withSh_same : shOf (withSh p k x) k = x := by
  unfold shOf withSh
  split <;> rfl

theorem withSh_other (hk : k < 2) : shOf (withSh p k x) (1 - k) = shOf p (1 - k) := by
  interval_cases k <;> rfl

theorem withSh_rest : withSh p k x = { p with sh0 := (withSh p k x).sh0, sh1 := (withSh p k x).sh1 } := by
  unfold withSh
  split <;> rfl

theorem withSh_goes (s : State) (q : Nat) (st : PSt) : { withSh { s.psq q with ran := some s.cycle, st := st } k x with
    st := .running, pc := (withSh { s.psq q with ran := some s.cycle, st := st } k x).pc + 1 } =
      withSh (goneTo s q ((s.psq q).pc + 1)) k x := by
  unfold withSh
  split <;> rfl

end

/-- What a row that shifts leaves of its record: its shift register, and where it goes on. -/
structure ShiftDone (s t : State) (q k : Nat) (x : Shift) : Prop where
  same : t.sh q k = x
  other : t.sh q (1 - k) = s.sh q (1 - k)
  psq : t.psq q = { goneTo s q ((s.psq q).pc + 1) with sh0 := (t.psq q).sh0, sh1 := (t.psq q).sh1 }

theorem shiftDone_of {s t : State} {q k : Nat} {x : Shift} (hk : k < 2) (h : t.psq q = withSh (goneTo s q ((s.psq q).pc + 1)) k x) :
    ShiftDone s t q k x := by
  refine ⟨?_, ?_, ?_⟩
  · rw [sh_eq, h, withSh_same]
  · rw [sh_eq, h, withSh_other hk]
    rfl
  · rw [h]
    exact withSh_rest

section
variable {s : State} {q : Nat} {w : Word} {x : Shift} {st : PSt}

/-- The index of the bit that OUTB shifts out. -/
def outbIndex (s : State) (q k : Nat) (x : Shift) : Nat :=
  if s.rb (.psqShcfg q k) 30 then x.bits - 1 else s.rf (.psqShcfg q k) 6 0 - x.bits

theorem outb_eq (s : State) (q : Nat) (w : Word) (st : PSt) : (marked s q st).outb q w =
    if s.rb (.psqShcfg q (fld w 26 26)) 31 then (marked s q st).psqFault q 0x01 true
    else if (s.sh q (fld w 26 26)).bits = 0 ∨ s.cycle < (s.sh q (fld w 26 26)).since then
      s.setPsq q { s.psq q with st := .stalled, ran := some s.cycle }
    else
      let x := s.sh q (fld w 26 26)
      let u := (s.setPsq q (withSh { s.psq q with ran := some s.cycle, st := st } (fld w 26 26) { x with bits := x.bits - 1 })).change q
        (fld w 10 8) ⟨fld w 2 0, 0, .val (x.data.getLsbD (outbIndex s q (fld w 26 26) x))⟩
      (u.setPsq q { u.psq q with st := .running }).psqNext q := by
  unfold State.outb
  dsimp only
  rw [marked_sh, setSh_eq, marked_setPsq, marked_setPsq, marked_psq]
  rfl

theorem outb_fault (into : s.rb (.psqShcfg q (fld w 26 26)) 31 = true) :
    (marked s q st).outb q w = (marked s q st).psqFault q 0x01 true := by
  rw [outb_eq, if_pos into]

theorem outb_stall (out : s.rb (.psqShcfg q (fld w 26 26)) 31 = false)
    (early : (s.sh q (fld w 26 26)).bits = 0 ∨ s.cycle < (s.sh q (fld w 26 26)).since) :
    (marked s q st).outb q w = s.setPsq q { s.psq q with st := .stalled, ran := some s.cycle } := by
  rw [outb_eq, out, if_neg Bool.false_ne_true, if_pos early]

theorem outb_done (hx : x = s.sh q (fld w 26 26)) (out : s.rb (.psqShcfg q (fld w 26 26)) 31 = false) (some : x.bits ≠ 0)
    (due : x.since ≤ s.cycle) : OutbDone s ((marked s q st).outb q w) q w x ∧
      ∀ l, l ≠ fld w 10 8 → ((marked s q st).outb q w).lane q l = s.lane q l := by
  rw [outb_eq, out, if_neg Bool.false_ne_true, ← hx, if_neg (by omega)]
  dsimp only
  generalize hc : (⟨fld w 2 0, 0, .val (x.data.getLsbD (outbIndex s q (fld w 26 26) x))⟩ : Chg) = c
  generalize hp : withSh { s.psq q with ran := .some s.cycle, st := st } (fld w 26 26) { x with bits := x.bits - 1 } = p
  have inEight : fld w 10 8 < 8 := fld_lt w rfl
  have step : SeqStep q [.psqStat q] s ((s.setPsq q p).change q (fld w 10 8) c) :=
    ((SeqStep.refl q _ s).setPsq p).trans (change_seqStep _ q (List.mem_singleton_self _) inEight c)
  have psq : ((s.setPsq q p).change q (fld w 10 8) c).psq q = p := by
    rw [State.psq, change_psqs]
    exact setPsq_psq_self s q p
  have flags := change_flags (s.setPsq q p) q (fld w 10 8) c
  have lane (l : Nat) := change_lane (s.setPsq q p) q (fld w 10 8) l c
  have coll := change_coll (s.setPsq q p) q (fld w 10 8) c
  generalize (s.setPsq q p).change q (fld w 10 8) c = u at *
  have shift : ShiftDone s ((u.setPsq q { u.psq q with st := .running }).psqNext q) q (fld w 26 26) { x with bits := x.bits - 1 } := by
    refine shiftDone_of (fld_lt w rfl) ?_
    rw [State.psqNext, State.psqGo, setPsq_psq_self, setPsq_psq_self, psq, ← hp]
    exact withSh_goes s q st
  have whole : SeqStep q [.psqStat q] s ((u.setPsq q { u.psq q with st := .running }).psqNext q) := (step.setPsq _).setPsq _
  refine ⟨⟨whole.psqFrame, flags, whole.regs, shift.same, shift.other, shift.psq, ?_⟩, fun l other => (lane l).trans (if_neg other)⟩
  refine laneTakes_of ?_ fun met => ?_
  · exact ((lane _).trans (if_pos rfl)).trans (congrArg _ hc.symm)
  · refine coll.trans ?_
    rw [← hc]
    exact (congrArg _ met).trans (Bool.or_true _)

/-- What INB makes of its shift register. -/
def inbShift (s : State) (q : Nat) (w : Word) (x : Shift) : Shift :=
  let b : DWord := (BitVec.ofBool (s.sample q (fld w 10 8) (fld w 2 0))).setWidth 64
  { x with bits := x.bits + 1, data := if s.rb (.psqShcfg q (fld w 26 26)) 30 then x.data <<< 1 ||| b else x.data ||| b <<< x.bits }

theorem ofNat_b2n (b : Bool) : BitVec.ofNat 64 (b2n b) = (BitVec.ofBool b).setWidth 64 := by cases b <;> rfl

theorem inb_eq (s : State) (q : Nat) (w : Word) (st : PSt) : (marked s q st).inb q w =
    if ¬ s.rb (.psqShcfg q (fld w 26 26)) 31 then (marked s q st).psqFault q 0x01 true
    else if (s.sh q (fld w 26 26)).bits ≥ s.rf (.psqShcfg q (fld w 26 26)) 6 0 ∨ s.cycle < (s.sh q (fld w 26 26)).since then
      s.setPsq q { s.psq q with st := .stalled, ran := some s.cycle }
    else s.setPsq q (withSh (goneTo s q ((s.psq q).pc + 1)) (fld w 26 26) (inbShift s q w (s.sh q (fld w 26 26)))) := by
  unfold State.inb
  dsimp only
  rw [marked_sh, setSh_eq, marked_setPsq, marked_setPsq, marked_psq, State.psqNext, State.psqGo, setPsq_psq_self, setPsq_psq_self,
    setPsq_setPsq, setPsq_setPsq, ofNat_b2n, withSh_goes]
  rfl

theorem inb_fault (out : s.rb (.psqShcfg q (fld w 26 26)) 31 = false) :
    (marked s q st).inb q w = (marked s q st).psqFault q 0x01 true := by
  rw [inb_eq, out, if_pos Bool.false_ne_true]

theorem inb_stall (into : s.rb (.psqShcfg q (fld w 26 26)) 31 = true) (early : s.rf (.psqShcfg q (fld w 26 26)) 6 0 ≤
    (s.sh q (fld w 26 26)).bits ∨ s.cycle < (s.sh q (fld w 26 26)).since) :
    (marked s q st).inb q w = s.setPsq q { s.psq q with st := .stalled, ran := some s.cycle } := by
  rw [inb_eq, if_neg (not_not.mpr into), if_pos early]

theorem inb_done (hx : x = s.sh q (fld w 26 26)) (into : s.rb (.psqShcfg q (fld w 26 26)) 31 = true)
    (room : x.bits < s.rf (.psqShcfg q (fld w 26 26)) 6 0) (due : x.since ≤ s.cycle) : InbDone s ((marked s q st).inb q w) q w x := by
  rw [inb_eq, if_neg (not_not.mpr into), ← hx, if_neg (by omega)]
  have shift := shiftDone_of (s := s) (fld_lt w rfl)
    (setPsq_psq_self s q (withSh (goneTo s q ((s.psq q).pc + 1)) (fld w 26 26) (inbShift s q w x)))
  exact ⟨rfl, setPsq_onlyAt s q _, shift.same, shift.other, shift.psq⟩

end

section
variable {q : BitVec 6} {w : Word} {x : Shift} {s : State}

theorem psqOutb_runs {l : Nat} (h : Executes s q.toNat 0x04 w) (hx : x = s.sh q.toNat (fld w 26 26))
    (out : s.rb (.psqShcfg q.toNat (fld w 26 26)) 31 = false) (some : x.bits ≠ 0) (due : x.since ≤ s.cycle) :
    Leads (.psqOutb q) s fun t => OutbDone s t q.toNat w x ∧ (l < 8 → l ≠ fld w 10 8 → t.lane q.toNat l = s.lane q.toNat l) := by
  obtain ⟨done, others⟩ := outb_done (st := .running) hx out some due
  exact ⟨_, row_runs (c := .psqOutb q) h rfl, done, fun _ => others l⟩

theorem psqInb_runs (h : Executes s q.toNat 0x05 w) (hx : x = s.sh q.toNat (fld w 26 26))
    (into : s.rb (.psqShcfg q.toNat (fld w 26 26)) 31 = true) (room : x.bits < s.rf (.psqShcfg q.toNat (fld w 26 26)) 6 0)
    (due : x.since ≤ s.cycle) : Leads (.psqInb q) s fun t => InbDone s t q.toNat w x :=
  ⟨_, row_runs (c := .psqInb q) h rfl, inb_done hx into room due⟩

theorem psqOutb_faults (h : Executes s q.toNat 0x04 w) (into : s.rb (.psqShcfg q.toNat (fld w 26 26)) 31 = true) :
    ∃ t, exec (.psqOutb q) s = .next t ∧ SeqFault s t q.toNat 0x01 true :=
  ⟨_, (row_runs (c := .psqOutb q) h rfl).trans (congrArg _ (outb_fault into)), marked_faults h.1.1 q.toNat .running true⟩

theorem psqInb_faults (h : Executes s q.toNat 0x05 w) (out : s.rb (.psqShcfg q.toNat (fld w 26 26)) 31 = false) :
    ∃ t, exec (.psqInb q) s = .next t ∧ SeqFault s t q.toNat 0x01 true :=
  ⟨_, (row_runs (c := .psqInb q) h rfl).trans (congrArg _ (inb_fault out)), marked_faults h.1.1 q.toNat .running true⟩

theorem psqOutb_stalls (h : Executes s q.toNat 0x04 w) (out : s.rb (.psqShcfg q.toNat (fld w 26 26)) 31 = false)
    (early : (s.sh q.toNat (fld w 26 26)).bits = 0 ∨ s.cycle < (s.sh q.toNat (fld w 26 26)).since) :
    exec (.psqOutb q) s = .next (s.setPsq q.toNat { s.psq q.toNat with st := .stalled, ran := some s.cycle }) :=
  (row_runs (c := .psqOutb q) h rfl).trans (congrArg _ (outb_stall out early))

theorem psqInb_stalls (h : Executes s q.toNat 0x05 w) (into : s.rb (.psqShcfg q.toNat (fld w 26 26)) 31 = true)
    (early : s.rf (.psqShcfg q.toNat (fld w 26 26)) 6 0 ≤ (s.sh q.toNat (fld w 26 26)).bits ∨
      s.cycle < (s.sh q.toNat (fld w 26 26)).since) :
    exec (.psqInb q) s = .next (s.setPsq q.toNat { s.psq q.toNat with st := .stalled, ran := some s.cycle }) :=
  (row_runs (c := .psqInb q) h rfl).trans (congrArg _ (inb_stall into early))

/-! ### SHIFT_STALL_RELEASE (R286) -/

theorem shiftStallRelease_due (on : s.active = true) (stalled : (s.psq q.toNat).st = .stalled) (fresh : (s.psq q.toNat).ran ≠ some s.cycle)
    (hw : w = s.progWord q.toNat (s.psq q.toNat).pc.toNat) : exec (.shiftStallRelease q) s = .next
      (if fld w 31 27 = 0x04 then (marked s q.toNat (s.psq q.toNat).st).outb q.toNat w
        else (marked s q.toNat (s.psq q.toNat).st).inb q.toNat w) := by
  rw [hw]
  exact if_pos ⟨on, stalled, fresh⟩

theorem shiftStallRelease_runs (on : s.active = true) (stalled : (s.psq q.toNat).st = .stalled)
    (fresh : (s.psq q.toNat).ran ≠ some s.cycle) (hw : w = s.progWord q.toNat (s.psq q.toNat).pc.toNat)
    (hx : x = s.sh q.toNat (fld w 26 26)) (due : x.since ≤ s.cycle) :
    Leads (.shiftStallRelease q) s fun t =>
      (fld w 31 27 = 0x04 → s.rb (.psqShcfg q.toNat (fld w 26 26)) 31 = false → x.bits ≠ 0 → OutbDone s t q.toNat w x) ∧
      (fld w 31 27 = 0x05 → s.rb (.psqShcfg q.toNat (fld w 26 26)) 31 = true → x.bits < s.rf (.psqShcfg q.toNat (fld w 26 26)) 6 0 →
        InbDone s t q.toNat w x) := by
  refine ⟨_, shiftStallRelease_due on stalled fresh hw, fun outb out some => ?_, fun inb into room => ?_⟩
  · rw [if_pos outb]
    exact (outb_done hx out some due).1
  · rw [if_neg (by omega)]
    exact inb_done hx into room due

theorem shiftStallRelease_idle (h : s.active = false ∨ (s.psq q.toNat).st ≠ .stalled ∨ (s.psq q.toNat).ran = some s.cycle) :
    Idle (.shiftStallRelease q) s := by
  refine if_neg fun ⟨on, stalled, fresh⟩ => ?_
  rcases h with off | other | done
  · exact absurd (on.symm.trans off) (by decide)
  · exact other stalled
  · exact fresh done

end

end Sys2Proof.Proofs
end

section
/-! SUPPORT. Counters (R287, R288): their records, their PWM lanes, and the row that starts and stops them. -/
namespace Sys2Proof.Proofs
open Sys2Proof.Machine Sys2Proof.Laws

/-! ### The counters of a record -/

/-- Counter `k` of a record. -/
def cntOf (p : Psq) (k : Nat) : Counter := if k = 0 then p.c0 else p.c1
/-- A record whose counter `k` is `c`. -/
def withCnt (p : Psq) (k : Nat) (c : Counter) : Psq := if k = 0 then { p with c0 := c } else { p with c1 := c }

theorem cnt_eq (s : State) (q k : Nat) : s.cnt q k = cntOf (s.psq q) k := rfl

theorem setCnt_eq (s : State) (q k : Nat) (c : Counter) : s.setCnt q k c = s.setPsq q (withCnt (s.psq q) k c) :=
  (apply_ite (s.setPsq q) (k = 0) _ _).symm

section
variable {p : Psq} {k : Nat} {c : Counter}

theorem withCnt_same : cntOf (withCnt p k c) k = c := by
  unfold cntOf withCnt
  split <;> rfl

theorem withCnt_other {j : Nat} (hk : k < 2) (hj : j < 2) (other : j ≠ k) : cntOf (withCnt p k c) j = cntOf p j := by
  obtain ⟨rfl, rfl⟩ | ⟨rfl, rfl⟩ : k = 0 ∧ j = 1 ∨ k = 1 ∧ j = 0 := by omega
  · rfl
  · rfl

theorem withCnt_self : withCnt p k (cntOf p k) = p := by
  unfold cntOf withCnt
  split <;> rfl

theorem withCnt_rest : withCnt p k c = { p with c0 := (withCnt p k c).c0, c1 := (withCnt p k c).c1 } := by
  unfold withCnt
  split <;> rfl

end

/-! ### PWM lanes (R288) -/

/-- The PWM lanes of a counter below `n` have taken their level, and nothing else has changed. -/
structure PwmDone (s t : State) (q k n : Nat) : Prop where
  frame : ∃ lanes, t = { s with lanes := lanes }
  beside : ∀ j i, j ≠ q → i < 8 → t.lane j i = s.lane j i
  lane : ∀ l, l < 8 → t.lane q l = if l < n then pwmLane s q k l (s.lane q l) else s.lane q l

/-- A PWM lane of counter `k` takes its level. -/
def pwmStep (s u : State) (q k l : Nat) : State :=
  let m := u.rf (.psqLcfg q l) 26 24
  if m = k + 1 ∨ m = k + 3 then
    let on := decide ((s.cnt q k).count.toNat < (s.cnt q k).cmpl.toNat)
    u.setLane q l { u.lane q l with
      chg := insertChg ⟨s.rf (.psqCnt q k) 25 23, 0, .val (if m = k + 1 then on else !on)⟩ (u.lane q l).chg }
  else u

theorem pwm_eq (s : State) (q k : Nat) : s.pwm q k = s.each (upto 8) fun u l => pwmStep s u q k l := rfl

theorem pwmStep_lane {s u : State} (regs : u.regs = s.regs) (q k l i : Nat) :
    (pwmStep s u q k l).lane q i = if i = l then pwmLane s q k l (u.lane q l) else u.lane q i := by
  have mode : u.rf (.psqLcfg q l) 26 24 = s.rf (.psqLcfg q l) 26 24 := by rw [State.rf, State.reg, regs]; rfl
  unfold pwmStep pwmLane
  dsimp only
  rw [mode]
  by_cases plain : s.rf (.psqLcfg q l) 26 24 = k + 1
  · rw [if_pos (.inl plain), if_pos plain, if_pos plain, setLane_lane_at]
  · rw [if_neg plain, if_neg plain]
    by_cases inverted : s.rf (.psqLcfg q l) 26 24 = k + 3
    · rw [if_pos (.inr inverted), if_pos inverted, setLane_lane_at]
    · rw [if_neg (by omega), if_neg inverted]
      split
      · rename_i same
        rw [same]
      · rfl

theorem pwmStep_frame (s u : State) (q k : Nat) {l : Nat} (hl : l < 8) : (∃ lanes, pwmStep s u q k l = { u with lanes := lanes }) ∧
    ∀ j i, j ≠ q → i < 8 → (pwmStep s u q k l).lane j i = u.lane j i := by
  unfold pwmStep
  dsimp only
  split
  · exact ⟨⟨_, rfl⟩, fun j i other hi => (setLane_lane u q l j i _).trans (if_neg (by omega))⟩
  · exact ⟨⟨u.lanes, rfl⟩, fun _ _ _ _ => rfl⟩

theorem pwmDone_next {s u : State} {q k n : Nat} (hn : n < 8) (h : PwmDone s u q k n) : PwmDone s (pwmStep s u q k n) q k (n + 1) := by
  obtain ⟨⟨ls, eq⟩, beside⟩ := pwmStep_frame s u q k hn
  obtain ⟨lanes, frame⟩ := h.frame
  have regs : u.regs = s.regs := by rw [frame]
  refine ⟨⟨ls, by rw [eq, frame]⟩, fun j i other hi => (beside j i other hi).trans (h.beside j i other hi), fun l hl => ?_⟩
  rw [pwmStep_lane regs, h.lane l hl, h.lane n hn, if_neg (Nat.lt_irrefl n)]
  by_cases same : l = n
  · rw [if_pos same, if_pos (by omega), same]
  · rw [if_neg same]
    exact if_congr (by omega) rfl rfl

theorem pwm_done (s : State) (q k : Nat) : PwmDone s (s.pwm q k) q k 8 := by
  rw [pwm_eq]
  refine each_upto (P := fun n u => PwmDone s u q k n) ?_ fun n u hn h => pwmDone_next hn h
  exact ⟨⟨s.lanes, rfl⟩, fun _ _ _ _ => rfl, fun l _ => (if_neg (by omega)).symm⟩

theorem PwmDone.seqStep {s t : State} {q k : Nat} (h : PwmDone s t q k 8) (rs : List Reg) : SeqStep q rs s t := by
  obtain ⟨⟨lanes, rfl⟩, beside, lane⟩ := h
  exact ⟨⟨_, _, _, _, rfl⟩, fun _ _ => rfl, beside, fun _ _ => rfl⟩

theorem pwmLane_congr {s t : State} {q k : Nat} (regs : t.regs = s.regs) (cnt : t.cnt q k = s.cnt q k) (l : Nat) (x : Lane) :
    pwmLane t q k l x = pwmLane s q k l x := by
  unfold pwmLane State.rf State.reg
  rw [regs, cnt]

/-! ### The counter row -/

/-- What CNTC leaves before it goes on: its counter is `c`, its EN is `on`, the rest of its register stays. -/
structure CntcDone (s v : State) (q k : Nat) (on : Bool) (c : Counter) : Prop where
  step : SeqStep q [.psqCnt q k] s v
  flags : v.flags = s.flags
  on : v.rb (.psqCnt q k) 31 = on
  rest : v.rf (.psqCnt q k) 30 0 = s.rf (.psqCnt q k) 30 0
  psq : v.psq q = withCnt { s.psq q with ran := some s.cycle, st := .running } k c

theorem setOn_done (s : State) (q k : Nat) (on : Bool) : CntcDone s ((marked s q .running).setRb (.psqCnt q k) 31 on) q k on (s.cnt q k) := by
  refine ⟨((SeqStep.refl q _ s).setPsq _).setReg (List.mem_singleton_self _) _, rfl, (setRb_rb _ _ _ (by decide)).trans (if_pos rfl),
    setRb_rf _ _ _ (by decide) (by decide), ?_⟩
  refine (marked_psq s q .running).trans ?_
  exact (withCnt_self (p := { s.psq q with ran := some s.cycle, st := .running })).symm

theorem CntcDone.setCnt {s v : State} {q k : Nat} {on : Bool} {c : Counter} (h : CntcDone s v q k on c) (d : Counter) :
    CntcDone s (v.setCnt q k d) q k on d := by
  rw [setCnt_eq]
  refine ⟨h.step.setPsq _, h.flags, h.on, h.rest, ?_⟩
  rw [setPsq_psq_self, h.psq]
  unfold withCnt
  split <;> rfl

theorem CntcDone.pwm {s v : State} {q k : Nat} {on : Bool} {c : Counter} (h : CntcDone s v q k on c) : CntcDone s (v.pwm q k) q k on c := by
  have done := pwm_done v q k
  have step := h.step.trans (done.seqStep _)
  obtain ⟨⟨lanes, eq⟩, _, _⟩ := done
  generalize v.pwm q k = t at *
  subst eq
  exact ⟨step, h.flags, h.on, h.rest, h.psq⟩

/-- The counter row goes on, and all that is said of it holds. -/
theorem CntcDone.runs {s v : State} {q k : Nat} {on : Bool} {c : Counter} (hk : k < 2) (h : CntcDone s v q k on c) :
    let t := v.psqNext q
    PsqFrame s t q ∧ t.flags = s.flags ∧ RegsBut [.psqCnt q k] s t ∧ t.rb (.psqCnt q k) 31 = on ∧
      t.rf (.psqCnt q k) 30 0 = s.rf (.psqCnt q k) 30 0 ∧ t.cnt q (1 - k) = s.cnt q (1 - k) ∧
      t.psq q = { goneTo s q ((s.psq q).pc + 1) with c0 := (t.psq q).c0, c1 := (t.psq q).c1 } ∧ t.cnt q k = c := by
  have psq : (v.psqNext q).psq q = withCnt (goneTo s q ((s.psq q).pc + 1)) k c := by
    rw [State.psqNext, State.psqGo, setPsq_psq_self, h.psq]
    unfold withCnt
    split <;> rfl
  have whole : SeqStep q [.psqCnt q k] s (v.psqNext q) := h.step.setPsq _
  refine ⟨whole.psqFrame, h.flags, whole.regs, h.on, h.rest, ?_, ?_, ?_⟩
  · rw [cnt_eq, psq, withCnt_other hk (by omega) (by omega)]
    rfl
  · rw [psq]
    exact withCnt_rest
  · rw [cnt_eq, psq, withCnt_same]

theorem setCnt_lane (s : State) (q k l : Nat) (c : Counter) : (s.setCnt q k c).lane q l = s.lane q l := by
  rw [setCnt_eq]
  rfl

theorem CntcDone.pwmLane {s v : State} {q k l : Nat} {on : Bool} {c : Counter} (h : CntcDone s v q k on c) (hl : l < 8)
    (lane : v.lane q l = s.lane q l) : ((v.pwm q k).psqNext q).lane q l =
      Sys2Proof.pwmLane ((v.pwm q k).psqNext q) q k l (s.lane q l) := by
  have before : v.cnt q k = c := by rw [cnt_eq, h.psq, withCnt_same]
  have after : ((v.pwm q k).psqNext q).cnt q k = c := by
    rw [cnt_eq, State.psqNext, State.psqGo, setPsq_psq_self, h.pwm.psq]
    unfold withCnt cntOf
    split <;> rfl
  have done := pwm_done v q k
  have regs : ((v.pwm q k).psqNext q).regs = v.regs := by
    obtain ⟨⟨_, frame⟩, _, _⟩ := done
    rw [frame]
    rfl
  rw [pwmLane_congr regs (after.trans before.symm), ← lane]
  exact (done.lane l hl).trans (if_pos hl)

theorem cntc_act {w : Word} (op : fld w 31 27 = 0x10) (good : psqBad w = false) : fld w 1 0 = 0 ∨ fld w 1 0 = 1 ∨ fld w 1 0 = 2 := by
  have small : fld w 1 0 < 4 := fld_lt w rfl
  have notThree : fld w 1 0 ≠ 3 := by
    intro three
    simp [psqBad, op, three] at good
  omega

theorem psqCntc_runs {q : BitVec 6} {w : Word} {k l : Nat} {s : State} (h : Executes s q.toNat 0x10 w) (hk : k = fld w 26 26) :
    Leads (.psqCntc q) s fun t => PsqFrame s t q.toNat ∧ t.flags = s.flags ∧ RegsBut [.psqCnt q.toNat k] s t ∧
      t.rb (.psqCnt q.toNat k) 31 = (fld w 1 0 != 0) ∧ t.rf (.psqCnt q.toNat k) 30 0 = s.rf (.psqCnt q.toNat k) 30 0 ∧ t.cnt
    q.toNat (1 - k) = s.cnt q.toNat (1 - k) ∧
      t.psq q.toNat = { goneTo s q.toNat ((s.psq q.toNat).pc + 1) with c0 := (t.psq q.toNat).c0, c1 := (t.psq q.toNat).c1 } ∧
      t.cnt q.toNat k = (if fld w 1 0 = 0 ∨ (fld w 1 0 = 1 ∧ s.rb (.psqCnt q.toNat k) 31 = true) then s.cnt q.toNat k else if
    fld w 1 0 = 1 then { s.cnt q.toNat k with start := s.cycle } else
    { s.cnt q.toNat k with count := 0, cmpl := BitVec.ofNat 16 (s.vreg q.toNat (2 * k + 1)), start := s.cycle }) ∧
      (l < 8 → t.lane q.toNat l = if fld w 1 0 = 2 then pwmLane t q.toNat k l (s.lane q.toNat l) else s.lane q.toNat l) := by
  have below : k < 2 := hk ▸ fld_lt w rfl
  have ⟨_, _, op, good⟩ := h
  have run := row_runs (c := .psqCntc q) h rfl
  dsimp only at run
  rw [← hk, marked_cnt] at run
  refine ⟨_, run, ?_⟩
  rcases cntc_act op good with act | act | act
  · rw [act, if_pos rfl, if_pos (.inl rfl)]
    obtain ⟨frame, flags, regs, on, rest, other, psq, cnt⟩ := (setOn_done s q.toNat k false).runs below
    exact ⟨frame, flags, regs, on, rest, other, psq, cnt, fun _ => rfl⟩
  · rw [act, if_neg (show ¬ (1 : Nat) = 0 by decide), if_pos rfl]
    have started := (setOn_done s q.toNat k true).setCnt
      (if s.rb (.psqCnt q.toNat k) 31 then s.cnt q.toNat k else { s.cnt q.toNat k with start := s.cycle })
    have lane := setCnt_lane ((marked s q.toNat .running).setRb (.psqCnt q.toNat k) 31 true) q.toNat k l
      (if s.rb (.psqCnt q.toNat k) 31 then s.cnt q.toNat k else { s.cnt q.toNat k with start := s.cycle })
    obtain ⟨frame, flags, regs, on, rest, other, psq, cnt⟩ := started.runs below
    refine ⟨frame, flags, regs, on, rest, other, psq, cnt.trans (if_congr (by simp) rfl rfl), fun _ => ?_⟩
    exact lane.trans (if_neg (by decide)).symm
  · rw [act, if_neg (show ¬ (2 : Nat) = 0 by decide), if_neg (show ¬ (2 : Nat) = 1 by decide)]
    have started := (setOn_done s q.toNat k true).setCnt
      { s.cnt q.toNat k with count := 0, cmpl := BitVec.ofNat 16 (s.vreg q.toNat (2 * k + 1)), start := s.cycle }
    have lane := setCnt_lane ((marked s q.toNat .running).setRb (.psqCnt q.toNat k) 31 true) q.toNat k l
      { s.cnt q.toNat k with count := 0, cmpl := BitVec.ofNat 16 (s.vreg q.toNat (2 * k + 1)), start := s.cycle }
    have pwm := fun hl => started.pwmLane hl lane
    obtain ⟨frame, flags, regs, on, rest, other, psq, cnt⟩ := started.pwm.runs below
    exact ⟨frame, flags, regs, on, rest, other, psq, cnt.trans (by simp), fun hl => (pwm hl).trans (if_pos rfl).symm⟩

end Sys2Proof.Proofs
end

section
/-! SUPPORT. Table 87 as a whole: every row of it does what it says, and a word that it does not hold stops the sequencer. -/
namespace Sys2Proof.Proofs
open Sys2Proof.Machine Sys2Proof.Laws

/-- Settles O55: each row by the lemma about its execution, the words by their fields, a rejected word by the fault it raises. -/
theorem sequencerInstructionsFollowTable87 : Obligations.SequencerInstructionsFollowTable87 := by
  unfold Obligations.SequencerInstructionsFollowTable87
  exact ⟨psqBad_iff, fun q s => ⟨psqRows_idle, psqRows_other, psqRows_bad⟩, fun q w l s => psqSet_runs, fun q w l s => psqTgl_runs,
    fun q w l s => psqOe_runs, fun q w x l s => psqOutb_runs, fun q w x s => psqInb_runs,
    fun q w s => ⟨psqOutb_faults, psqInb_faults, psqOutb_stalls, psqInb_stalls⟩, fun q w x s => shiftStallRelease_runs,
    fun q s => shiftStallRelease_idle, fun q w s => psqDly_runs, fun q n s => psqDlyExpiry_due, fun q s => psqDlyExpiry_idle,
    fun q w s => psqWlvl_runs, fun q w s => psqWedg_runs, fun q w s => psqWcnt_runs, fun q w s => psqWtrg_runs,
    fun q w c f s => psqSig_runs, fun q w s => psqLdv_runs, fun q w v s => psqDjnz_runs, fun q w s => psqJmp_runs,
    fun q w s => psqBlv_runs, fun q w k l s => psqCntc_runs, fun q w r s => psqRarm_runs, fun q w c f s => psqEnd_runs⟩

end Sys2Proof.Proofs
end

section
/-! SUPPORT. What a counter's tick or counted edge does (R287 to R289), and what it leaves to the other counter. -/
namespace Sys2Proof.Proofs
open Sys2Proof.Machine Sys2Proof.Laws

/-! ### One counter acts -/

/-- Only counter `k` acts: its record, its wrap in PSQ_STAT or QERR, its WFLAG, and changes of lanes. -/
structure CounterStep (q k : Nat) (s t : State) : Prop where
  step : SeqStep q [.psqStat q] s t
  psq : t.psq q = withCnt (s.psq q) k (t.cnt q k)
  stat : ∀ i, i < 32 → i ≠ 26 + k → i ≠ 29 → t.rb (.psqStat q) i = s.rb (.psqStat q) i
  qerr : s.rb (.psqStat q) 29 = true → t.rb (.psqStat q) 29 = true
  flags : ∀ c f, f < 256 → c ≠ psqCl q ∨ s.rb (.psqCnt q k) 19 = false ∨ f ≠ s.rf (.psqCnt q k) 15 8 → t.flagSet c f = s.flagSet c f
  kept : ∀ c f, s.flagSet c f = true → t.flagSet c f = true
  lane : ∀ l, l < 8 → t.lane q l = { s.lane q l with chg := (t.lane q l).chg }

theorem withCnt_withCnt (p : Psq) (k : Nat) (c d : Counter) : withCnt (withCnt p k c) k d = withCnt p k d := by
  unfold withCnt
  split <;> rfl

theorem cnt_beside_stat (q k : Nat) : ∀ x ∈ [Reg.psqStat q], (Reg.psqCnt q k).off ≠ x.off := by
  simp only [List.mem_singleton, forall_eq, Reg.off]
  omega

theorem setCnt_cnt (s : State) (q k : Nat) (c : Counter) : (s.setCnt q k c).cnt q k = c := by
  rw [setCnt_eq, cnt_eq, setPsq_psq_self, withCnt_same]

section
variable {q k : Nat} {s t : State}

theorem CounterStep.refl (q k : Nat) (s : State) : CounterStep q k s s :=
  ⟨.refl q _ s, withCnt_self.symm, fun _ _ _ _ => rfl, id, fun _ _ _ _ => rfl, fun _ _ => id, fun _ _ => rfl⟩

theorem CounterStep.setCnt (h : CounterStep q k s t) (c : Counter) : CounterStep q k s (t.setCnt q k c) := by
  have cnt := setCnt_cnt t q k c
  rw [setCnt_eq] at *
  refine ⟨h.step.setPsq _, ?_, h.stat, h.qerr, h.flags, h.kept, h.lane⟩
  rw [cnt, setPsq_psq_self, h.psq, withCnt_withCnt]

theorem CounterStep.note (h : CounterStep q k s t) {i : Nat} (hi : i = 26 + k ∨ i = 29) :
    CounterStep q k s (t.setRb (.psqStat q) i true) := by
  refine ⟨h.step.setReg (List.mem_singleton_self _) _, h.psq, fun j hj own err => ?_, fun was => ?_, h.flags, h.kept, h.lane⟩
  · rw [setRb_rb t _ _ hj, if_neg (by omega), h.stat j hj own err]
  · rw [setRb_rb t _ _ (by decide), h.qerr was, ite_self]

theorem CounterStep.wflag (h : CounterStep q k s t) (on : s.rb (.psqCnt q k) 19 = true) :
    CounterStep q k s (t.setFlag (psqCl q) (s.rf (.psqCnt q k) 15 8)) := by
  have step : SeqStep q [.psqStat q] s (t.setFlag (psqCl q) (s.rf (.psqCnt q k) 15 8)) := h.step.setFlagAt _ _ _
  have sets (c f : Nat) := setFlagAt_flagSet t (psqCl q) (s.rf (.psqCnt q k) 15 8) (t.cycle + 1) c f
  have frame := setFlag_frame t (psqCl q) (s.rf (.psqCnt q k) 15 8)
  rw [← State.setFlag] at sets
  generalize t.setFlag (psqCl q) (s.rf (.psqCnt q k) 15 8) = u at *
  obtain ⟨fl, rfl⟩ : ∃ fl, u = { t with flags := fl } := ⟨_, frame⟩
  refine ⟨step, h.psq, h.stat, h.qerr, fun c f small apart => ?_, fun c f was => ?_, h.lane⟩
  · rw [sets, h.flags c f small apart, decide_eq_false, Bool.or_false]
    have mine : s.rf (.psqCnt q k) 15 8 < 256 := fld_lt _ rfl
    rcases apart with other | off | another
    · omega
    · exact absurd (on.symm.trans off) (by decide)
    · omega
  · rw [sets, h.kept c f was, Bool.true_or]

theorem pwmLane_rest (s : State) (q k l : Nat) (x : Lane) : pwmLane s q k l x = { x with chg := (pwmLane s q k l x).chg } := by
  unfold pwmLane
  dsimp only
  repeat' split
  all_goals rfl

theorem CounterStep.pwm (h : CounterStep q k s t) : CounterStep q k s (t.pwm q k) := by
  have done := pwm_done t q k
  have step := h.step.trans (done.seqStep _)
  have lane (l : Nat) (hl : l < 8) : (t.pwm q k).lane q l = { s.lane q l with chg := ((t.pwm q k).lane q l).chg } := by
    rw [done.lane l hl, if_pos hl, pwmLane_rest]
    exact congrArg (fun x : Lane => { x with chg := (Sys2Proof.pwmLane t q k l (t.lane q l)).chg }) (h.lane l hl)
  obtain ⟨⟨lanes, eq⟩, _, _⟩ := done
  generalize t.pwm q k = u at *
  subst eq
  exact ⟨step, h.psq, h.stat, h.qerr, h.flags, h.kept, lane⟩

end

/-! ### A tick or a counted edge (R287) -/

/-- Counter `k` at its wrap: 0, with the next compare value. -/
def wrappedCnt (s : State) (q k : Nat) : Counter :=
  { s.cnt q k with
    ticked := some s.cycle, base := (s.cnt q k).count, count := 0, cmpl := BitVec.ofNat 16 (s.vreg q (2 * k + 1)), wrap := some s.cycle }

/-- Counter `k` counts one, before its PWM lanes take their level. -/
def counted (s : State) (q k : Nat) : State :=
  let c := s.cnt q k
  let n := c.count.toNat + 1
  let p := s.period q k
  if n < p then s.setCnt q k { c with ticked := some s.cycle, base := c.count, count := BitVec.ofNat 16 n }
  else
    let u := s.setCnt q k (wrappedCnt s q k)
    let u := if n > p then u.setRb (.psqStat q) (26 + k) true else u
    if u.rb (.psqCnt q k) 19 then u.setFlag (psqCl q) (u.rf (.psqCnt q k) 15 8) else u

theorem countUp_eq (s : State) (q k : Nat) : s.countUp q k = (counted s q k).pwm q k := (apply_ite (State.pwm · q k) _ _ _).symm

section
variable {q k : Nat} {s u : State}

/-- SHORT notes that COUNT stood above the period. -/
theorem CounterStep.short (h : CounterStep q k s u) (p n : Nat) (hk : k < 2) :
    let t := if n > p then u.setRb (.psqStat q) (26 + k) true else u
    CounterStep q k s t ∧ t.psqs = u.psqs ∧ t.lanes = u.lanes ∧
      t.rb (.psqStat q) (26 + k) = (u.rb (.psqStat q) (26 + k) || decide (p < n)) := by
  by_cases above : n > p
  · rw [if_pos above, decide_eq_true above, Bool.or_true]
    exact ⟨h.note (.inl rfl), rfl, rfl, (setRb_rb u _ _ (by omega)).trans (if_pos rfl)⟩
  · rw [if_neg above, decide_eq_false above, Bool.or_false]
    exact ⟨h, rfl, rfl, rfl⟩

/-- The wrap raises the counter's WFLAG where it has one. -/
theorem CounterStep.wraps (h : CounterStep q k s u) :
    let t := if u.rb (.psqCnt q k) 19 then u.setFlag (psqCl q) (u.rf (.psqCnt q k) 15 8) else u
    CounterStep q k s t ∧ t.psqs = u.psqs ∧ t.lanes = u.lanes ∧ t.regs = u.regs ∧
      (s.rb (.psqCnt q k) 19 = true → t.flagSet (psqCl q) (s.rf (.psqCnt q k) 15 8) = true) := by
  have reg := h.step.reg (cnt_beside_stat q k)
  rw [State.rb, State.rf, reg]
  by_cases on : bit (s.reg (.psqCnt q k)) 19 = true
  · rw [if_pos on]
    have frame := setFlag_frame u (psqCl q) (fld (s.reg (.psqCnt q k)) 15 8)
    refine ⟨h.wflag on, by rw [frame], by rw [frame], by rw [frame], fun _ => ?_⟩
    exact (setFlagAt_flagSet u _ _ _ _ _).trans (Bool.or_eq_true_iff.mpr (.inr (decide_eq_true rfl)))
  · rw [if_neg on]
    exact ⟨h, rfl, rfl, rfl, fun has => absurd has on⟩

theorem cnt_congr {t u : State} (psqs : t.psqs = u.psqs) (q k : Nat) : t.cnt q k = u.cnt q k := by
  unfold State.cnt State.psq
  rw [psqs]

theorem lane_congr {t u : State} (lanes : t.lanes = u.lanes) (q l : Nat) : t.lane q l = u.lane q l := by
  unfold State.lane
  rw [lanes]

theorem rb_congr {t u : State} (regs : t.regs = u.regs) (r : Reg) (i : Nat) : t.rb r i = u.rb r i := by
  unfold State.rb State.reg
  rw [regs]

theorem setCnt_regs (s : State) (q k : Nat) (c : Counter) : (s.setCnt q k c).regs = s.regs := by
  rw [setCnt_eq]
  rfl

theorem setCnt_lanes (s : State) (q k : Nat) (c : Counter) : (s.setCnt q k c).lanes = s.lanes := by
  rw [setCnt_eq]
  rfl

theorem period_eq (s : State) (q k : Nat) : s.period q k = if s.rf (.psqV q (2 * k)) 15 0 = 0 then 65536 else s.rf (.psqV q (2 * k)) 15 0 := rfl

/-- What a tick or a counted edge leaves before the PWM lanes take their level. -/
theorem counted_done (s : State) (q : Nat) {k : Nat} (hk : k < 2) :
    CounterStep q k s (counted s q k) ∧ (counted s q k).lanes = s.lanes ∧ CountsUp s (counted s q k) q k := by
  unfold CountsUp
  dsimp only
  rw [← period_eq]
  by_cases below : (s.cnt q k).count.toNat + 1 < s.period q k
  · have is : counted s q k = s.setCnt q k { s.cnt q k with
        ticked := some s.cycle, base := (s.cnt q k).count, count := BitVec.ofNat 16 ((s.cnt q k).count.toNat + 1) } := if_pos below
    rw [is]
    exact ⟨(CounterStep.refl q k s).setCnt _, setCnt_lanes s q k _, fun _ => ⟨setCnt_cnt s q k _, rb_congr (setCnt_regs s q k _) _ _⟩,
      fun above => absurd below (by omega)⟩
  · unfold counted
    dsimp only
    rw [if_neg below]
    have set := (CounterStep.refl q k s).setCnt (wrappedCnt s q k)
    have cnt := setCnt_cnt s q k (wrappedCnt s q k)
    have stat := rb_congr (setCnt_regs s q k (wrappedCnt s q k)) (.psqStat q) (26 + k)
    have lanes := setCnt_lanes s q k (wrappedCnt s q k)
    generalize s.setCnt q k (wrappedCnt s q k) = u at *
    obtain ⟨noted, psqs1, lanes1, short⟩ := set.short (s.period q k) ((s.cnt q k).count.toNat + 1) hk
    generalize (if (s.cnt q k).count.toNat + 1 > s.period q k then u.setRb (.psqStat q) (26 + k) true else u) = v at *
    obtain ⟨done, psqs2, lanes2, regs2, raised⟩ := noted.wraps
    refine ⟨done, lanes2.trans (lanes1.trans lanes), fun less => absurd less below, fun _ => ⟨?_, ?_, raised⟩⟩
    · rw [cnt_congr psqs2, cnt_congr psqs1, cnt]
      rfl
    · rw [rb_congr regs2, short, stat]

end

theorem countUp_done (s : State) (q : Nat) {k : Nat} (hk : k < 2) : CounterStep q k s (s.countUp q k) ∧ CountsUp s (s.countUp q k) q k ∧
    ∀ l, l < 8 → (s.countUp q k).lane q l = pwmLane (s.countUp q k) q k l (s.lane q l) := by
  obtain ⟨step, lanes, counts⟩ := counted_done s q hk
  have done := pwm_done (counted s q k) q k
  have pwm := step.pwm
  rw [countUp_eq]
  generalize counted s q k = u at *
  obtain ⟨⟨ls, eq⟩, _, lane⟩ := done
  generalize u.pwm q k = t at *
  refine ⟨pwm, by rw [eq]; exact counts, fun l hl => ?_⟩
  rw [lane l hl, if_pos hl, lane_congr lanes]
  exact (pwmLane_congr (s := u) (t := t) (by rw [eq]) (by rw [eq]; rfl) l _).symm

/-! ### QUAD (R289) -/

theorem quad_twice {s : State} {q k : Nat} (onA : Bool) (twice : (s.cnt q k).ticked = some s.cycle) :
    s.quad q k onA = (s.setCnt q k { s.cnt q k with count := (s.cnt q k).base }).setRb (.psqStat q) 29 true := if_pos twice

/-- A counted edge of QUAD by the levels `a` and `b` of its two lanes. -/
def quadCnt (s : State) (q k : Nat) (onA a b : Bool) : Counter :=
  { s.cnt q k with
    ticked := some s.cycle, base := (s.cnt q k).count,
    count := if (a == b) = onA then (s.cnt q k).count - 1 else (s.cnt q k).count + 1 }

/-- The sense of QUAD: an edge counts up but where A and B agree on an edge of A, or differ on one of B. -/
theorem quad_up : ∀ onA a b : Bool, (if onA then a != b else a == b) = true ↔ ¬ (a == b) = onA := by decide

theorem quad_once {s : State} {q k : Nat} (onA : Bool) (once : (s.cnt q k).ticked ≠ some s.cycle) :
    s.quad q k onA = (s.setCnt q k (quadCnt s q k onA (s.lane q (s.rf (.psqCnt q k) 22 20)).fl
      (s.lane q (s.rf (.psqCnt q k) 18 16)).fl)).pwm q k := by
  rw [State.quad, if_neg once]
  refine congrArg (fun n => (s.setCnt q k { s.cnt q k with ticked := some s.cycle, base := (s.cnt q k).count, count := n }).pwm q k) ?_
  exact (if_congr (quad_up onA _ _) rfl rfl).trans (ite_not _ _ _)

theorem quad_done (s : State) (q k : Nat) (onA : Bool) : CounterStep q k s (s.quad q k onA) ∧
    CountsQuad s (s.quad q k onA) q k onA (s.lane q (s.rf (.psqCnt q k) 22 20)).fl (s.lane q (s.rf (.psqCnt q k) 18 16)).fl := by
  by_cases twice : (s.cnt q k).ticked = some s.cycle
  · rw [quad_twice onA twice]
    refine ⟨((CounterStep.refl q k s).setCnt _).note (.inr rfl), fun _ => ⟨?_, ?_⟩, fun once => absurd twice once⟩
    · exact setCnt_cnt s q k { s.cnt q k with count := (s.cnt q k).base }
    · exact (setRb_rb _ _ _ (by decide)).trans (if_pos rfl)
  · rw [quad_once onA twice]
    refine ⟨((CounterStep.refl q k s).setCnt _).pwm, fun again => absurd again twice, fun _ => ?_⟩
    obtain ⟨⟨ls, eq⟩, _, _⟩ := pwm_done (s.setCnt q k (quadCnt s q k onA (s.lane q (s.rf (.psqCnt q k) 22 20)).fl
      (s.lane q (s.rf (.psqCnt q k) 18 16)).fl)) q k
    rw [eq]
    exact setCnt_cnt s q k _

/-! ### COUNTER_TICK -/

section
variable {q : BitVec 6} {k : BitVec 1} {j : Nat} {x : Counter} {w : Word} {s : State} (hx : x = s.cnt q.toNat k.toNat)
  (hw : w = s.reg (.psqCnt q.toNat k.toNat))
include hx hw

theorem counterTick_runs (on : s.active = true) (en : bit w 31 = true) (timer : fld w 30 29 = 0) (after : x.start < s.cycle)
    (due : (s.cycle - x.start) % 2 ^ fld w 28 26 = 0) (once : x.ticked ≠ some s.cycle) (hj : j < 8) :
    Leads (.counterTick q k) s fun t => PsqFrame s t q.toNat ∧ CountsUp s t q.toNat k.toNat ∧ RegsBut [.psqStat q.toNat] s t ∧
      t.cnt q.toNat (1 - k.toNat) = s.cnt q.toNat (1 - k.toNat) ∧
      t.psq q.toNat = { s.psq q.toNat with c0 := (t.psq q.toNat).c0, c1 := (t.psq q.toNat).c1 } ∧
      t.lane q.toNat j = pwmLane t q.toNat k.toNat j (s.lane q.toNat j) := by
  subst hx hw
  have small : k.toNat < 2 := k.isLt
  obtain ⟨step, counts, lane⟩ := countUp_done s q.toNat small
  refine ⟨_, if_pos ⟨on, en, timer, after, due, once⟩, step.step.psqFrame, counts, step.step.regs, ?_, ?_, lane j hj⟩
  · rw [cnt_eq, step.psq, withCnt_other small (by omega) (by omega)]
    rfl
  · rw [step.psq]
    exact withCnt_rest

theorem counterTick_idle (h : s.active = false ∨ bit w 31 = false ∨ fld w 30 29 ≠ 0 ∨ s.cycle ≤ x.start ∨
    (s.cycle - x.start) % 2 ^ fld w 28 26 ≠ 0 ∨ x.ticked = some s.cycle) : Idle (.counterTick q k) s := by
  subst hx hw
  refine if_neg fun ⟨on, en, timer, after, due, once⟩ => ?_
  rcases h with off | off | other | early | between | twice
  · exact absurd (on.symm.trans off) (by decide)
  · exact absurd (en.symm.trans off) (by decide)
  · exact other timer
  · omega
  · exact between due
  · exact once twice

end

end Sys2Proof.Proofs
end

section
/-! SUPPORT. A recognised edge (R269, R289, R291): what the two counters make of it, and what the lane and CFLAG keep. -/
namespace Sys2Proof.Proofs
open Sys2Proof.Machine Sys2Proof.Laws

/-! ### What the other counter leaves -/

/-- What counter `k` has counted stays: its record, its wrap, QERR, the flags set, and all registers but PSQ_STAT. -/
structure Beside (q k : Nat) (s t : State) : Prop where
  regs : RegsBut [.psqStat q] s t
  cycle : t.cycle = s.cycle
  active : t.active = s.active
  cnt : t.cnt q k = s.cnt q k
  short : t.rb (.psqStat q) (26 + k) = s.rb (.psqStat q) (26 + k)
  qerr : s.rb (.psqStat q) 29 = true → t.rb (.psqStat q) 29 = true
  flags : ∀ c f, s.flagSet c f = true → t.flagSet c f = true

theorem Beside.refl (q k : Nat) (s : State) : Beside q k s s := ⟨fun _ _ => rfl, rfl, rfl, rfl, rfl, id, fun _ _ => id⟩

theorem CounterStep.beside {q j k : Nat} {s t : State} (h : CounterStep q j s t) (hj : j < 2) (hk : k < 2) (other : k ≠ j) :
    Beside q k s t := by
  refine ⟨h.step.regs, h.step.cycle, h.step.active, ?_, h.stat (26 + k) (by omega) (by omega) (by omega), h.qerr, h.kept⟩
  rw [cnt_eq, h.psq, withCnt_other hj hk other]
  rfl

section
variable {q k : Nat} {s u v t : State} (before : Beside q k s u) (after : Beside q k v t)

section
include before

theorem Beside.reg {r : Reg} (apart : r.off ≠ (Reg.psqStat q).off) : u.reg r = s.reg r := before.regs r (by simpa using apart)

theorem Beside.counter : u.reg (.psqCnt q k) = s.reg (.psqCnt q k) := before.reg (by simp only [Reg.off]; omega)

theorem Beside.value (n : Nat) : u.reg (.psqV q n) = s.reg (.psqV q n) := before.reg (by simp only [Reg.off]; omega)

end

include before after

theorem CountsUp.through (h : CountsUp u v q k) : CountsUp s t q k := by
  unfold CountsUp at *
  simp only [State.rf, State.rb, before.counter, before.value, before.cnt, before.cycle] at h ⊢
  obtain ⟨below, wraps⟩ := h
  refine ⟨fun less => ?_, fun least => ?_⟩
  · obtain ⟨cnt, short⟩ := below less
    exact ⟨after.cnt.trans cnt, after.short.trans (short.trans before.short)⟩
  · obtain ⟨cnt, short, raised⟩ := wraps least
    refine ⟨after.cnt.trans cnt, after.short.trans (short.trans ?_), fun on => after.flags _ _ (raised on)⟩
    exact congrArg (· || _) before.short

theorem CountsQuad.through {onA a b : Bool} (h : CountsQuad u v q k onA a b) : CountsQuad s t q k onA a b := by
  unfold CountsQuad at *
  rw [before.cnt, before.cycle] at h
  obtain ⟨twice, once⟩ := h
  exact ⟨fun again => ⟨after.cnt.trans (twice again).1, after.qerr (twice again).2⟩, fun first => after.cnt.trans (once first)⟩

end

/-! ### One counter sees the edge -/

/-- Counter `k` sees a recognised edge of lane `l` to level `lvl`. -/
def edgeStep (q l : Nat) (lvl : Bool) (s : State) (k : Nat) : State :=
  if ¬ s.rb (.psqCnt q k) 31 ∨ ¬ s.active then s
  else if s.rf (.psqCnt q k) 30 29 = 2 then
    if s.rf (.psqCnt q k) 22 20 = l ∧ edgeSel (s.rf (.psqLcfg q l) 30 29) lvl then s.countUp q k else s
  else if s.rf (.psqCnt q k) 30 29 = 1 then
    if s.rf (.psqCnt q k) 22 20 = l then s.quad q k true else if s.rf (.psqCnt q k) 18 16 = l then s.quad q k false else s
  else s

theorem countEdge_eq (s : State) (q l : Nat) (lvl : Bool) :
    s.countEdge q l lvl = edgeStep q l lvl (edgeStep q l lvl s 0) 1 := rfl

section
variable {q l k : Nat} {lvl : Bool} {s : State}

theorem edgeStep_off (h : s.active = false ∨ s.rb (.psqCnt q k) 31 = false ∨ s.rf (.psqCnt q k) 30 29 = 0 ∨ s.rf (.psqCnt q k) 30 29 = 3) :
    edgeStep q l lvl s k = s := by
  unfold edgeStep
  rcases h with off | off | timer | none
  · rw [if_pos (.inr (ne_true_of_eq_false off))]
  · rw [if_pos (.inl (ne_true_of_eq_false off))]
  · rw [timer, if_neg (show ¬ (0 : Nat) = 2 by decide), if_neg (show ¬ (0 : Nat) = 1 by decide), ite_self]
  · rw [none, if_neg (show ¬ (3 : Nat) = 2 by decide), if_neg (show ¬ (3 : Nat) = 1 by decide), ite_self]

theorem edgeStep_edge (on : s.active = true) (en : s.rb (.psqCnt q k) 31 = true) (mode : s.rf (.psqCnt q k) 30 29 = 2) :
    edgeStep q l lvl s k =
      if s.rf (.psqCnt q k) 22 20 = l ∧ bit (s.reg (.psqLcfg q l)) (if lvl then 29 else 30) = true then s.countUp q k else s := by
  unfold edgeStep
  rw [if_neg (by simp [on, en]), if_pos mode]
  exact if_congr (and_congr_right' (by rw [State.rf, edgeSel_fld _ 29])) rfl rfl

theorem edgeStep_quad (on : s.active = true) (en : s.rb (.psqCnt q k) 31 = true) (mode : s.rf (.psqCnt q k) 30 29 = 1) :
    edgeStep q l lvl s k = if s.rf (.psqCnt q k) 22 20 = l then s.quad q k true
      else if s.rf (.psqCnt q k) 18 16 = l then s.quad q k false else s := by
  unfold edgeStep
  rw [if_neg (by simp [on, en]), if_neg (by omega), if_pos mode]

theorem edgeStep_counter (hk : k < 2) : CounterStep q k s (edgeStep q l lvl s k) := by
  unfold edgeStep
  have count := (countUp_done s q hk).1
  have quad (onA : Bool) := (quad_done s q k onA).1
  repeat' split
  any_goals exact .refl q k s
  · exact count
  · exact quad true
  · exact quad false

theorem quad_flags (s : State) (q k : Nat) (onA : Bool) : (s.quad q k onA).flags = s.flags := by
  by_cases twice : (s.cnt q k).ticked = some s.cycle
  · rw [quad_twice onA twice, setCnt_eq]
    rfl
  · rw [quad_once onA twice]
    obtain ⟨⟨ls, eq⟩, _, _⟩ := pwm_done (s.setCnt q k (quadCnt s q k onA (s.lane q (s.rf (.psqCnt q k) 22 20)).fl
      (s.lane q (s.rf (.psqCnt q k) 18 16)).fl)) q k
    rw [eq, setCnt_eq]
    rfl

/-- No flag changes but the counter's own WFLAG, where it counts edges. -/
theorem edgeStep_flags (hk : k < 2) {c f : Nat} (hf : f < 256) (h : c ≠ psqCl q ∨ s.rb (.psqCnt q k) 31 = false ∨
    s.rf (.psqCnt q k) 30 29 ≠ 2 ∨ s.rb (.psqCnt q k) 19 = false ∨ f ≠ s.rf (.psqCnt q k) 15 8) :
    (edgeStep q l lvl s k).flagSet c f = s.flagSet c f := by
  by_cases same : (edgeStep q l lvl s k).flags = s.flags
  · unfold State.flagSet State.flag
    rw [same]
  · refine (edgeStep_counter hk).flags c f hf ?_
    have counts : s.rb (.psqCnt q k) 31 = true ∧ s.rf (.psqCnt q k) 30 29 = 2 := by
      by_contra no
      refine same ?_
      unfold edgeStep
      repeat' split
      any_goals rfl
      · rename_i en mode _
        exact absurd ⟨by simpa using (not_or.mp en).1, mode⟩ no
      · exact quad_flags s q k true
      · exact quad_flags s q k false
    rcases h with other | off | mode | rest
    · exact .inl other
    · exact absurd (counts.1.symm.trans off) (by decide)
    · exact absurd counts.2 mode
    · exact .inr rest

end

end Sys2Proof.Proofs
end

section
/-! SUPPORT. EDGE_RECOGNISED (R269): both counters see the edge, the lane notes it, and CFLAG tells of its capture. -/
namespace Sys2Proof.Proofs
open Sys2Proof.Machine Sys2Proof.Laws

theorem rf_lt (s : State) (r : Reg) {hi lo n : Nat} (hn : 2 ^ (hi + 1 - lo) = n) : s.rf r hi lo < n := fld_lt _ hn

theorem rf_congr {t u : State} (regs : t.regs = u.regs) (r : Reg) (hi lo : Nat) : t.rf r hi lo = u.rf r hi lo := by
  unfold State.rf State.reg
  rw [regs]

/-! ### Both counters see the edge -/

section
variable (s : State) (q l : Nat) (lvl : Bool)

/-- Counter `k` sees the edge in a state that differs from the first only beside it, and what it makes of it stays. -/
theorem countEdge_beside {k : Nat} (hk : k < 2) : ∃ u, Beside q k s u ∧ Beside q k (edgeStep q l lvl u k) (s.countEdge q l lvl) ∧
    (∀ i, i < 8 → (u.lane q i).fl = (s.lane q i).fl) := by
  have first : CounterStep q 0 s (edgeStep q l lvl s 0) := edgeStep_counter (by decide)
  have second : CounterStep q 1 (edgeStep q l lvl s 0) (s.countEdge q l lvl) := edgeStep_counter (by decide)
  obtain rfl | rfl : k = 0 ∨ k = 1 := by omega
  · exact ⟨s, .refl q 0 s, second.beside (by decide) (by decide) (by decide), fun _ _ => rfl⟩
  · refine ⟨_, first.beside (by decide) (by decide) (by decide), .refl q 1 _, fun i hi => ?_⟩
    rw [first.lane i hi]
    rfl

/-- What the counters leave of a recognised edge: nothing but their records, PSQ_STAT, WFLAGs and changes of lanes. -/
structure EdgeCounted (s t : State) (q : Nat) : Prop where
  step : SeqStep q [.psqStat q] s t
  psq : t.psq q = { s.psq q with c0 := (t.psq q).c0, c1 := (t.psq q).c1 }
  lane : ∀ l, l < 8 → t.lane q l = { s.lane q l with chg := (t.lane q l).chg }
  kept : ∀ c f, s.flagSet c f = true → t.flagSet c f = true
  flags : ∀ c f, f < 256 → c ≠ psqCl q ∨ (∀ k, k < 2 → s.rb (.psqCnt q k) 31 = false ∨ s.rf (.psqCnt q k) 30 29 ≠ 2 ∨
    s.rb (.psqCnt q k) 19 = false ∨ f ≠ s.rf (.psqCnt q k) 15 8) → t.flagSet c f = s.flagSet c f

theorem countEdge_counted : EdgeCounted s (s.countEdge q l lvl) q := by
  have first : CounterStep q 0 s (edgeStep q l lvl s 0) := edgeStep_counter (by decide)
  have second : CounterStep q 1 (edgeStep q l lvl s 0) (s.countEdge q l lvl) := edgeStep_counter (by decide)
  have flags0 (c f : Nat) (hf : f < 256) := edgeStep_flags (q := q) (l := l) (lvl := lvl) (s := s) (show 0 < 2 by decide) (c := c) hf
  have flags1 (c f : Nat) (hf : f < 256) := edgeStep_flags (q := q) (l := l) (lvl := lvl) (s := edgeStep q l lvl s 0)
    (show 1 < 2 by decide) (c := c) hf
  rw [← countEdge_eq] at flags1
  simp only [State.rb, State.rf, first.step.reg (cnt_beside_stat q 1)] at flags1
  generalize edgeStep q l lvl s 0 = u at *
  refine ⟨first.step.trans second.step, ?_, fun i hi => ?_, fun c f set => second.kept c f (first.kept c f set), fun c f hf h => ?_⟩
  · rw [second.psq, first.psq]
    rfl
  · rw [second.lane i hi, first.lane i hi]
  · refine (flags1 c f hf ?_).trans (flags0 c f hf ?_)
    · exact h.imp_right fun all => all 1 (by decide)
    · exact h.imp_right fun all => all 0 (by decide)

end

/-! ### The lane and CFLAG -/

/-- The edge is captured: its polarity is selected, and the modes run the lane's captures. -/
def captures (s : State) (q l : Nat) (e : EdgeP) : Bool :=
  bit (s.reg (.psqLcfg q l)) (if e.lvl then 29 else 30) && (s.active || s.mode == .hold)

/-- A lane with one more recognised edge. -/
def recognised (s : State) (q l : Nat) (e : EdgeP) : Lane :=
  { s.lane q l with
    edge := none, seen := (s.lane q l).seen ++ [{ e with cyc := s.cycle }],
    arr := (s.lane q l).arr ++ if captures s q l e then [(s.cycle + 1, lo32 e.time, e.lvl)] else [] }

/-- The state in which the counters see the edge. -/
def noted (s : State) (q l : Nat) (e : EdgeP) : State :=
  let u := s.setLane q l (recognised s q l e)
  if captures s q l e ∧ s.rb (.psqCtl q) 30 then u.setFlagAt (psqCl q) (s.rf (.psqCtl q) 23 16) (s.cycle + 1) else u

section
variable {q : BitVec 6} {l : BitVec 3} {e : EdgeP} {s : State}

theorem recognised_fl (s : State) (q l : Nat) (e : EdgeP) : (recognised s q l e).fl = e.lvl := by
  simp [Lane.fl, recognised]

theorem edgeRecognised_eq (is : (s.lane q.toNat l.toNat).edge = some e) (on : Answers s)
    (due : e.cyc + s.rf (.psqLcfg q.toNat l.toNat) 23 20 ≤ s.cycle) (new : e.lvl ≠ (s.lane q.toNat l.toNat).fl) :
    exec (.edgeRecognised q l) s = .next ((noted s q.toNat l.toNat e).countEdge q.toNat l.toNat e.lvl) := by
  have cap : (edgeSel (s.rf (.psqLcfg q.toNat l.toNat) 30 29) e.lvl && (s.active || s.mode == .hold)) = captures s q.toNat l.toNat e := by
    rw [State.rf, edgeSel_fld _ 29]
    rfl
  have arrives (b : Bool) : (if b then (s.lane q.toNat l.toNat).arr ++ [(s.cycle + 1, lo32 e.time, e.lvl)] else (s.lane q.toNat l.toNat).arr) =
      (s.lane q.toNat l.toNat).arr ++ if b then [(s.cycle + 1, lo32 e.time, e.lvl)] else [] := by
    cases b
    · exact (List.append_nil _).symm
    · rfl
  change execEdgeRecognised q l s = _
  unfold execEdgeRecognised
  simp only [is]
  rw [if_neg (by rintro (early | off | retained); exacts [absurd early (by omega), on.1 off, on.2 retained]), if_neg new, cap, arrives]
  rfl

theorem edgeRecognised_idle (h : (s.lane q.toNat l.toNat).edge = none ∨ ¬ Answers s) : Idle (.edgeRecognised q l) s := by
  change execEdgeRecognised q l s = _
  unfold execEdgeRecognised
  cases is : (s.lane q.toNat l.toNat).edge with
  | none => simp only [is]
  | some e =>
    simp only [is]
    refine if_pos ?_
    rcases h with none | off
    · exact absurd (is.symm.trans none) (by simp)
    · by_cases isOff : s.mode = .off
      · exact .inr (.inl isOff)
      · exact .inr (.inr (not_not.mp fun not => off ⟨isOff, not⟩))

theorem edgeRecognised_waits (is : (s.lane q.toNat l.toNat).edge = some e) (on : Answers s) :
    (s.cycle < e.cyc + s.rf (.psqLcfg q.toNat l.toNat) 23 20 → Idle (.edgeRecognised q l) s) ∧
      (e.cyc + s.rf (.psqLcfg q.toNat l.toNat) 23 20 ≤ s.cycle → e.lvl = (s.lane q.toNat l.toNat).fl →
        exec (.edgeRecognised q l) s = .next (s.setLane q.toNat l.toNat { s.lane q.toNat l.toNat with edge := none })) := by
  change (_ → execEdgeRecognised q l s = _) ∧ (_ → _ → execEdgeRecognised q l s = _)
  unfold execEdgeRecognised
  simp only [is]
  refine ⟨fun early => if_pos (.inl early), fun due old => ?_⟩
  rw [if_neg (by rintro (early | off | retained); exacts [absurd early (by omega), on.1 off, on.2 retained]), if_pos old]

/-- What the state in which the counters see the edge keeps of the one before. -/
structure Noted (s u : State) (q l : Nat) (e : EdgeP) : Prop where
  step : SeqStep q [] s u
  psqs : u.psqs = s.psqs
  regs : u.regs = s.regs
  lane : u.lane q l = recognised s q l e
  kept : ∀ c f, s.flagSet c f = true → u.flagSet c f = true
  flags : ∀ c f, f < 256 → u.flagSet c f =
    (s.flagSet c f || (captures s q l e && s.rb (.psqCtl q) 30 && c == psqCl q && f == s.rf (.psqCtl q) 23 16))

theorem noted_of (s : State) (q : Nat) {l : Nat} (hl : l < 8) (e : EdgeP) : Noted s (noted s q l e) q l e := by
  have lane : (s.setLane q l (recognised s q l e)).lane q l = recognised s q l e := (setLane_lane_at s q l l _).trans (if_pos rfl)
  have step : SeqStep q [] s (s.setLane q l (recognised s q l e)) := (SeqStep.refl q _ s).setLane hl _
  unfold noted
  by_cases tells : captures s q l e = true ∧ s.rb (.psqCtl q) 30 = true
  · rw [if_pos tells]
    have frame := setFlagAt_frame (s.setLane q l (recognised s q l e)) (psqCl q) (s.rf (.psqCtl q) 23 16) (s.cycle + 1)
    refine ⟨step.setFlagAt _ _ _, by rw [frame]; rfl, by rw [frame]; rfl, by rw [frame]; exact lane, fun c f was => ?_, fun c f hf => ?_⟩
    · exact (setFlagAt_flagSet _ _ _ _ _ _).trans (Bool.or_eq_true_iff.mpr (.inl was))
    · exact (setFlagAt_sets _ _ hf (fld_lt _ rfl)).trans (by rw [tells.1, tells.2, Bool.and_self, Bool.true_and]; rfl)
  · rw [if_neg tells]
    refine ⟨step, rfl, rfl, lane, fun _ _ => id, fun c f _ => ?_⟩
    have silent : (captures s q l e && s.rb (.psqCtl q) 30) = false := by
      rw [← Bool.not_eq_true, Bool.and_eq_true]
      exact tells
    rw [silent, Bool.false_and, Bool.false_and, Bool.or_false]
    rfl

theorem edgeRecognised_notes {c f : Nat} {b : Bool} (is : (s.lane q.toNat l.toNat).edge = some e) (on : Answers s)
    (due : e.cyc + s.rf (.psqLcfg q.toNat l.toNat) 23 20 ≤ s.cycle) (new : e.lvl ≠ (s.lane q.toNat l.toNat).fl)
    (hb : b = captures s q.toNat l.toNat e) : Leads (.edgeRecognised q l) s fun t => PsqFrame s t q.toNat ∧
      (t.lane q.toNat l.toNat) =
    { s.lane q.toNat l.toNat with edge := none, chg := (t.lane q.toNat l.toNat).chg, seen := (s.lane q.toNat l.toNat).seen ++ [{ e with cyc := s.cycle }], arr := (s.lane q.toNat l.toNat).arr ++ (if b then [(s.cycle + 1, lo32 e.time, e.lvl)] else []) }
    ∧
      (t.lane q.toNat l.toNat).fl = e.lvl ∧ RegsBut [.psqStat q.toNat] s t ∧ t.psq q.toNat =
    { s.psq q.toNat with c0 := (t.psq q.toNat).c0, c1 := (t.psq q.toNat).c1 } ∧
      (b = true → s.rb (.psqCtl q.toNat) 30 = true → t.flagSet (psqCl q.toNat) (s.rf (.psqCtl q.toNat) 23 16) = true) ∧
      (f < 256 → c ≠ psqCl q.toNat ∨ (∀ k, k < 2 → s.rb (.psqCnt q.toNat k) 31 = false ∨ s.rf (.psqCnt q.toNat k) 30 29 ≠ 2 ∨
    s.rb (.psqCnt q.toNat k) 19 = false ∨ f ≠ s.rf (.psqCnt q.toNat k) 15 8) →
        t.flagSet c f = (s.flagSet c f || (b && s.rb (.psqCtl q.toNat) 30 && c == psqCl q.toNat && f == s.rf (.psqCtl q.toNat)
    23 16))) := by
  have notes := noted_of s q.toNat l.isLt e
  have counts := countEdge_counted (noted s q.toNat l.toNat e) q.toNat l.toNat e.lvl
  have fl := recognised_fl s q.toNat l.toNat e
  refine ⟨_, edgeRecognised_eq is on due new, ?_⟩
  generalize noted s q.toNat l.toNat e = u at *
  generalize u.countEdge q.toNat l.toNat e.lvl = t at *
  have psq : u.psq q.toNat = s.psq q.toNat := by rw [State.psq, notes.psqs]; rfl
  have step : SeqStep q.toNat [.psqStat q.toNat] s t :=
    SeqStep.trans ⟨notes.step.frame, notes.step.psqs, notes.step.lanes, fun r _ => notes.step.regs r (by simp)⟩ counts.step
  have lane := counts.lane l.toNat l.isLt
  rw [notes.lane] at lane
  refine ⟨step.psqFrame, ?_, ?_, step.regs, ?_, fun captured tells => ?_, fun hf apart => ?_⟩
  · rw [hb]
    exact lane
  · rw [lane]
    exact fl
  · rw [counts.psq, psq]
  · refine counts.kept _ _ ?_
    rw [notes.flags _ _ (rf_lt s _ rfl), ← hb, captured, tells, beq_self_eq_true]
    exact Bool.or_eq_true_iff.mpr (.inr (beq_self_eq_true _))
  · rw [counts.flags c f hf ?_, notes.flags c f hf, hb]
    simp only [rb_congr notes.regs, rf_congr notes.regs]
    exact apart

/-- What the state in which the counters see the edge keeps for them. -/
theorem Noted.beside {s u : State} {q l : Nat} {e : EdgeP} (h : Noted s u q l e) (k : Nat) : Beside q k s u :=
  ⟨fun r _ => h.step.regs r (by simp), h.step.cycle, h.step.active, cnt_congr h.psqs q k, rb_congr h.regs _ _,
    fun was => (rb_congr h.regs _ _).trans was, h.kept⟩

theorem Beside.trans {q k : Nat} {s t u : State} (h : Beside q k s t) (g : Beside q k t u) : Beside q k s u :=
  ⟨fun r hr => (g.regs r hr).trans (h.regs r hr), g.cycle.trans h.cycle, g.active.trans h.active, g.cnt.trans h.cnt,
    g.short.trans h.short, fun was => g.qerr (h.qerr was), fun c f set => g.flags c f (h.flags c f set)⟩

theorem edgeRecognised_counts {k : Nat} (is : (s.lane q.toNat l.toNat).edge = some e) (on : Answers s)
    (due : e.cyc + s.rf (.psqLcfg q.toNat l.toNat) 23 20 ≤ s.cycle) (new : e.lvl ≠ (s.lane q.toNat l.toNat).fl) (hk : k < 2) :
    Leads (.edgeRecognised q l) s fun t =>
      (s.active = false ∨ s.rb (.psqCnt q.toNat k) 31 = false ∨ s.rf (.psqCnt q.toNat k) 30 29 = 0 ∨ s.rf (.psqCnt q.toNat k)
    30 29 = 3 → t.cnt q.toNat k = s.cnt q.toNat k) ∧
      (s.active = true → s.rb (.psqCnt q.toNat k) 31 = true → s.rf (.psqCnt q.toNat k) 30 29 = 2 →
        (s.rf (.psqCnt q.toNat k) 22 20 = l.toNat → bit (s.reg (.psqLcfg q.toNat l.toNat)) (if e.lvl then 29 else 30) = true →
    CountsUp s t q.toNat k) ∧
        (s.rf (.psqCnt q.toNat k) 22 20 ≠ l.toNat ∨ bit (s.reg (.psqLcfg q.toNat l.toNat)) (if e.lvl then 29 else 30) = false
    → t.cnt q.toNat k = s.cnt q.toNat k)) ∧
      (s.active = true → s.rb (.psqCnt q.toNat k) 31 = true → s.rf (.psqCnt q.toNat k) 30 29 = 1 →
        (s.rf (.psqCnt q.toNat k) 22 20 = l.toNat → CountsQuad s t q.toNat k true (t.lane q.toNat (s.rf (.psqCnt q.toNat k) 22
    20)).fl (t.lane q.toNat (s.rf (.psqCnt q.toNat k) 18 16)).fl) ∧
        (s.rf (.psqCnt q.toNat k) 22 20 ≠ l.toNat → s.rf (.psqCnt q.toNat k) 18 16 = l.toNat → CountsQuad s t q.toNat k false
    (t.lane q.toNat (s.rf (.psqCnt q.toNat k) 22 20)).fl (t.lane q.toNat (s.rf (.psqCnt q.toNat k) 18 16)).fl) ∧
        (s.rf (.psqCnt q.toNat k) 22 20 ≠ l.toNat → s.rf (.psqCnt q.toNat k) 18 16 ≠ l.toNat → t.cnt q.toNat k = s.cnt q.toNat
    k)) := by
  obtain ⟨u, before, after, fl⟩ := countEdge_beside (noted s q.toNat l.toNat e) q.toNat l.toNat e.lvl hk
  have counts := countEdge_counted (noted s q.toNat l.toNat e) q.toNat l.toNat e.lvl
  have before := ((noted_of s q.toNat l.isLt e).beside k).trans before
  have cnt (same : edgeStep q.toNat l.toNat e.lvl u k = u) : ((noted s q.toNat l.toNat e).countEdge q.toNat l.toNat e.lvl).cnt q.toNat k =
      s.cnt q.toNat k := after.cnt.trans ((congrArg (·.cnt q.toNat k) same).trans before.cnt)
  refine ⟨_, edgeRecognised_eq is on due new, ?_⟩
  have sameFl (i : Nat) (hi : i < 8) : (u.lane q.toNat i).fl = (((noted s q.toNat l.toNat e).countEdge q.toNat l.toNat e.lvl).lane q.toNat i).fl := by
    rw [fl i hi, counts.lane i hi]
    rfl
  have reg := before.counter
  have lcfg : u.reg (.psqLcfg q.toNat l.toNat) = s.reg (.psqLcfg q.toNat l.toNat) := before.reg (by simp only [Reg.off]; omega)
  generalize (noted s q.toNat l.toNat e).countEdge q.toNat l.toNat e.lvl = t at *
  simp only [State.rb, State.rf, ← reg, ← before.active, ← lcfg]
  refine ⟨fun off => cnt (edgeStep_off off), fun active en mode => ?_, fun active en mode => ?_⟩
  · have step := edgeStep_edge (l := l.toNat) (lvl := e.lvl) active en mode
    refine ⟨fun mine selected => ?_, fun not => cnt (step.trans (if_neg ?_))⟩
    · rw [step, if_pos ⟨mine, selected⟩] at after
      exact CountsUp.through before after (countUp_done u q.toNat hk).2.1
    · rintro ⟨mine, selected⟩
      exact not.elim (· mine) fun off => absurd (selected.symm.trans off) (by decide)
  · have step := edgeStep_quad (l := l.toNat) (lvl := e.lvl) active en mode
    have quad (onA : Bool) := (quad_done u q.toNat k onA).2
    simp only [sameFl _ (rf_lt u (.psqCnt q.toNat k) (hi := 22) (lo := 20) rfl),
      sameFl _ (rf_lt u (.psqCnt q.toNat k) (hi := 18) (lo := 16) rfl)] at quad
    refine ⟨fun onA => ?_, fun notA onB => ?_, fun notA notB => cnt (step.trans ((if_neg notA).trans (if_neg notB)))⟩
    · rw [step, State.rf, if_pos onA] at after
      exact CountsQuad.through before after (quad true)
    · rw [step, State.rf, if_neg notA, State.rf, if_pos onB] at after
      exact CountsQuad.through before after (quad false)

end

end Sys2Proof.Proofs
end

section
/-! SUPPORT. Reflex pairs (R293), and what the end of a cycle makes of a lane's changes and captures (R280, R292). -/
namespace Sys2Proof.Proofs
open Sys2Proof.Machine Sys2Proof.Laws

/-! ### REFLEX_FIRE (R293) -/

/-- A pair that fires notes it, and disarms where it fires once; the rest of its register stays. -/
theorem fired_pair (s : State) (r : Reg) (once : Bool) :
    let t := if once then (s.setRb r 29 true).setRb r 31 false else s.setRb r 29 true
    OnlyRegs [r] s t ∧ t.rb r 29 = true ∧ t.rb r 31 = (s.rb r 31 && !once) ∧ t.rf r 28 0 = s.rf r 28 0 ∧ t.rb r 30 = s.rb r 30 := by
  have listed : r ∈ [r] := List.mem_singleton_self r
  cases once with
  | true =>
    refine ⟨(setReg_onlyRegs s listed _).trans (setReg_onlyRegs _ listed _), ?_, ?_, ?_, ?_⟩
    · exact (setRb_rb _ r _ (by decide)).trans (setRb_rb s r _ (by decide))
    · exact (setRb_rb _ r _ (by decide)).trans (Bool.and_false _).symm
    · exact (setRb_rf _ r _ (by decide) (by decide)).trans (setRb_rf s r _ (by decide) (by decide))
    · exact (setRb_rb _ r _ (by decide)).trans (setRb_rb s r _ (by decide))
  | false =>
    exact ⟨setReg_onlyRegs s listed _, setRb_rb s r _ (by decide), (setRb_rb s r _ (by decide)).trans (Bool.and_true _).symm,
      setRb_rf s r _ (by decide) (by decide), setRb_rb s r _ (by decide)⟩

/-- The change that a pair with register `w` makes, at an edge to level `lvl`. -/
def reflexOp (w : Word) (lvl : Bool) : ChgOp :=
  if fld w 26 25 = 0 then .val false else if fld w 26 25 = 1 then .val true else if fld w 26 25 = 2 then .tgl else .val lvl

section
variable {q : BitVec 6} {r : BitVec 2} {x : Reflex} {w : Word} {j : Nat} {s : State}

theorem reflexFire_none (is : (s.psq q.toNat).rfx.find? (fun y => y.pair == r.toNat && decide (y.cyc ≤ s.cycle)) = none) :
    Idle (.reflexFire q r) s := by
  change execReflexFire q r s = _
  unfold execReflexFire
  simp only [is]

/-- The state in which a due edge of a pair has left the list. -/
def taken (s : State) (q : Nat) (x : Reflex) : State := s.setPsq q { s.psq q with rfx := (s.psq q).rfx.erase x }

theorem reflexFire_some (is : (s.psq q.toNat).rfx.find? (fun y => y.pair == r.toNat && decide (y.cyc ≤ s.cycle)) = some x) :
    exec (.reflexFire q r) s = .next
      (let w := s.reg (.psqRfx q.toNat r.toNat)
      if ¬ s.active ∨ ¬ bit w 31 then taken s q.toNat x
      else
        let u := (taken s q.toNat x).change q.toNat (fld w 10 8) ⟨x.ph, 5 - r.toNat, reflexOp w x.lvl⟩
        if bit w 30 then (u.setRb (.psqRfx q.toNat r.toNat) 29 true).setRb (.psqRfx q.toNat r.toNat) 31 false
        else u.setRb (.psqRfx q.toNat r.toNat) 29 true) := by
  have order : 2 + (3 - r.toNat) = 5 - r.toNat := by omega
  have four : fld (s.reg (.psqRfx q.toNat r.toNat)) 26 25 < 4 := fld_lt _ rfl
  change execReflexFire q r s = _
  have pair : (taken s q.toNat x).reg (.psqRfx q.toNat r.toNat) = s.reg (.psqRfx q.toNat r.toNat) := rfl
  unfold execReflexFire reflexOp
  dsimp only
  rw [is, order]
  dsimp only
  rw [← taken, pair]
  generalize fld (s.reg (.psqRfx q.toNat r.toNat)) 26 25 = n at *
  interval_cases n
  all_goals exact (apply_ite Host.Outcome.next _ _ _).symm

theorem reflexFire_off (is : (s.psq q.toNat).rfx.find? (fun y => y.pair == r.toNat && decide (y.cyc ≤ s.cycle)) = some x)
    (off : s.active = false ∨ s.rb (.psqRfx q.toNat r.toNat) 31 = false) :
    exec (.reflexFire q r) s = .next (s.setPsq q.toNat { s.psq q.toNat with rfx := (s.psq q.toNat).rfx.erase x }) :=
  (reflexFire_some is).trans (congrArg _ (if_pos (off.imp ne_true_of_eq_false ne_true_of_eq_false)))

theorem pair_beside_stat (q : Nat) {r : Nat} (hr : r < 4) : (Reg.psqStat q).off ≠ (Reg.psqRfx q r).off := by
  simp only [Reg.off]
  omega

theorem reflexFire_runs (is : (s.psq q.toNat).rfx.find? (fun y => y.pair == r.toNat && decide (y.cyc ≤ s.cycle)) = some x)
    (hw : w = s.reg (.psqRfx q.toNat r.toNat)) (on : s.active = true) (armed : bit w 31 = true) : Leads (.reflexFire q r) s fun t =>
      PsqFrame s t q.toNat ∧ t.flags = s.flags ∧ t.psq q.toNat = { s.psq q.toNat with rfx := (s.psq q.toNat).rfx.erase x } ∧
    RegsBut [.psqRfx q.toNat r.toNat, .psqStat q.toNat] s t ∧
      t.rb (.psqRfx q.toNat r.toNat) 29 = true ∧ t.rb (.psqRfx q.toNat r.toNat) 31 = !bit w 30 ∧ t.rf (.psqRfx q.toNat
    r.toNat) 28 0 = fld w 28 0 ∧ t.rb (.psqRfx q.toNat r.toNat) 30 = bit w 30 ∧
      LaneTakes s t q.toNat (fld w 10 8) x.ph (5 - r.toNat) (if fld w 26 25 = 0 then .val false else if fld w 26 25 = 1 then
    .val true else if fld w 26 25 = 2 then .tgl else .val x.lvl) ∧
      (j < 8 → j ≠ fld w 10 8 → t.lane q.toNat j = s.lane q.toNat j) := by
  have run := reflexFire_some is
  dsimp only at run
  rw [← hw, if_neg (by simp [on, armed])] at run
  refine ⟨_, run, ?_⟩
  rw [← reflexOp.eq_def]
  generalize hc : (⟨x.ph, 5 - r.toNat, reflexOp w x.lvl⟩ : Chg) = c
  have step : SeqStep q.toNat [.psqRfx q.toNat r.toNat, .psqStat q.toNat] s ((taken s q.toNat x).change q.toNat (fld w 10 8) c) :=
    ((SeqStep.refl q.toNat _ s).setPsq _).trans (change_seqStep _ q.toNat (by simp) (fld_lt w rfl) c)
  have psq : ((taken s q.toNat x).change q.toNat (fld w 10 8) c).psq q.toNat = { s.psq q.toNat with rfx := (s.psq q.toNat).rfx.erase x } := by
    rw [State.psq, change_psqs]
    exact setPsq_psq_self s q.toNat _
  have flags := change_flags (taken s q.toNat x) q.toNat (fld w 10 8) c
  have lane (l : Nat) := change_lane (taken s q.toNat x) q.toNat (fld w 10 8) l c
  have coll := change_coll (taken s q.toNat x) q.toNat (fld w 10 8) c
  have pair : ((taken s q.toNat x).change q.toNat (fld w 10 8) c).reg (.psqRfx q.toNat r.toNat) = w := by
    refine ((change_seqStep (taken s q.toNat x) q.toNat (List.mem_singleton_self _) (fld_lt w rfl) c).reg ?_).trans hw.symm
    simpa using (pair_beside_stat q.toNat r.isLt).symm
  generalize (taken s q.toNat x).change q.toNat (fld w 10 8) c = u at *
  obtain ⟨only, fired, arm, rest, once⟩ := fired_pair u (.psqRfx q.toNat r.toNat) (bit w 30)
  simp only [State.rb, State.rf, pair] at arm rest once
  generalize (if bit w 30 = true then (u.setRb (.psqRfx q.toNat r.toNat) 29 true).setRb (.psqRfx q.toNat r.toNat) 31 false
    else u.setRb (.psqRfx q.toNat r.toNat) 29 true) = t at *
  have stat : t.rb (.psqStat q.toNat) 28 = u.rb (.psqStat q.toNat) 28 := by
    rw [State.rb, only.regs _ (by simpa using pair_beside_stat q.toNat r.isLt)]
    rfl
  have whole : SeqStep q.toNat [.psqRfx q.toNat r.toNat, .psqStat q.toNat] s t := by
    have more := only.weaken (m := [.psqRfx q.toNat r.toNat, .psqStat q.toNat]) (by simp)
    obtain ⟨regs, frame⟩ := only.frame
    refine step.trans ⟨⟨u.psqs, u.lanes, regs, u.flags, frame⟩, ?_, ?_, more.regs⟩
    · rw [frame]
      exact fun _ _ => rfl
    · rw [frame]
      exact fun _ _ _ _ => rfl
  obtain ⟨regs, frame⟩ := only.frame
  refine ⟨whole.psqFrame, ?_, ?_, whole.regs, fired, arm.trans (by rw [armed, Bool.true_and]), rest, once, ?_, fun hj other => ?_⟩
  · rw [frame]
    exact flags
  · rw [frame]
    exact psq
  · refine laneTakes_of ?_ fun met => ?_
    · rw [hc, frame]
      exact (lane _).trans (if_pos rfl)
    · rw [hc] at met
      rw [stat, coll]
      exact (congrArg _ met).trans (Bool.or_true _)
  · rw [frame]
    exact (lane j).trans (if_neg other)

end

/-! ### A lane's changes, in their order (R280) -/

theorem insertChg_eq (c : Chg) (l : List Chg) : insertChg c l =
    l.takeWhile (fun d => decide (d.ph < c.ph ∨ (d.ph = c.ph ∧ d.pri ≤ c.pri))) ++
    c :: l.dropWhile (fun d => decide (d.ph < c.ph ∨ (d.ph = c.ph ∧ d.pri ≤ c.pri))) := by
  induction l with
  | nil => rfl
  | cons d l ih =>
    rw [insertChg]
    by_cases before : d.ph < c.ph ∨ (d.ph = c.ph ∧ d.pri ≤ c.pri)
    · simp [before, ih]
    · simp [before]

theorem out_last {x : Lane} {c : Chg} (last : x.chg.getLast? = some c) :
    x.out = chgOut c.op ({ x with chg := x.chg.dropLast } : Lane).out := by
  obtain ⟨init, is⟩ := List.getLast?_eq_some_iff.mp last
  unfold Lane.out
  rw [is, List.foldl_append, List.dropLast_concat]
  rfl

theorem settleLane_lane (s : State) (q l : Nat) : (s.settleLane q l).lane q l =
    { s.lane q l with ov := (s.lane q l).out.1, oe := (s.lane q l).out.2, chg := [] } := by
  unfold State.settleLane
  dsimp only
  split
  · rename_i none
    have none := List.isEmpty_iff.mp none
    rw [Lane.out, none, List.foldl_nil, ← none]
  · exact (setLane_lane_at s q l l _).trans (if_pos rfl)

theorem settleLane_settles (s : State) (q l : Nat) (c : Chg) :
    ((s.lane q l).chg = [] → (s.lane q l).out = ((s.lane q l).ov, (s.lane q l).oe)) ∧
    ((s.lane q l).chg.getLast? = some c → (s.lane q l).out = chgOut c.op ({ s.lane q l with chg := (s.lane q l).chg.dropLast } : Lane).out) ∧
    (s.settleLane q l).lane q l = { s.lane q l with ov := (s.lane q l).out.1, oe := (s.lane q l).out.2, chg := [] } := by
  refine ⟨fun none => ?_, out_last, settleLane_lane s q l⟩
  rw [Lane.out, none]
  rfl

/-! ### Captures that arrive (R292) -/

theorem settleCaps_one {s : State} {q l c : Nat} {e : Word × Bool} (one : (s.lane q l).arr = [(c, e)]) (due : c ≤ s.cycle) :
    s.settleCaps q l = if (s.lane q l).caps.length < 2 then s.setLane q l { s.lane q l with arr := [], caps := (s.lane q l).caps ++ [e] }
      else ((s.setLane q l { s.lane q l with arr := [] }).setRb (.psqCapst q l) 31 true).bumpRf (.psqCapst q l) 15 8 1 := by
  have all : [(c, e)].filter (fun a => decide (a.1 ≤ s.cycle)) = [(c, e)] := by simp [due]
  unfold State.settleCaps State.each
  dsimp only
  rw [one, all, List.foldl_cons, List.foldl_nil, one]
  rfl

theorem settleCaps_settles (s : State) (q l c : Nat) (e : Word × Bool) (one : (s.lane q l).arr = [(c, e)]) (due : c ≤ s.cycle) :
    ((s.lane q l).caps.length < 2 →
      s.settleCaps q l = s.setLane q l { s.lane q l with arr := [], caps := (s.lane q l).caps ++ [e] }) ∧
    (2 ≤ (s.lane q l).caps.length → (s.settleCaps q l).lane q l = { s.lane q l with arr := [] } ∧ RegsBut [.psqCapst q l] s
      (s.settleCaps q l) ∧ (s.settleCaps q l).rb (.psqCapst q l) 31 = true ∧ (s.settleCaps q l).rf (.psqCapst q l) 15 8 = min
      (s.rf (.psqCapst q l) 15 8 + 1) 255) := by
  rw [settleCaps_one one due]
  refine ⟨fun room => if_pos room, fun full => ?_⟩
  rw [if_neg (by omega)]
  obtain ⟨word, others⟩ := setRb_bumpRf_regs (s.setLane q l { s.lane q l with arr := [] }) (.psqCapst q l) 31 15 8
  refine ⟨(setLane_lane_at s q l l _).trans (if_pos rfl), others, ?_, ?_⟩
  · rw [State.rb, word, satFld, bit_setFld_apart (by decide) (by decide), bit_setBit _ (by decide), if_pos rfl]
  · rw [State.rf, word, fld_satFld _ (by decide), fld_setBit_outside _ (by decide) (by decide)]
    rfl

end Sys2Proof.Proofs
end

section
/-! SUPPORT. The action unit (R281 to R283): which action of the FIFO executes, and what each kind does. -/
namespace Sys2Proof.Proofs
open Sys2Proof.Machine Sys2Proof.Laws

/-! ### The fields of an action -/

theorem natFld_extract (a : DWord) (hi lo : Nat) : natFld a.toNat hi lo = (a.extractLsb' lo (hi + 1 - lo)).toNat := by
  rw [natFld, BitVec.extractLsb'_toNat]

theorem natFld_testBit (a : DWord) {hi lo i : Nat} (h : i < hi + 1 - lo) : (natFld a.toNat hi lo).testBit i = a.getLsbD (lo + i) := by
  rw [natFld_extract, BitVec.testBit_toNat, BitVec.getLsbD_extractLsb', decide_eq_true h, Bool.true_and]

theorem actKind_iff (a : DWord) (k : BitVec 3) : actKind a = k.toNat ↔ a.extractLsb' 61 3 = k := by
  rw [actKind, natFld_extract]
  exact BitVec.toNat_inj

theorem actsNow_iff (s : State) (a : DWord) (k : BitVec 3) : (actKind a == k.toNat && s.actDue a) = true ↔ ActsNow s k a := by
  rw [Bool.and_eq_true, beq_iff_eq, actKind_iff]
  exact and_congr_right' (atOrAfter_iff _ _)

/-! ### The first due action of a kind (R283) -/

section
variable {s : State} {q : Nat} {k : BitVec 3} {x y : List DWord} {a : DWord} {act : State → DWord → State}

theorem runAction_idle (h : s.active = false ∨ ∀ a ∈ (s.psq q).fifo, ¬ ActsNow s k a) : s.runAction q k.toNat act = s := by
  rcases h with off | none
  · exact if_pos (ne_true_of_eq_false off)
  · have notFound : (s.psq q).fifo.find? (fun a => actKind a == k.toNat && s.actDue a) = Option.none :=
      List.find?_eq_none.mpr fun a listed due => none a listed ((actsNow_iff s a k).mp due)
    unfold State.runAction
    dsimp only
    rw [notFound, ite_self]

/-- The state in which the first due action has left the FIFO. -/
def dequeued (s : State) (q : Nat) (fifo : List DWord) : State := s.setPsq q { s.psq q with fifo := fifo }

theorem runAction_due (h : FirstDue s q k x a y) :
    s.runAction q k.toNat act = (act (dequeued s q (x ++ y)) a).bump (.psqAexec q) 1 := by
  obtain ⟨on, fifo, now, before⟩ := h
  have found : (s.psq q).fifo.find? (fun a => actKind a == k.toNat && s.actDue a) = some a :=
    List.find?_eq_some_iff_append.mpr ⟨(actsNow_iff s a k).mpr now, x, y, fifo, fun b hb => by
      rw [Bool.not_eq_true', ← Bool.not_eq_true]
      exact fun due => before b hb ((actsNow_iff s b k).mp due)⟩
  have left : (s.psq q).fifo.erase a = x ++ y := by
    rw [fifo, List.erase_append_right _ fun listed => before a listed now, List.erase_cons_head]
  unfold State.runAction dequeued
  dsimp only
  rw [if_neg (not_not.mpr on), found, ← left]

end

/-! ### LEVEL and DRIVE -/

theorem aexec_beside_stat (q : Nat) : ∀ r ∈ [Reg.psqStat q], (Reg.psqAexec q).off ≠ r.off := by
  simp only [List.mem_singleton, forall_eq, Reg.off]
  omega

/-- What an action that changes the lanes of its mask leaves. -/
structure MaskAction (s t : State) (q : Nat) (fifo : List DWord) (on : Nat → Bool) (c : Nat → Chg) : Prop where
  step : SeqStep q [.psqAexec q, .psqStat q] s t
  flags : t.flags = s.flags
  psq : t.psq q = { s.psq q with fifo := fifo }
  count : t.reg (.psqAexec q) = satAdd (s.reg (.psqAexec q)) 1
  lane : ∀ l, l < 8 → t.lane q l = if l < 8 ∧ on l then chgLane s q l (c l) else s.lane q l
  coll : t.rb (.psqStat q) 28 = (s.rb (.psqStat q) 28 || (upto 8).any fun i => on i && collides s q i (c i))

theorem maskAction_done (s : State) (q : Nat) (fifo : List DWord) (mask ph pri : Nat) (op : Nat → ChgOp) :
    MaskAction s (((dequeued s q fifo).changeMask q mask ph pri op).bump (.psqAexec q) 1) q fifo mask.testBit fun l => ⟨ph, pri, op l⟩ := by
  have done := changeMask_done (dequeued s q fifo) q mask ph pri op
  have psq : ((dequeued s q fifo).changeMask q mask ph pri op).psq q = { s.psq q with fifo := fifo } := by
    rw [State.psq, changeMask_psqs]
    exact setPsq_psq_self s q _
  generalize (dequeued s q fifo).changeMask q mask ph pri op = u at *
  have count : (u.bump (.psqAexec q) 1).reg (.psqAexec q) = satAdd (s.reg (.psqAexec q)) 1 := by
    rw [State.bump, setReg_reg_self, done.step.reg (aexec_beside_stat q)]
    rfl
  have stat : (u.bump (.psqAexec q) 1).rb (.psqStat q) 28 = u.rb (.psqStat q) 28 := by
    unfold State.rb
    exact congrArg (bit · 28) (setReg_reg_other u _ (aexec_beside_stat q _ (List.mem_singleton_self _)).symm)
  have dropped : SeqStep q [.psqAexec q, .psqStat q] s (dequeued s q fifo) := (SeqStep.refl q _ s).setPsq _
  have changed : SeqStep q [.psqAexec q, .psqStat q] (dequeued s q fifo) u :=
    ⟨done.step.frame, done.step.psqs, done.step.lanes, fun r hr => done.step.regs r fun listed => hr (List.mem_cons_of_mem _ listed)⟩
  exact ⟨(dropped.trans changed).setReg (by simp) _, done.flags, psq, count, done.lane, stat.trans done.coll⟩

section
variable {s t : State} {q l ph pri : Nat} {fifo : List DWord} {a : DWord} {op : Nat → ChgOp} {x : ChgOp}
  (h : MaskAction s t q fifo (natFld a.toNat 55 48).testBit fun l => ⟨ph, pri, op l⟩)
include h

theorem MaskAction.takes (hl : l < 8) (named : a.getLsbD (48 + l) = true) (hx : op l = x) : LaneTakes s t q l ph pri x := by
  have on : (natFld a.toNat 55 48).testBit l = true := (natFld_testBit a hl).trans named
  refine laneTakes_of ?_ fun met => ?_
  · rw [h.lane l hl, if_pos ⟨hl, on⟩, hx]
  · rw [h.coll, Bool.or_eq_true, List.any_eq_true]
    exact .inr ⟨l, mem_upto.mpr hl, by rw [on, hx, met]; rfl⟩

theorem MaskAction.keeps (hl : l < 8) (unnamed : a.getLsbD (48 + l) = false) : t.lane q l = s.lane q l := by
  have off : (natFld a.toNat 55 48).testBit l = false := (natFld_testBit a hl).trans unnamed
  rw [h.lane l hl, if_neg (by simp [off])]

end

section
variable {q : BitVec 6} {x y : List DWord} {a : DWord} {l : Nat} {s : State}

theorem actionLevel_runs (h : FirstDue s q.toNat 1 x a y) (hl : l < 8) : Leads
    (.actionLevel q) s fun t => PsqFrame s t q.toNat ∧ t.flags = s.flags ∧ t.psq q.toNat =
    { s.psq q.toNat with fifo := x ++ y } ∧
      RegsBut [.psqAexec q.toNat, .psqStat q.toNat] s t ∧ t.reg (.psqAexec q.toNat) = satAdd (s.reg (.psqAexec q.toNat)) 1 ∧
      (a.getLsbD (48 + l) = true → LaneTakes s t q.toNat l (phaseAt s a) 1 (.val (a.getLsbD (32 + l)))) ∧ (a.getLsbD (48 + l)
    = false → t.lane q.toNat l = s.lane q.toNat l) ∧
      t.rb (.psqStat q.toNat) 28 = (s.rb (.psqStat q.toNat) 28 || (upto 8).any fun i => a.getLsbD (48 + i) && s.rf (.psqLcfg
    q.toNat i) 26 24 == 0 && (s.lane q.toNat i).chg.any fun d => d.ph == phaseAt s a) := by
  have done := maskAction_done s q.toNat (x ++ y) (natFld a.toNat 55 48) (phaseAt s a) 1 fun l => .val (a.getLsbD (32 + l))
  refine ⟨_, congrArg Host.Outcome.next (runAction_due h), done.step.psqFrame, done.flags, done.psq, done.step.regs, done.count,
    fun named => done.takes hl named rfl, done.keeps hl, done.coll.trans (congrArg _ (any_upto_congr fun i hi => ?_))⟩
  rw [natFld_testBit a hi, Bool.and_assoc]
  rfl

theorem actionDrive_runs (h : FirstDue s q.toNat 2 x a y) (hl : l < 8) : Leads
    (.actionDrive q) s fun t => PsqFrame s t q.toNat ∧ t.flags = s.flags ∧ t.psq q.toNat =
    { s.psq q.toNat with fifo := x ++ y } ∧
      RegsBut [.psqAexec q.toNat, .psqStat q.toNat] s t ∧ t.reg (.psqAexec q.toNat) = satAdd (s.reg (.psqAexec q.toNat)) 1 ∧
      (a.getLsbD (48 + l) = true → LaneTakes s t q.toNat l (phaseAt s a) 1 (.en (a.getLsbD (32 + l)))) ∧ (a.getLsbD (48 + l) =
    false → t.lane q.toNat l = s.lane q.toNat l) := by
  have done := maskAction_done s q.toNat (x ++ y) (natFld a.toNat 55 48) (phaseAt s a) 1 fun l => .en (a.getLsbD (32 + l))
  exact ⟨_, congrArg Host.Outcome.next (runAction_due h), done.step.psqFrame, done.flags, done.psq, done.step.regs, done.count,
    fun named => done.takes hl named rfl, done.keeps hl⟩

end

/-! ### TRIG and LOAD -/

/-- The record after the trigger bits of a mask are set in cycle `c`. -/
def setTrigs (x : Psq) (c : Nat) (mask : Byte) : Psq :=
  if x.trigCyc < c then { x with trig := x.trig ||| x.trigNew, trigNew := mask, trigCyc := c }
  else { x with trigNew := x.trigNew ||| mask, trigCyc := c }

theorem setTrig_eq (s : State) (q : Nat) (mask : Byte) : s.setTrig q mask = s.setPsq q (setTrigs (s.psq q) s.cycle mask) :=
  (apply_ite (s.setPsq q) _ _ _).symm

section
variable (x : Psq) (c : Nat) (mask : Byte)

theorem setTrigs_rest : setTrigs x c mask =
    { x with trig := (setTrigs x c mask).trig, trigNew := (setTrigs x c mask).trigNew, trigCyc := c } := by
  unfold setTrigs
  split <;> rfl

theorem setTrigs_now : trigNow (setTrigs x c mask) c = trigNow x c := by
  unfold setTrigs trigNow
  by_cases old : x.trigCyc < c
  · rw [if_pos old, if_neg (Nat.lt_irrefl c), if_pos old]
  · rw [if_neg old, if_neg (Nat.lt_irrefl c), if_neg old]

theorem setTrigs_all : (setTrigs x c mask).trig ||| (setTrigs x c mask).trigNew = (x.trig ||| x.trigNew) ||| mask := by
  unfold setTrigs
  split
  · rfl
  · exact (BitVec.or_assoc _ _ _).symm

end

/-- An action that changes only its sequencer's record is counted, and leaves the FIFO. -/
theorem recordAction_done (s : State) (q : Nat) (p : Psq) : let t := (s.setPsq q p).bump (.psqAexec q) 1
    t = { s with psqs := t.psqs, regs := t.regs } ∧ OnlyAt q s.psq t.psq ∧ t.psq q = p ∧ RegsBut [.psqAexec q] s t ∧
      t.reg (.psqAexec q) = satAdd (s.reg (.psqAexec q)) 1 :=
  ⟨rfl, setPsq_onlyAt s q p, setPsq_psq_self s q p, (setReg_onlyRegs _ (List.mem_singleton_self _) _).regs, setReg_reg_self _ _ _⟩

section
variable {q : BitVec 6} {x y : List DWord} {a : DWord} {s : State}

theorem actionTrig_runs (h : FirstDue s q.toNat 3 x a y) : Leads (.actionTrig q) s fun t =>
    t = { s with psqs := t.psqs, regs := t.regs } ∧ OnlyAt q.toNat s.psq t.psq ∧
      t.psq q.toNat =
    { s.psq q.toNat with fifo := x ++ y, trig := (t.psq q.toNat).trig, trigNew := (t.psq q.toNat).trigNew, trigCyc := s.cycle }
    ∧ RegsBut [.psqAexec q.toNat] s t ∧
      t.reg (.psqAexec q.toNat) = satAdd (s.reg (.psqAexec q.toNat)) 1 ∧ t.trigSeen q.toNat = s.trigSeen q.toNat ∧ t.trigAll
    q.toNat = s.trigAll q.toNat ||| BitVec.twoPow 8 (a.extractLsb' 56 3).toNat := by
  have trig : (dequeued s q.toNat (x ++ y)).setTrig q.toNat (1#8 <<< natFld a.toNat 58 56) = s.setPsq q.toNat
      (setTrigs { s.psq q.toNat with fifo := x ++ y } s.cycle (BitVec.twoPow 8 (a.extractLsb' 56 3).toNat)) := by
    rw [setTrig_eq, dequeued, setPsq_psq_self, setPsq_setPsq, natFld_extract, one_shiftLeft_byte]
    rfl
  have rest := setTrigs_rest { s.psq q.toNat with fifo := x ++ y } s.cycle (BitVec.twoPow 8 (a.extractLsb' 56 3).toNat)
  have now := setTrigs_now { s.psq q.toNat with fifo := x ++ y } s.cycle (BitVec.twoPow 8 (a.extractLsb' 56 3).toNat)
  have all := setTrigs_all { s.psq q.toNat with fifo := x ++ y } s.cycle (BitVec.twoPow 8 (a.extractLsb' 56 3).toNat)
  have run := runAction_due (act := fun s a => s.setTrig q.toNat (1#8 <<< natFld a.toNat 58 56)) h
  rw [trig] at run
  generalize setTrigs { s.psq q.toNat with fifo := x ++ y } s.cycle (BitVec.twoPow 8 (a.extractLsb' 56 3).toNat) = p at *
  obtain ⟨frame, onlyAt, psq, regs, count⟩ := recordAction_done s q.toNat p
  refine ⟨_, congrArg Host.Outcome.next run, frame, onlyAt, ?_, regs, count, ?_, ?_⟩
  · rw [psq]
    exact rest
  · rw [trigSeen_eq, psq]
    exact now
  · rw [State.trigAll, psq]
    exact all

theorem actionLoad_runs (h : FirstDue s q.toNat 4 x a y) : Leads (.actionLoad q) s fun t =>
    t = { s with psqs := t.psqs, regs := t.regs } ∧ OnlyAt q.toNat s.psq t.psq ∧
      t.psq q.toNat =
    { s.psq q.toNat with fifo := x ++ y, vq := (s.psq q.toNat).vq ++ [⟨3, (a.extractLsb' 56 3).toNat, a.extractLsb' 32 16⟩] }
    ∧ RegsBut [.psqAexec q.toNat] s t ∧
      t.reg (.psqAexec q.toNat) = satAdd (s.reg (.psqAexec q.toNat)) 1 := by
  have load : (dequeued s q.toNat (x ++ y)).vwrite q.toNat 3 (natFld a.toNat 58 56) (natFld a.toNat 47 32) = s.setPsq q.toNat
      { s.psq q.toNat with fifo := x ++ y, vq := (s.psq q.toNat).vq ++ [⟨3, (a.extractLsb' 56 3).toNat, a.extractLsb' 32 16⟩] } := by
    rw [State.vwrite, dequeued, setPsq_psq_self, setPsq_setPsq, natFld_extract, natFld_extract, BitVec.ofNat_toNat]
    rfl
  have run := runAction_due (act := fun s a => s.vwrite q.toNat 3 (natFld a.toNat 58 56) (natFld a.toNat 47 32)) h
  rw [load] at run
  exact ⟨_, congrArg Host.Outcome.next run, recordAction_done s q.toNat _⟩

theorem action_idle (h : s.active = false ∨ ∀ a ∈ (s.psq q.toNat).fifo, ¬ ActsNow s 1 a) : Idle (.actionLevel q) s :=
  congrArg Host.Outcome.next (runAction_idle h)

theorem actions_idle : ((s.active = false ∨ ∀ a ∈ (s.psq q.toNat).fifo, ¬ ActsNow s 2 a) → Idle (.actionDrive q) s) ∧
    ((s.active = false ∨ ∀ a ∈ (s.psq q.toNat).fifo, ¬ ActsNow s 3 a) → Idle (.actionTrig q) s) ∧
    ((s.active = false ∨ ∀ a ∈ (s.psq q.toNat).fifo, ¬ ActsNow s 4 a) → Idle (.actionLoad q) s) :=
  ⟨fun h => congrArg Host.Outcome.next (runAction_idle h), fun h => congrArg Host.Outcome.next (runAction_idle h),
    fun h => congrArg Host.Outcome.next (runAction_idle h)⟩

end

end Sys2Proof.Proofs
end

section
/-! SUPPORT. The level that reaches a lane (R306): that of the lowest-numbered pin that passes it one. -/
namespace Sys2Proof.Proofs
open Sys2Proof.Machine Sys2Proof.Laws

/-! ### The least member of a list that passes -/

/-- The least member of `l` that passes, or none where none does. -/
def LeastOf (pass : Nat → Bool) (l : List Nat) : Option Nat → Prop
  | none => ∀ p ∈ l, pass p = false
  | some m => m ∈ l ∧ pass m = true ∧ ∀ p ∈ l, pass p = true → m ≤ p

/-- A fold that keeps the lesser of the members that pass finds the least. -/
theorem leastOf_fold {pass : Nat → Bool} {f : Option Nat → Nat → Option Nat} (skip : ∀ a p, pass p = false → f a p = a)
    (first : ∀ p, pass p = true → f none p = some p) (lesser : ∀ m p, pass p = true → f (some m) p = some (min m p)) (l : List Nat) :
    LeastOf pass l (l.foldl f none) := by
  induction l using List.reverseRecOn with
  | nil => exact fun p listed => absurd listed List.not_mem_nil
  | append_singleton l x ih =>
    rw [List.foldl_append, List.foldl_cons, List.foldl_nil]
    generalize l.foldl f none = a at *
    cases a with
    | none =>
      cases passes : pass x with
      | false =>
        rw [skip _ _ passes]
        intro p listed
        rcases List.mem_append.mp listed with before | is
        · exact ih p before
        · rw [List.mem_singleton.mp is, passes]
      | true =>
        rw [first _ passes]
        refine ⟨by simp, passes, fun p listed pp => ?_⟩
        rcases List.mem_append.mp listed with before | is
        · exact absurd (pp.symm.trans (ih p before)) (by decide)
        · exact (List.mem_singleton.mp is).ge
    | some m =>
      obtain ⟨listed, pm, least⟩ := ih
      cases passes : pass x with
      | false =>
        rw [skip _ _ passes]
        refine ⟨List.mem_append_left _ listed, pm, fun p listed pp => ?_⟩
        rcases List.mem_append.mp listed with before | is
        · exact least p before pp
        · exact absurd ((List.mem_singleton.mp is ▸ pp).symm.trans passes) (by decide)
      | true =>
        rw [lesser _ _ passes]
        refine ⟨?_, ?_, fun p listed pp => ?_⟩
        · rcases min_choice m x with is | is
          · rw [is]; exact List.mem_append_left _ listed
          · rw [is]; simp
        · rcases min_choice m x with is | is
          · rw [is]; exact pm
          · rw [is]; exact passes
        · rcases List.mem_append.mp listed with before | is
          · exact (min_le_left _ _).trans (least p before pp)
          · exact (min_le_right _ _).trans (List.mem_singleton.mp is).ge

/-! ### The pin of a lane -/

section
variable {s : State} {p q l : Nat}

/-- A pin that passes its level to a lane has a slot register that is listed. -/
theorem pinList_of_passes (hp : p < 256) (h : s.passes p q l = true) : p ∈ s.pinList := by
  obtain ⟨j, hj, fits⟩ := List.any_eq_true.mp h
  have below : j < 4 := mem_upto.mp hj
  rw [Bool.and_eq_true, Bool.and_eq_true, beq_iff_eq] at fits
  obtain ⟨⟨_, user⟩, _⟩ := fits
  have kind : fld (slotHalf (s.reg (.hdgSlot p (j / 2))) j) 13 12 = 1 := congrArg Prod.fst user
  have off : (Reg.hdgSlot p (j / 2)).off = 0x5004 + 0x10 * p + 0x4 * (j / 2) := rfl
  have listed : (Reg.hdgSlot p (j / 2)).off ∈ s.regs.map Prod.fst := by
    by_contra unlisted
    have inRange : (Reg.hdgSlot p (j / 2)).inRange = true := by
      simp only [Reg.inRange, Bool.and_eq_true, decide_eq_true_eq]
      omega
    have reset : s.reg (.hdgSlot p (j / 2)) = 0 := by
      rw [State.reg, get_of_unlisted unlisted, regReset, regAt_off inRange (by omega)]
      rfl
    rw [reset] at kind
    revert kind
    unfold slotHalf
    split <;> decide
  obtain ⟨e, he, key⟩ := List.mem_map.mp listed
  rw [State.pinList, List.mem_eraseDups, List.mem_filterMap]
  refine ⟨e, he, ?_⟩
  rw [key, off, if_pos (by omega)]
  congr 1
  omega

/-- The level that reaches a lane is that of the least pin that passes it one, else 0. -/
theorem laneIn_least (s : State) (q l : Nat) : ∃ r, LeastOf (fun p => s.passes p q l) s.pinList r ∧
    s.laneIn q l = (r.map fun p => (s.pin p).lvl).getD false := by
  unfold State.laneIn
  split
  · rename_i p found
    refine ⟨some p, ?_, rfl⟩
    rw [← found]
    exact leastOf_fold (fun _ _ no => if_neg (ne_true_of_eq_false no)) (fun _ yes => if_pos yes) (fun _ _ yes => if_pos yes) s.pinList
  · rename_i found
    refine ⟨none, ?_, rfl⟩
    rw [← found]
    exact leastOf_fold (fun _ _ no => if_neg (ne_true_of_eq_false no)) (fun _ yes => if_pos yes) (fun _ _ yes => if_pos yes) s.pinList

theorem laneIn_first (hp : p < 256) (passes : s.passes p q l = true) (first : ∀ j, j < p → s.passes j q l = false) :
    s.laneIn q l = (s.pin p).lvl := by
  obtain ⟨r, least, is⟩ := laneIn_least s q l
  rw [is]
  have listed := pinList_of_passes hp passes
  cases r with
  | none => exact absurd (passes.symm.trans (least p listed)) (by decide)
  | some m =>
    obtain ⟨_, pm, below⟩ := least
    have notBelow : ¬ m < p := fun lt => absurd (pm.symm.trans (first m lt)) (by decide)
    have same : m = p := le_antisymm (below p listed passes) (Nat.le_of_not_lt notBelow)
    rw [same]
    rfl

theorem pinList_lt (listed : p ∈ s.pinList) : p < 256 := by
  rw [State.pinList, List.mem_eraseDups, List.mem_filterMap] at listed
  obtain ⟨e, _, is⟩ := listed
  split at is
  · rw [← Option.some.inj is]
    omega
  · exact absurd is (by simp)

theorem laneIn_none (none : ∀ p, p < 256 → s.passes p q l = false) : s.laneIn q l = false := by
  obtain ⟨r, least, is⟩ := laneIn_least s q l
  rw [is]
  cases r with
  | none => rfl
  | some m => exact absurd (least.2.1.symm.trans (none m (pinList_lt least.1))) (by decide)

end

end Sys2Proof.Proofs
end

section
/-! SUPPORT. A lane's level changes (R268, R293): the edge it enters, the reflex pairs that see it, and the lanes that one pin's slots
name. -/
namespace Sys2Proof.Proofs
open Sys2Proof.Machine Sys2Proof.Laws

/-! ### The reflex pairs of an edge (R293) -/

/-- Pair `r` of sequencer `q` is armed for edges of lane `l` to level `lvl`. -/
def Watches (s : State) (q l r : Nat) (lvl : Bool) : Prop :=
  s.rb (.psqRfx q r) 31 = true ∧ s.rf (.psqRfx q r) 2 0 = l ∧ bit (s.reg (.psqRfx q r)) (if lvl then 27 else 28) = true

/-- The pairs below `n` that watch the edge have it on their list, and nothing else has changed. -/
structure PairsSeen (s t : State) (q l n : Nat) (lvl : Bool) (ph : Nat) : Prop where
  frame : ∃ psqs, t = { s with psqs := psqs }
  psq : ∀ j, t.psq j = { s.psq j with rfx := (t.psq j).rfx }
  kept : ∀ j, ∀ y ∈ (s.psq j).rfx, y ∈ (t.psq j).rfx
  sees : ∀ r, r < n → Watches s q l r lvl → ⟨s.cycle + 3, r, ph, lvl⟩ ∈ (t.psq q).rfx

/-- An edge enters the list of sequencer `q`. -/
def listEdge (s : State) (q : Nat) (x : Reflex) : State := s.setPsq q { s.psq q with rfx := (s.psq q).rfx ++ [x] }

theorem listEdge_psq (s : State) (q : Nat) (x : Reflex) : (listEdge s q x).psq q = { s.psq q with rfx := (s.psq q).rfx ++ [x] } :=
  setPsq_psq_self s q _

theorem listEdge_others (s : State) (q : Nat) (x : Reflex) : OnlyAt q s.psq (listEdge s q x).psq := setPsq_onlyAt s q _

theorem mem_listEdge {s : State} {q : Nat} {x y : Reflex} (h : y ∈ (s.psq q).rfx ∨ y = x) : y ∈ ((listEdge s q x).psq q).rfx := by
  rw [listEdge_psq]
  simpa using h

/-- Pair `r` sees an edge of lane `l`. -/
def pairStep (q l : Nat) (lvl : Bool) (ph : Nat) (s : State) (r : Nat) : State :=
  if bit (s.reg (.psqRfx q r)) 31 ∧ fld (s.reg (.psqRfx q r)) 2 0 = l ∧ edgeSel (fld (s.reg (.psqRfx q r)) 28 27) lvl then
    listEdge s q ⟨s.cycle + 3, r, ph, lvl⟩
  else s

theorem pairStep_watches (s : State) (q l r : Nat) (lvl : Bool) : (bit (s.reg (.psqRfx q r)) 31 = true ∧
    fld (s.reg (.psqRfx q r)) 2 0 = l ∧ edgeSel (fld (s.reg (.psqRfx q r)) 28 27) lvl = true) ↔ Watches s q l r lvl := by
  rw [edgeSel_fld _ 27]
  rfl

theorem pairsSeen_next {s u : State} {q l n : Nat} {lvl : Bool} {ph : Nat} (h : PairsSeen s u q l n lvl ph) :
    PairsSeen s (pairStep q l lvl ph u n) q l (n + 1) lvl ph := by
  obtain ⟨⟨psqs, frame⟩, psq, kept, sees⟩ := h
  have same (r : Nat) : Watches u q l r lvl = Watches s q l r lvl := by rw [frame]; rfl
  have cycle : u.cycle = s.cycle := by rw [frame]
  by_cases watches : Watches s q l n lvl
  · have is : pairStep q l lvl ph u n = listEdge u q ⟨s.cycle + 3, n, ph, lvl⟩ := by
      rw [← cycle]
      exact if_pos ((pairStep_watches u q l n lvl).mpr ((same n).mpr watches))
    rw [is]
    refine ⟨⟨_, by rw [frame]; rfl⟩, fun j => ?_, fun j y listed => ?_, fun r below w => ?_⟩
    · by_cases here : j = q
      · rw [here, listEdge_psq, psq q]
      · rw [listEdge_others u q _ j here, psq j]
    · by_cases here : j = q
      · subst here
        exact mem_listEdge (.inl (kept j y listed))
      · rw [listEdge_others u q _ j here]
        exact kept j y listed
    · by_cases last : r = n
      · subst last
        exact mem_listEdge (.inr rfl)
      · exact mem_listEdge (.inl (sees r (by omega) w))
  · have is : pairStep q l lvl ph u n = u := if_neg fun w => watches ((same n).mp ((pairStep_watches u q l n lvl).mp w))
    rw [is]
    refine ⟨⟨psqs, frame⟩, psq, kept, fun r below w => sees r ?_ w⟩
    have differs : r ≠ n := fun last => watches (last ▸ w)
    omega

theorem pairsSeen_all (s : State) (q l : Nat) (lvl : Bool) (ph : Nat) :
    PairsSeen s (s.each (upto 4) (pairStep q l lvl ph)) q l 4 lvl ph := by
  refine each_upto (P := fun n u => PairsSeen s u q l n lvl ph) ?_ fun n u _ h => pairsSeen_next h
  exact ⟨⟨s.psqs, rfl⟩, fun _ => rfl, fun _ _ => id, fun r below => absurd below (by omega)⟩

/-! ### One lane's level -/

/-- A lane that takes level `lvl` at phase `ph` of this cycle. -/
def edged (s : State) (q l : Nat) (lvl : Bool) (ph : Nat) : Lane :=
  if (s.lane q l).lvl = lvl then s.lane q l
  else { s.lane q l with
    lvl := lvl, lvlCyc := some s.cycle, lvlPh := ph, edge := some ⟨s.cycle, lvl, s.now + BitVec.ofNat 64 (ph * s.span / 8)⟩ }

/-- Lane `l` has taken its level, and the pairs that watch it have seen the edge. -/
structure LaneEdged (s t : State) (q l : Nat) (lvl : Bool) (ph : Nat) : Prop where
  frame : ∃ lanes psqs, t = { s with lanes := lanes, psqs := psqs }
  psq : ∀ j, t.psq j = { s.psq j with rfx := (t.psq j).rfx }
  lane : ∀ j i, i < 8 → t.lane j i = if j = q ∧ i = l then edged s q l lvl ph else s.lane j i
  kept : ∀ j, ∀ y ∈ (s.psq j).rfx, y ∈ (t.psq j).rfx
  sees : ∀ r, r < 4 → (s.lane q l).lvl ≠ lvl → s.active = true → Watches s q l r lvl → ⟨s.cycle + 3, r, ph, lvl⟩ ∈ (t.psq q).rfx
  off : s.active = false → t.psqs = s.psqs

theorem laneEdge_same {s : State} {q l : Nat} {lvl : Bool} (ph : Nat) (same : (s.lane q l).lvl = lvl) : s.laneEdge q l lvl ph = s :=
  if_pos same

theorem laneEdge_new {s : State} {q l : Nat} {lvl : Bool} (ph : Nat) (new : (s.lane q l).lvl ≠ lvl) : s.laneEdge q l lvl ph =
    if s.active then (s.setLane q l (edged s q l lvl ph)).each (upto 4) (pairStep q l lvl ph)
    else s.setLane q l (edged s q l lvl ph) := by
  rw [edged, if_neg new]
  exact if_neg new

theorem laneEdge_edged (s : State) (q : Nat) {l : Nat} (hl : l < 8) (lvl : Bool) (ph : Nat) :
    LaneEdged s (s.laneEdge q l lvl ph) q l lvl ph := by
  by_cases same : (s.lane q l).lvl = lvl
  · rw [laneEdge_same ph same]
    refine ⟨⟨s.lanes, s.psqs, rfl⟩, fun _ => rfl, fun j i _ => ?_, fun _ _ => id, fun r _ new => absurd same new, fun _ => rfl⟩
    split
    · rename_i here
      rw [edged, if_pos same, here.1, here.2]
    · rfl
  · rw [laneEdge_new ph same]
    have lane (j i : Nat) (hi : i < 8) : (s.setLane q l (edged s q l lvl ph)).lane j i =
        if j = q ∧ i = l then edged s q l lvl ph else s.lane j i :=
      (setLane_lane s q l j i _).trans (if_congr (by omega) rfl rfl)
    cases on : s.active with
    | false =>
      rw [if_neg Bool.false_ne_true]
      exact ⟨⟨_, s.psqs, rfl⟩, fun _ => rfl, lane, fun _ _ => id, fun r _ _ active => absurd (on.symm.trans active) (by decide),
        fun _ => rfl⟩
    | true =>
      rw [if_pos rfl]
      obtain ⟨⟨psqs, frame⟩, psq, kept, sees⟩ := pairsSeen_all (s.setLane q l (edged s q l lvl ph)) q l lvl ph
      generalize (s.setLane q l (edged s q l lvl ph)).each (upto 4) (pairStep q l lvl ph) = t at *
      refine ⟨⟨_, psqs, frame⟩, psq, fun j i hi => ?_, kept, fun r hr _ _ w => sees r hr w, fun off => absurd (on.symm.trans off) (by decide)⟩
      rw [frame]
      exact lane j i hi

/-! ### The lanes that a pin's slots name -/

/-- A slot of pin `p` below `n` names lane `l` of sequencer `q`. -/
def NamedBelow (s : State) (p n q l : Nat) : Prop := ∃ j, j < n ∧ s.slotUser p j = (1, 8 * q + l)

/-- The lanes that slots below `n` name have taken the level that reaches them. -/
structure Refreshed (s t : State) (p ph n : Nat) : Prop where
  frame : ∃ lanes psqs, t = { s with lanes := lanes, psqs := psqs }
  psq : ∀ j, t.psq j = { s.psq j with rfx := (t.psq j).rfx }
  named : ∀ q l, l < 8 → NamedBelow s p n q l → t.lane q l = edged s q l (s.laneIn q l) ph
  unnamed : ∀ q l, l < 8 → ¬ NamedBelow s p n q l → t.lane q l = s.lane q l
  kept : ∀ j, ∀ y ∈ (s.psq j).rfx, y ∈ (t.psq j).rfx
  sees : ∀ q l r, l < 8 → r < 4 → NamedBelow s p n q l → (s.lane q l).lvl ≠ s.laneIn q l → s.active = true →
    Watches s q l r (s.laneIn q l) → ⟨s.cycle + 3, r, ph, s.laneIn q l⟩ ∈ (t.psq q).rfx
  off : s.active = false → t.psqs = s.psqs

theorem edged_lvl (s : State) (q l : Nat) (lvl : Bool) (ph : Nat) : (edged s q l lvl ph).lvl = lvl := by
  unfold edged
  split
  · assumption
  · rfl

/-- Slot `j` of pin `p` has its lane take the level that reaches it. -/
def slotStep (p ph : Nat) (s : State) (j : Nat) : State :=
  if (s.slotUser p j).1 = 1 then
    s.laneEdge ((s.slotUser p j).2 / 8) ((s.slotUser p j).2 % 8) (s.laneIn ((s.slotUser p j).2 / 8) ((s.slotUser p j).2 % 8)) ph
  else s

section
variable {s u : State} {p ph n : Nat}

/-- A slot that names no lane, or one already named, adds nothing. -/
theorem Refreshed.again (h : Refreshed s u p ph n) (same : ∀ q l, l < 8 → (NamedBelow s p (n + 1) q l ↔ NamedBelow s p n q l)) :
    Refreshed s u p ph (n + 1) :=
  ⟨h.frame, h.psq, fun q l hl named => h.named q l hl ((same q l hl).mp named),
    fun q l hl unnamed => h.unnamed q l hl fun named => unnamed ((same q l hl).mpr named), h.kept,
    fun q l r hl hr named => h.sees q l r hl hr ((same q l hl).mp named), h.off⟩

theorem namedBelow_succ {q l : Nat} : NamedBelow s p (n + 1) q l ↔ NamedBelow s p n q l ∨ s.slotUser p n = (1, 8 * q + l) := by
  constructor
  · rintro ⟨j, below, is⟩
    by_cases last : j = n
    · exact .inr (last ▸ is)
    · exact .inl ⟨j, by omega, is⟩
  · rintro (⟨j, below, is⟩ | is)
    · exact ⟨j, by omega, is⟩
    · exact ⟨n, by omega, is⟩

/-- A slot that names a lane for the first time has it take its level. -/
theorem Refreshed.lane {q l : Nat} (hl : l < 8) (h : Refreshed s u p ph n) (names : s.slotUser p n = (1, 8 * q + l))
    (fresh : ¬ NamedBelow s p n q l) : Refreshed s (u.laneEdge q l (s.laneIn q l) ph) p ph (n + 1) := by
  have edge := laneEdge_edged u q hl (s.laneIn q l) ph
  obtain ⟨⟨lanes, psqs, frame⟩, psq, named, unnamed, kept, sees, off⟩ := h
  have before := unnamed q l hl fresh
  have here : edged u q l (s.laneIn q l) ph = edged s q l (s.laneIn q l) ph := by
    unfold edged
    rw [before, frame]
    rfl
  have other (j i : Nat) (hi : i < 8) : NamedBelow s p (n + 1) j i ↔ NamedBelow s p n j i ∨ (j = q ∧ i = l) := by
    rw [namedBelow_succ, names, Prod.mk.injEq]
    exact or_congr_right (by omega)
  obtain ⟨⟨ls, ps, eq⟩, psq', lane, kept', sees', off'⟩ := edge
  generalize u.laneEdge q l (s.laneIn q l) ph = t at *
  refine ⟨⟨ls, ps, by rw [eq, frame]⟩, fun j => ?_, fun j i hi was => ?_, fun j i hi not => ?_, fun j y listed => kept' j y (kept j y listed),
    fun j i r hi hr was new on watches => ?_, fun passive => (off' ?_).trans (off passive)⟩
  · rw [psq' j, psq j]
  · rw [lane j i hi]
    split
    · rename_i is
      rw [here, is.1, is.2]
    · rename_i isNot
      exact named j i hi (((other j i hi).mp was).resolve_right isNot)
  · rw [lane j i hi, if_neg fun is => not ((other j i hi).mpr (.inr is))]
    exact unnamed j i hi fun was => not ((other j i hi).mpr (.inl was))
  · rcases (other j i hi).mp was with earlier | ⟨rfl, rfl⟩
    · exact kept' j _ (sees j i r hi hr earlier new on watches)
    · rw [before, frame] at sees'
      exact sees' r hr new on watches
  · rw [frame]
    exact passive

theorem refreshed_next (h : Refreshed s u p ph n) : Refreshed s (slotStep p ph u n) p ph (n + 1) := by
  obtain ⟨lanes, psqs, frame⟩ := h.frame
  have user : u.slotUser p n = s.slotUser p n := by rw [frame]; rfl
  have level (q l : Nat) : u.laneIn q l = s.laneIn q l := by rw [frame]; rfl
  rw [slotStep, user]
  by_cases lane : (s.slotUser p n).1 = 1
  · rw [if_pos lane, level]
    have eight : (s.slotUser p n).2 % 8 < 8 := Nat.mod_lt _ (by decide)
    have names : s.slotUser p n = (1, 8 * ((s.slotUser p n).2 / 8) + (s.slotUser p n).2 % 8) :=
      Prod.ext lane (Nat.div_add_mod _ _).symm
    generalize (s.slotUser p n).2 / 8 = q at *
    generalize (s.slotUser p n).2 % 8 = l at *
    by_cases was : NamedBelow s p n q l
    · have settled : (u.lane q l).lvl = s.laneIn q l := by rw [h.named q l eight was, edged_lvl]
      rw [laneEdge_same ph settled]
      refine h.again fun j i hi => ?_
      rw [namedBelow_succ, names, Prod.mk.injEq]
      refine or_iff_left_of_imp fun same => ?_
      obtain ⟨rfl, rfl⟩ : j = q ∧ i = l := by omega
      exact was
    · exact h.lane eight names was
  · rw [if_neg lane]
    refine h.again fun j i _ => ?_
    rw [namedBelow_succ]
    exact or_iff_left fun is => lane (congrArg Prod.fst is)

end

theorem refreshLanes_refreshed (s : State) (p ph : Nat) : Refreshed s (s.refreshLanes p ph) p ph 4 := by
  refine each_upto (P := fun n u => Refreshed s u p ph n) (f := slotStep p ph) ?_ fun n u _ h => refreshed_next h
  exact ⟨⟨s.lanes, s.psqs, rfl⟩, fun _ => rfl, fun q l _ ⟨j, below, _⟩ => absurd below (by omega), fun _ _ _ _ => rfl, fun _ _ => id,
    fun q l r _ _ ⟨j, below, _⟩ => absurd below (by omega), fun _ => rfl⟩

/-! ### LANE_EDGE (R268) -/

/-- The state in which pin `p` has taken its level. -/
def levelled (s : State) (p : Nat) (lvl : Bool) : State := s.setPin p { s.pin p with lvl := lvl, lvlCyc := some s.cycle }

section
variable {p : Byte} {lvl : Bool} {ph : BitVec 3} {s : State}

theorem laneEdge_idle (h : (s.pin p.toNat).lvl = lvl ∨ (s.pin p.toNat).lvlCyc = some s.cycle ∨ ¬ Answers s) : Idle (.laneEdge p lvl ph) s := by
  refine if_pos ?_
  rcases h with same | twice | off
  · exact .inl same
  · exact .inr (.inl twice)
  · by_cases isOff : s.mode = .off
    · exact .inr (.inr (.inl isOff))
    · exact .inr (.inr (.inr (not_not.mp fun not => off ⟨isOff, not⟩)))

theorem laneEdge_runs {q l r : Nat} (new : (s.pin p.toNat).lvl ≠ lvl) (once : (s.pin p.toNat).lvlCyc ≠ some s.cycle) (on : Answers s)
    (hl : l < 8) : Leads (.laneEdge p lvl ph) s fun t => t =
    { s with pins := t.pins, lanes := t.lanes, psqs := t.psqs } ∧
      OnlyAt p.toNat s.pin t.pin ∧ t.pin p.toNat = { s.pin p.toNat with lvl := lvl, lvlCyc := some s.cycle } ∧ t.psq q =
    { s.psq q with rfx := (t.psq q).rfx } ∧
      (¬ namesLane s p.toNat q l ∨ t.laneIn q l = (s.lane q l).lvl → t.lane q l = s.lane q l) ∧
      (namesLane s p.toNat q l → t.laneIn q l ≠ (s.lane q l).lvl → t.lane q l =
    { s.lane q l with lvl := t.laneIn q l, lvlCyc := some s.cycle, lvlPh := ph.toNat, edge := some ⟨s.cycle, t.laneIn q l, s.now + BitVec.ofNat 64 (ph.toNat * s.span / 8)⟩ }
    ∧
        (s.active = true → r < 4 → s.rb (.psqRfx q r) 31 = true → s.rf (.psqRfx q r) 2 0 = l → bit (s.reg (.psqRfx q r)) (if
    t.laneIn q l then 27 else 28) = true → ⟨s.cycle + 3, r, ph.toNat, t.laneIn q l⟩ ∈ (t.psq q).rfx)) ∧
      (s.active = false → t.psqs = s.psqs) := by
  have run : exec (.laneEdge p lvl ph) s = .next ((levelled s p.toNat lvl).refreshLanes p.toNat ph.toNat) :=
    if_neg (by rintro (same | twice | off | retained); exacts [new same, once twice, on.1 off, on.2 retained])
  refine ⟨_, run, ?_⟩
  have others (j : Nat) (hj : j ≠ p.toNat) := (setPin_pin s p.toNat j { s.pin p.toNat with lvl := lvl, lvlCyc := some s.cycle }).trans (if_neg hj)
  have here := (setPin_pin s p.toNat p.toNat { s.pin p.toNat with lvl := lvl, lvlCyc := some s.cycle }).trans (if_pos rfl)
  obtain ⟨⟨lanes, psqs, frame⟩, psq, named, unnamed, _, sees, off⟩ := refreshLanes_refreshed (levelled s p.toNat lvl) p.toNat ph.toNat
  have level : ((levelled s p.toNat lvl).refreshLanes p.toNat ph.toNat).laneIn q l = (levelled s p.toNat lvl).laneIn q l := by
    rw [frame]
    rfl
  generalize (levelled s p.toNat lvl).refreshLanes p.toNat ph.toNat = t at *
  have lane := named q l hl
  rw [← level] at lane
  refine ⟨by rw [frame]; rfl, ?_, ?_, psq q, fun h => ?_, fun names new => ⟨?_, fun active hr armed mine selected => ?_⟩, off⟩
  · rw [frame]
    exact others
  · rw [frame]
    exact here
  · by_cases names : namesLane s p.toNat q l
    · refine (lane names).trans ?_
      exact if_pos (h.resolve_left (not_not.mpr names)).symm
    · exact unnamed q l hl names
  · exact (lane names).trans (if_neg (Ne.symm new))
  · have seen := sees q l r hl hr names
    rw [← level] at seen
    exact seen (Ne.symm new) active ⟨armed, mine, selected⟩

end

end Sys2Proof.Proofs
end

section
/-! SUPPORT. Actions, edges, counters and reflexes as a whole. -/
namespace Sys2Proof.Proofs
open Sys2Proof.Machine Sys2Proof.Laws

/-- Settles O56: the actions by the first due one of the FIFO, the edges by what each slot and each counter makes of them. -/
theorem actionsEdgesAndCountersAct : Obligations.ActionsEdgesAndCountersAct := by
  unfold Obligations.ActionsEdgesAndCountersAct
  exact ⟨fun q s => action_idle, fun q s => actions_idle, fun q x y a l s => actionLevel_runs, fun q x y a l s => actionDrive_runs,
    fun q x y a s => actionTrig_runs, fun q x y a s => actionLoad_runs, fun p lvl ph s => laneEdge_idle,
    fun p lvl ph q l r s => laneEdge_runs, fun s q l p => laneIn_first, fun s q l => laneIn_none, fun q l s => edgeRecognised_idle,
    fun q l e s => edgeRecognised_waits, fun q l e c f b s => edgeRecognised_notes, fun q l e k s => edgeRecognised_counts,
    fun q k j x w s => counterTick_runs, fun q k x w s => counterTick_idle, fun q r x w j s => reflexFire_runs,
    fun q r x s => reflexFire_off, fun q r s => reflexFire_none, insertChg_eq, settleLane_settles, settleCaps_settles⟩

end Sys2Proof.Proofs
end

section
/-! SUPPORT. The command register of a sequencer (R271, R272) and the action it takes from the bus (R281, R282). -/
namespace Sys2Proof.Proofs
open Sys2Proof.Machine Sys2Proof.Laws

/-! ### Writes of a sequencer's registers -/

/-- A register that neither the Camin port nor the secure function reserves takes its write. -/
theorem write_free {s : State} {acc : Acc} {r : Reg} {v : Word} {x y z : State × Nat} (camin : (r.caminOnly || r.caminCmd v) = false)
    (bars : s.secureBars acc r v = false) :
    (if (r.caminOnly = true ∨ r.caminCmd v = true) ∧ acc.path ≠ .camin then x else if s.secureBars acc r v = true then y else z) = z := by
  have unreserved : ¬ (r.caminOnly = true ∨ r.caminCmd v = true) := by rw [← Bool.or_eq_true, camin]; exact Bool.false_ne_true
  rw [if_neg fun h => unreserved h.1, bars, if_neg Bool.false_ne_true]

section
variable (s : State) (acc : Acc) (q : Nat) (v : Word) (da : Nat)

theorem writeReg_psqCmd : s.writeReg acc (.psqCmd q) v da = s.command acc da (s.psqCommand q (fld v 1 0)) :=
  write_free rfl (Bool.and_false _)

theorem writeReg_psqPdata : s.writeReg acc (.psqPdata q) v da = s.writeProg acc q v := write_free rfl (Bool.and_false _)

theorem writeReg_psqActLo : s.writeReg acc (.psqActLo q) v da = (s.setPsq q { s.psq q with actLo := v }, 0) :=
  write_free rfl (Bool.and_false _)

theorem writeReg_psqActHi : s.writeReg acc (.psqActHi q) v da = s.offerAction acc q (mk64 v (s.psq q).actLo) da :=
  write_free rfl (Bool.and_false _)

theorem writeReg_psqTrig : s.writeReg acc (.psqTrig q) v da = (s.setTrig q (v.setWidth 8), 0) := write_free rfl (Bool.and_false _)

end

/-! ### START (R271) -/

section
variable (s : State) (q : Nat)

theorem psqCommand_start : s.psqCommand q 1 =
    if s.active = true ∧ (s.psq q).st = .stopped then (s.psqStart q (some s.cycle), true) else (s, false) := by
  unfold State.psqCommand
  dsimp only
  rw [if_neg (show ¬ (1 = 2 ∧ (s.psq q).st ≠ .stopped) from fun h => absurd h.1 (by decide))]
  exact if_congr (and_iff_right rfl) rfl rfl

theorem psqCommand_stop : s.psqCommand q 2 = if (s.psq q).st ≠ .stopped then (s.psqHalt q true, true) else (s, false) := by
  unfold State.psqCommand
  dsimp only
  rw [if_neg (show ¬ (2 = 1 ∧ s.active = true ∧ (s.psq q).st = .stopped) from fun h => absurd h.1 (by decide))]
  exact if_congr (and_iff_right rfl) rfl rfl

/-- The record of a sequencer that starts. -/
def startRecord (ran : Option Nat) : Psq :=
  { s.psq q with
    st := .running, pc := BitVec.ofNat 8 (s.rf (.psqCtl q) 7 0), dly := none, ran := ran, sh0 := ⟨0, 0, 0⟩, sh1 := ⟨0, 0, 0⟩ }

/-- A lane of a sequencer that starts. -/
def startLane (l : Nat) : Lane :=
  { s.lane q l with ov := s.rb (.psqLcfg q l) 27, oe := s.rb (.psqLcfg q l) 28, chg := [] }

/-- The lanes below `n` have taken LVI and OEI. -/
structure LanesStarted (t : State) (n : Nat) : Prop where
  frame : ∃ lanes, t = { s.setPsq q (t.psq q) with lanes := lanes }
  beside : ∀ j i, j ≠ q → i < 8 → t.lane j i = s.lane j i
  lane : ∀ l, l < 8 → t.lane q l = if l < n then startLane s q l else s.lane q l

end

theorem lanesStarted_next {s u : State} {q n : Nat} (hn : n < 8) (h : LanesStarted s q u n) :
    LanesStarted s q (u.setLane q n { u.lane q n with ov := u.rb (.psqLcfg q n) 27, oe := u.rb (.psqLcfg q n) 28, chg := [] }) (n + 1) := by
  obtain ⟨⟨lanes, frame⟩, beside, lane⟩ := h
  have reg : u.reg (.psqLcfg q n) = s.reg (.psqLcfg q n) := by rw [frame]; rfl
  have started : ({ u.lane q n with ov := u.rb (.psqLcfg q n) 27, oe := u.rb (.psqLcfg q n) 28, chg := [] } : Lane) = startLane s q n := by
    rw [State.rb, State.rb, reg, lane n hn, if_neg (Nat.lt_irrefl n)]
    rfl
  rw [started]
  refine ⟨⟨(u.setLane q n (startLane s q n)).lanes, congrArg (fun v => { v with lanes := (u.setLane q n (startLane s q n)).lanes }) frame⟩,
    fun j i other hi => ?_, fun l hl => ?_⟩
  · rw [setLane_lane, if_neg (by omega)]
    exact beside j i other hi
  · rw [setLane_lane_at]
    by_cases same : l = n
    · rw [if_pos same, if_pos (by omega), same]
    · rw [if_neg same, lane l hl]
      exact if_congr (by omega) rfl rfl

theorem psqStart_started (s : State) (q : Nat) (ran : Option Nat) :
    (s.psqStart q ran).psq q = startRecord s q ran ∧ LanesStarted s q (s.psqStart q ran) 8 := by
  have psq := setPsq_psq_self s q (startRecord s q ran)
  have all : (s.psqStart q ran).psq q = startRecord s q ran ∧ LanesStarted s q (s.psqStart q ran) 8 := by
    refine each_upto (P := fun n u => u.psq q = startRecord s q ran ∧ LanesStarted s q u n)
      (s := s.setPsq q (startRecord s q ran)) ⟨psq, ?_⟩ fun n u hn h => ⟨h.1, lanesStarted_next hn h.2⟩
    exact ⟨⟨s.lanes, by rw [psq]; rfl⟩, fun _ _ _ _ => rfl, fun l _ => (if_neg (by omega)).symm⟩
  exact all

section
variable {acc : Acc} {q : BitVec 6} {s : State}

theorem psqCmd_inRange (q : BitVec 6) : (Reg.psqCmd q.toNat).inRange = true := decide_eq_true q.isLt

theorem put_psqCmd (h : Open s acc) (q : BitVec 6) {c : Nat} (hc : c < 4) :
    s.put acc (.psqCmd q.toNat) c = (s.command acc (Reg.psqCmd q.toNat).off (s.psqCommand q.toNat c)).1 := by
  have cmd : fld (BitVec.ofNat 32 c) 1 0 = c := by
    rw [fld, natFld, BitVec.toNat_ofNat]
    omega
  rw [put_open h (psqCmd_inRange q) (by simp only [Reg.off, psqBase]; omega), writeReg_psqCmd, cmd]

theorem psqStart_runs (h : Open s acc) (on : s.active = true) (stopped : (s.psq q.toNat).st = .stopped) : Leads (.psqStart
    acc q) s fun t => t = { s with psqs := t.psqs, lanes := t.lanes } ∧ PsqFrame s t q.toNat ∧
      t.psq q.toNat =
    { s.psq q.toNat with st := .running, pc := BitVec.ofNat 8 (s.rf (.psqCtl q.toNat) 7 0), dly := none, ran := some s.cycle, sh0 := ⟨0, 0, 0⟩, sh1 := ⟨0, 0, 0⟩ }
    ∧
      ∀ l, l < 8 → t.lane q.toNat l =
    { s.lane q.toNat l with ov := s.rb (.psqLcfg q.toNat l) 27, oe := s.rb (.psqLcfg q.toNat l) 28, chg := [] } := by
  have run : exec (.psqStart acc q) s = .next (s.psqStart q.toNat (some s.cycle)) := by
    refine congrArg Host.Outcome.next ((put_psqCmd h q (by decide)).trans ?_)
    rw [psqCommand_start, if_pos ⟨on, stopped⟩, command_accepted]
  obtain ⟨psq, ⟨lanes, frame⟩, beside, lane⟩ := psqStart_started s q.toNat (some s.cycle)
  refine ⟨_, run, ?_⟩
  generalize s.psqStart q.toNat (some s.cycle) = t at *
  have whole : t = { s with psqs := t.psqs, lanes := t.lanes } := by rw [frame]; rfl
  refine ⟨whole, ⟨by rw [frame]; rfl, ?_, beside⟩, psq, fun l hl => (lane l hl).trans (if_pos hl)⟩
  rw [frame]
  exact setPsq_onlyAt s q.toNat _

theorem psqStart_refused (h : Open s acc) (bars : s.active = false ∨ (s.psq q.toNat).st ≠ .stopped) :
    exec (.psqStart acc q) s = .next (refusal s acc 0x60 (Reg.psqCmd q.toNat).off) := by
  refine congrArg Host.Outcome.next ((put_psqCmd h q (by decide)).trans ?_)
  rw [psqCommand_start, if_neg, command_refused h]
  rintro ⟨on, stopped⟩
  exact bars.elim (fun off => absurd (on.symm.trans off) (by decide)) fun other => other stopped

/-! ### STOP (R272) -/

theorem psqStop_runs (h : Open s acc) (going : (s.psq q.toNat).st ≠ .stopped) : Leads (.psqStop acc q) s fun t => t
    = { s with psqs := t.psqs, regs := t.regs } ∧ OnlyAt q.toNat s.psq t.psq ∧
      t.psq q.toNat = { s.psq q.toNat with st := .stopped, dly := none, stopping := false } ∧ RegsBut [.psqCnt q.toNat 0,
    .psqCnt q.toNat 1] s t ∧
      ∀ k, k < 2 → t.rb (.psqCnt q.toNat k) 31 = false ∧ t.rf (.psqCnt q.toNat k) 30 0 = s.rf (.psqCnt q.toNat k) 30 0 := by
  have run : exec (.psqStop acc q) s = .next (s.psqHalt q.toNat true) := by
    refine congrArg Host.Outcome.next ((put_psqCmd h q (by decide)).trans ?_)
    rw [psqCommand_stop, if_pos going, command_accepted]
  refine ⟨_, run, ?_⟩
  rw [State.psqHalt, if_pos rfl]
  generalize ({ s.psq q.toNat with st := .stopped, dly := none, stopping := false } : Psq) = p
  have only := stopCounters_onlyRegs (s.setPsq q.toNat p) q.toNat
  have counters := fun k hk => stopped_counter (s.setPsq q.toNat p) q.toNat (k := k) (stopCounters_reg (s.setPsq q.toNat p) q.toNat hk)
  generalize (s.setPsq q.toNat p).stopCounters q.toNat = t at *
  obtain ⟨⟨regs, rfl⟩, others⟩ := only
  exact ⟨rfl, setPsq_onlyAt s q.toNat p, setPsq_psq_self s q.toNat p, others, counters⟩

theorem psqStop_refused (h : Open s acc) (stopped : (s.psq q.toNat).st = .stopped) :
    exec (.psqStop acc q) s = .next (refusal s acc 0x60 (Reg.psqCmd q.toNat).off) := by
  refine congrArg Host.Outcome.next ((put_psqCmd h q (by decide)).trans ?_)
  rw [psqCommand_stop, if_neg (not_not.mpr stopped), command_refused h]

end

end Sys2Proof.Proofs
end

section
/-! SUPPORT. An action offered by the host (R281, R282), and the ports of a sequencer (R285, R290, R294, R295). -/
namespace Sys2Proof.Proofs
open Sys2Proof.Machine Sys2Proof.Laws

/-! ### The encoding of an action (Table 88) -/

theorem natFld_eq (a : DWord) (hi lo : Nat) (v : BitVec (hi + 1 - lo)) :
    a.extractLsb' lo (hi + 1 - lo) = v ↔ natFld a.toNat hi lo = v.toNat := by
  rw [natFld_extract, BitVec.toNat_inj]

theorem actBad_iff (a : DWord) : actBad a = false ↔ ActValid a := by
  have reserved : a.extractLsb' 59 2 = 0 ↔ natFld a.toNat 60 59 = 0 := natFld_eq a 60 59 0
  have kind (k : BitVec 3) : a.extractLsb' 61 3 = k ↔ natFld a.toNat 63 61 = k.toNat := natFld_eq a 63 61 k
  have target : a.extractLsb' 56 3 = 0 ↔ natFld a.toNat 58 56 = 0 := natFld_eq a 58 56 0
  have mask : a.extractLsb' 48 8 = 0 ↔ natFld a.toNat 55 48 = 0 := natFld_eq a 55 48 0
  have upper : a.extractLsb' 40 8 = 0 ↔ natFld a.toNat 47 40 = 0 := natFld_eq a 47 40 0
  have value : a.extractLsb' 32 16 = 0 ↔ natFld a.toNat 47 32 = 0 := natFld_eq a 47 32 0
  unfold actBad ActValid
  rw [reserved, kind, kind, kind, kind, target, mask, upper, value, Ne, mask]
  simp only [Bool.or_eq_false_iff, Bool.and_eq_false_iff, bne_eq_false_iff_eq, beq_eq_false_iff_ne, decide_eq_false_iff_not, ne_eq,
    BitVec.reduceToNat]
  omega

/-! ### ACTION_OFFER_HOST (R282) -/

section
variable {acc : Acc} {q : BitVec 6} {act : DWord} {s : State}

/-- The state in which PSQ_ACT_LO holds the low word of the action. -/
def staged (s : State) (q : Nat) (act : DWord) : State := s.setPsq q { s.psq q with actLo := lo32 act }

theorem psqActLo_inRange (q : BitVec 6) : (Reg.psqActLo q.toNat).inRange = true := decide_eq_true q.isLt
theorem psqActHi_inRange (q : BitVec 6) : (Reg.psqActHi q.toNat).inRange = true := decide_eq_true q.isLt

theorem psqActHi_off (q : Nat) : (Reg.psqActLo q).off + 4 = (Reg.psqActHi q).off := by
  simp only [Reg.off]

theorem wideDa_psqActLo (q : BitVec 6) : wideDa (Reg.psqActLo q.toNat).off = (Reg.psqActLo q.toNat).off := by
  unfold wideDa
  rw [psqActHi_off, regAt_off (psqActHi_inRange q) (by simp only [Reg.off, psqBase]; omega)]

theorem actionOfferHost_eq (h : Open s acc) (q : BitVec 6) (act : DWord) : exec (.actionOfferHost acc q act) s =
    .next ((staged s q.toNat act).offerAction acc q.toNat act (Reg.psqActLo q.toNat).off).1 := by
  have opened : Open (staged s q.toNat act) acc := h
  have low : 0x100 ≤ (Reg.psqActLo q.toNat).off := by simp only [Reg.off, psqBase]; omega
  have high : 0x100 ≤ (Reg.psqActHi q.toNat).off := by simp only [Reg.off, psqBase]; omega
  refine congrArg Host.Outcome.next ((busWrite_b64 h.2.1 (reaches_open h _) (by simp only [Reg.off, psqBase]; omega) act).trans ?_)
  rw [write32_open h (psqActLo_inRange q) low, writeReg_psqActLo, psqActHi_off, wideDa_psqActLo]
  refine congrArg Prod.fst ((write32_open opened (psqActHi_inRange q) high _ _).trans ?_)
  rw [writeReg_psqActHi, staged, setPsq_psq_self, mk64_halves]

theorem actionOfferHost_refused (h : Open s acc) (bars : s.mode = .configure ∨ ¬ ActValid act) : exec
    (.actionOfferHost acc q act) s = .next (refusal (s.setPsq q.toNat { s.psq q.toNat with actLo := lo32 act }) acc 0x60
    (Reg.psqActLo q.toNat).off) := by
  have opened : Open (staged s q.toNat act) acc := h
  rw [actionOfferHost_eq h, State.offerAction, if_pos, refuse_open opened]
  · rfl
  · refine bars.imp_right fun invalid => ?_
    rw [← actBad_iff, Bool.not_eq_false] at invalid
    exact invalid

theorem reached_iff (t x : Word) : reached t x = true ↔ (t - x).toNat < 2 ^ 31 := atOrAfter_iff t x

theorem actionOfferHost_accepted (h : Open s acc) (notConfigure : s.mode ≠ .configure) (valid : ActValid act) :
    exec (.actionOfferHost acc q act) s = .next (if (lo32 s.nextTime - lo32 act).toNat < 2 ^ 31
      then (staged s q.toNat act).actionLate q.toNat act 0 else ((staged s q.toNat act).queueAction q.toNat act).1) := by
  have accepted : ¬ ((staged s q.toNat act).mode = .configure ∨ actBad act = true) := by
    rw [(actBad_iff act).mpr valid]
    exact fun bars => bars.elim notConfigure Bool.false_ne_true
  rw [actionOfferHost_eq h, State.offerAction, if_neg accepted, apply_ite Prod.fst]
  exact congrArg _ (if_congr (reached_iff _ _) rfl rfl)

/-- A count field of PSQ_ACNT counts one, saturating, and every other field of it stays. -/
theorem counted_field (s : State) (r : Reg) {hi lo : Nat} (hh : hi < 32) : OnlyRegs [r] s (s.bumpRf r hi lo 1) ∧
    (s.bumpRf r hi lo 1).rf r hi lo = min (s.rf r hi lo + 1) (2 ^ (hi + 1 - lo) - 1) ∧
    ∀ h l, h < 32 → h < lo ∨ hi < l → (s.bumpRf r hi lo 1).rf r h l = s.rf r h l := by
  refine ⟨setReg_onlyRegs s (List.mem_singleton_self r) _, ?_, fun h l small apart => ?_⟩
  · rw [State.rf, State.bumpRf, setReg_reg_self]
    exact fld_satFld 1 hh
  · rw [State.rf, State.bumpRf, setReg_reg_self, satFld]
    exact fld_setFld_apart small apart

theorem actionOfferHost_late (h : Open s acc) (notConfigure : s.mode ≠ .configure) (valid : ActValid act)
    (late : (lo32 s.nextTime - lo32 act).toNat < 2 ^ 31) : Leads (.actionOfferHost acc q act) s fun t => t =
    { s with psqs := t.psqs, regs := t.regs, reports := t.reports } ∧
      OnlyAt q.toNat s.psq t.psq ∧ t.psq q.toNat = { s.psq q.toNat with actLo := lo32 act } ∧ RegsBut [.psqAcnt q.toNat] s t ∧
      t.rf (.psqAcnt q.toNat) 23 16 = min (s.rf (.psqAcnt q.toNat) 23 16 + 1) 255 ∧ t.rf (.psqAcnt q.toNat) 31 24 = s.rf
    (.psqAcnt q.toNat) 31 24 ∧
      t.rf (.psqAcnt q.toNat) 15 0 = s.rf (.psqAcnt q.toNat) 15 0 ∧ t.reports = s.reports ++ [⟨s.cycle + 1, 0x12, 3, q.toNat,
    lo32 act, 0, false⟩] := by
  have run := actionOfferHost_accepted (q := q) h notConfigure valid
  rw [if_pos late] at run
  refine ⟨_, run, ?_⟩
  obtain ⟨⟨⟨regs, frame⟩, others⟩, count, rest⟩ :=
    counted_field (staged s q.toNat act) (.psqAcnt q.toNat) (hi := 23) (lo := 16) (by decide)
  rw [State.actionLate]
  generalize (staged s q.toNat act).bumpRf (.psqAcnt q.toNat) 23 16 1 = u at *
  subst frame
  rw [report_open (s := { staged s q.toNat act with regs := regs }) (acc := acc) h]
  have upper := rest 31 24 (by decide) (by decide)
  have lower := rest 15 0 (by decide) (by decide)
  exact ⟨rfl, setPsq_onlyAt s q.toNat { s.psq q.toNat with actLo := lo32 act },
    setPsq_psq_self s q.toNat { s.psq q.toNat with actLo := lo32 act }, others, count, upper, lower, rfl⟩

theorem actionOfferHost_early (h : Open s acc) (notConfigure : s.mode ≠ .configure) (valid : ActValid act)
    (early : 2 ^ 31 ≤ (lo32 s.nextTime - lo32 act).toNat) : Leads (.actionOfferHost acc q act) s fun t =>
    t = { s with psqs := t.psqs, regs := t.regs } ∧
      OnlyAt q.toNat s.psq t.psq ∧ RegsBut [.psqAcnt q.toNat] s t ∧ t.rf (.psqAcnt q.toNat) 31 16 = s.rf (.psqAcnt q.toNat) 31
    16 ∧ t.rf (.psqAcnt q.toNat) 7 0 = s.rf (.psqAcnt q.toNat) 7 0 ∧
      ((s.psq q.toNat).fifo.length + (s.psq q.toNat).rsvd < 64 → t.psq q.toNat =
    { s.psq q.toNat with actLo := lo32 act, fifo := (s.psq q.toNat).fifo ++ [act] } ∧ t.regs = s.regs) ∧
      (64 ≤ (s.psq q.toNat).fifo.length + (s.psq q.toNat).rsvd → t.psq q.toNat = { s.psq q.toNat with actLo := lo32 act } ∧
    t.rf (.psqAcnt q.toNat) 15 8 = min (s.rf (.psqAcnt q.toNat) 15 8 + 1) 255) := by
  have run := actionOfferHost_accepted (q := q) h notConfigure valid
  rw [if_neg (by omega)] at run
  refine ⟨_, run, ?_⟩
  rw [State.queueAction]
  dsimp only
  rw [staged, setPsq_psq_self]
  by_cases room : (s.psq q.toNat).fifo.length + (s.psq q.toNat).rsvd < 64
  · rw [if_pos room]
    dsimp only
    rw [setPsq_setPsq]
    exact ⟨rfl, setPsq_onlyAt s q.toNat _, fun _ _ => rfl, rfl, rfl, fun _ => ⟨setPsq_psq_self s q.toNat _, rfl⟩,
      fun full => absurd room (by omega)⟩
  · rw [if_neg room]
    obtain ⟨⟨⟨regs, frame⟩, others⟩, count, rest⟩ :=
      counted_field (staged s q.toNat act) (.psqAcnt q.toNat) (hi := 15) (lo := 8) (by decide)
    rw [staged] at *
    dsimp only
    generalize (s.setPsq q.toNat { s.psq q.toNat with actLo := lo32 act }).bumpRf (.psqAcnt q.toNat) 15 8 1 = u at *
    subst frame
    have upper := rest 31 16 (by decide) (by decide)
    have lower := rest 7 0 (by decide) (by decide)
    exact ⟨rfl, setPsq_onlyAt s q.toNat _, others, upper, lower, fun less => absurd less room,
      fun _ => ⟨setPsq_psq_self s q.toNat { s.psq q.toNat with actLo := lo32 act }, count⟩⟩

end

end Sys2Proof.Proofs
end

section
/-! SUPPORT. The ports of a sequencer (R285, R294), its trigger bits (R295), and the end of a cycle's value writes (R290). -/
namespace Sys2Proof.Proofs
open Sys2Proof.Machine Sys2Proof.Laws

/-! ### Ports -/

theorem portReach_active {s : State} {g q : Nat} (h : s.portReach g q = true) : s.active = true := (Bool.and_eq_true_iff.mp h).1

/-- A port write that the sequencer refuses is reported with the thread and its PC (R108, R294). -/
theorem portPut_refused {s : State} {g q port : Nat} {v : DWord} (on : s.active = true) (refused : s.portWrite q port v = (s, false)) :
    s.portPut g q port v = { s with reports := s.reports ++ [⟨s.cycle + 1, 0x60, 0, g, (s.thr g).pc, 0x102, false⟩] } := by
  rw [State.portPut, refused]
  exact report_answers (active_answers on) _ _ _ _ _ _

theorem portPut_accepted {s t : State} {g q port : Nat} {v : DWord} (accepted : s.portWrite q port v = (t, true)) :
    s.portPut g q port v = t := by
  rw [State.portPut, accepted]

section
variable {s : State} {q : Nat}

theorem portWrite_shift (k : BitVec 1) (v : DWord) : s.portWrite q (4 + k.toNat) v = s.writeSh q k.toNat v := by
  have small := k.isLt
  generalize k.toNat = n at *
  obtain rfl | rfl : n = 0 ∨ n = 1 := by omega
  · rfl
  · rfl

theorem portWrite_value (val : Word) : s.portWrite q 7 (val.setWidth 64) =
    if fld val 31 19 = 0 then (s.setPsq q { s.psq q with vq := (s.psq q).vq ++ [⟨1, fld val 18 16, val.setWidth 16⟩] }, true)
    else (s, false) := by
  have same : (val.setWidth 64).toNat = val.toNat := BitVec.toNat_setWidth_of_le (by decide)
  have low : BitVec.ofNat 16 (val.toNat % 0x10000) = val.setWidth 16 := by
    refine BitVec.eq_of_toNat_eq ?_
    rw [BitVec.toNat_ofNat, BitVec.toNat_setWidth, Nat.mod_mod]
  have port : s.portWrite q 7 (val.setWidth 64) = if natFld (val.setWidth 64).toNat 31 19 = 0 then
      (s.vwrite q 1 (natFld (val.setWidth 64).toNat 18 16) ((val.setWidth 64).toNat % 0x10000), true) else (s, false) := rfl
  rw [port, same, State.vwrite, low]
  rfl

end

section
variable {g : Tid} {q : BitVec 6} {k : BitVec 1} {s : State}

theorem shiftRegisterWrite_out {val : DWord} (reach : s.portReach g.toNat q.toNat = true) (out : s.rb (.psqShcfg q.toNat k.toNat) 31 = false) :
    exec (.shiftRegisterWrite g q k val) s =
      .next (s.setSh q.toNat k.toNat ⟨val, s.rf (.psqShcfg q.toNat k.toNat) 6 0, s.cycle + 1⟩) := by
  refine congrArg Host.Outcome.next ((if_pos reach).trans (portPut_accepted ((portWrite_shift k val).trans ?_)))
  rw [State.writeSh, out, if_neg Bool.false_ne_true]
  rfl

theorem shiftRegisterWrite_in {val : DWord} (reach : s.portReach g.toNat q.toNat = true) (into : s.rb (.psqShcfg q.toNat k.toNat) 31 = true) :
    exec (.shiftRegisterWrite g q k val) s = .next
      { s with reports := s.reports ++ [⟨s.cycle + 1, 0x60, 0, g.toNat, (s.thr g.toNat).pc, 0x102, false⟩] } := by
  refine congrArg Host.Outcome.next ((if_pos reach).trans (portPut_refused (portReach_active reach) ((portWrite_shift k val).trans ?_)))
  rw [State.writeSh, if_pos into]

theorem shiftRegisterRead_clears (reach : s.portReach g.toNat q.toNat = true) (into : s.rb (.psqShcfg q.toNat k.toNat) 31 = true)
    (full : (s.sh q.toNat k.toNat).bits = s.rf (.psqShcfg q.toNat k.toNat) 6 0) (due : (s.sh q.toNat k.toNat).since ≤ s.cycle) :
    exec (.shiftRegisterRead g q k) s = .next (s.setSh q.toNat k.toNat ⟨0, 0, s.cycle + 1⟩) := by
  refine congrArg Host.Outcome.next ((if_pos reach).trans ?_)
  rw [State.readSh, if_pos ⟨into, full, due⟩]

theorem shiftRegisterRead_idle (h : s.portReach g.toNat q.toNat = false ∨ s.rb (.psqShcfg q.toNat k.toNat) 31 = false ∨
    (s.sh q.toNat k.toNat).bits ≠ s.rf (.psqShcfg q.toNat k.toNat) 6 0 ∨ s.cycle < (s.sh q.toNat k.toNat).since) :
    Idle (.shiftRegisterRead g q k) s := by
  refine congrArg Host.Outcome.next ?_
  rcases h with far | rest
  · exact if_neg (ne_true_of_eq_false far)
  · have keeps : (s.readSh q.toNat k.toNat).1 = s := by
      rw [State.readSh, if_neg]
      rintro ⟨into, full, due⟩
      rcases rest with out | other | early
      · exact absurd (into.symm.trans out) (by decide)
      · exact other full
      · omega
    rw [keeps, ite_self]

theorem valueSetPort_runs {val : Word} (reach : s.portReach g.toNat q.toNat = true) (valid : fld val 31 19 = 0) :
    exec (.valueSetPort g q val) s = .next (s.setPsq q.toNat
      { s.psq q.toNat with vq := (s.psq q.toNat).vq ++ [⟨1, fld val 18 16, val.setWidth 16⟩] }) :=
  congrArg Host.Outcome.next ((if_pos reach).trans (portPut_accepted ((portWrite_value val).trans (if_pos valid))))

theorem valueSetPort_refused {val : Word} (reach : s.portReach g.toNat q.toNat = true) (bad : fld val 31 19 ≠ 0) :
    exec (.valueSetPort g q val) s = .next
      { s with reports := s.reports ++ [⟨s.cycle + 1, 0x60, 0, g.toNat, (s.thr g.toNat).pc, 0x102, false⟩] } :=
  congrArg Host.Outcome.next ((if_pos reach).trans
    (portPut_refused (portReach_active reach) ((portWrite_value val).trans (if_neg bad))))

theorem ports_idle {v : DWord} {w : Word} {m : Byte} (far : s.portReach g.toNat q.toNat = false) :
    Idle (.shiftRegisterWrite g q k v) s ∧ Idle (.valueSetPort g q w) s ∧ Idle (.triggerBitsSet (.thread g) q m) s :=
  ⟨congrArg _ (if_neg (ne_true_of_eq_false far)), congrArg _ (if_neg (ne_true_of_eq_false far)),
    congrArg _ (if_neg (ne_true_of_eq_false far))⟩

/-! ### Trigger bits -/

/-- The trigger bits of a mask are set: all show them, an instruction of this cycle does not. -/
theorem setTrig_sets (s : State) (q : Nat) (mask : Byte) : let t := s.setTrig q mask
    t = { s with psqs := t.psqs } ∧ OnlyAt q s.psq t.psq ∧
      t.psq q = { s.psq q with trig := (t.psq q).trig, trigNew := (t.psq q).trigNew, trigCyc := s.cycle } ∧
      t.trigAll q = s.trigAll q ||| mask ∧ t.trigSeen q = s.trigSeen q := by
  have rest := setTrigs_rest (s.psq q) s.cycle mask
  have now := setTrigs_now (s.psq q) s.cycle mask
  have all := setTrigs_all (s.psq q) s.cycle mask
  rw [setTrig_eq]
  refine ⟨rfl, setPsq_onlyAt s q _, ?_, ?_, ?_⟩
  · rw [setPsq_psq_self]
    exact rest
  · rw [setPsq_trigAll]
    exact all
  · rw [setPsq_trigSeen]
    exact now

theorem setWidth_there_back (mask : Byte) {n : Nat} (h : 8 ≤ n) : (mask.setWidth n).setWidth 8 = mask := by
  refine BitVec.eq_of_getLsbD_eq fun i hi => ?_
  rw [BitVec.getLsbD_setWidth, BitVec.getLsbD_setWidth, decide_eq_true hi, decide_eq_true (by omega), Bool.true_and, Bool.true_and]

theorem triggerBitsSet_thread {src : PortSrc} {mask : Byte} (from_ : src = .thread g) (reach : s.portReach g.toNat q.toNat = true) :
    Leads (.triggerBitsSet src q mask) s fun t => t = { s with psqs := t.psqs } ∧ OnlyAt q.toNat s.psq t.psq ∧
      t.psq q.toNat =
    { s.psq q.toNat with trig := (t.psq q.toNat).trig, trigNew := (t.psq q.toNat).trigNew, trigCyc := s.cycle } ∧
      t.trigAll q.toNat = s.trigAll q.toNat ||| mask ∧ t.trigSeen q.toNat = s.trigSeen q.toNat := by
  subst from_
  have port : s.portWrite q.toNat 3 (mask.setWidth 64) = (s.setTrig q.toNat mask, true) := by
    have sets : s.portWrite q.toNat 3 (mask.setWidth 64) = (s.setTrig q.toNat ((mask.setWidth 64).setWidth 8), true) := rfl
    rw [sets, setWidth_there_back mask (by decide)]
  exact ⟨_, congrArg Host.Outcome.next ((if_pos reach).trans (portPut_accepted port)), setTrig_sets s q.toNat mask⟩

theorem triggerBitsSet_bus {src : PortSrc} {mask : Byte} {acc : Acc} (from_ : src = .bus acc) (h : Open s acc) :
    Leads (.triggerBitsSet src q mask) s fun t => t = { s with psqs := t.psqs } ∧ OnlyAt q.toNat s.psq t.psq ∧
      t.psq q.toNat =
    { s.psq q.toNat with trig := (t.psq q.toNat).trig, trigNew := (t.psq q.toNat).trigNew, trigCyc := s.cycle } ∧
      t.trigAll q.toNat = s.trigAll q.toNat ||| mask ∧ t.trigSeen q.toNat = s.trigSeen q.toNat := by
  subst from_
  have inRange : (Reg.psqTrig q.toNat).inRange = true := decide_eq_true q.isLt
  have word : (BitVec.ofNat 32 mask.toNat).setWidth 8 = mask := by
    rw [BitVec.ofNat_toNat]
    exact setWidth_there_back mask (by decide)
  have put : s.put acc (.psqTrig q.toNat) mask.toNat = s.setTrig q.toNat mask := by
    rw [put_open h inRange (by simp only [Reg.off, psqBase]; omega), writeReg_psqTrig, word]
  exact ⟨_, congrArg Host.Outcome.next put, setTrig_sets s q.toNat mask⟩

end

/-! ### The value writes of a cycle (R290) -/

/-- The writes of VN among some writes of a cycle: the last one counts. -/
def lastWrite (ws : List VWrite) (n : Nat) : Option Nat := ((ws.filter fun w => w.reg == n).getLast?).map fun w => w.val.toNat

theorem lastWrite_append (ws : List VWrite) (w : VWrite) (n : Nat) :
    lastWrite (ws ++ [w]) n = if w.reg = n then some w.val.toNat else lastWrite ws n := by
  unfold lastWrite
  rw [List.filter_append]
  by_cases mine : w.reg = n
  · simp [mine]
  · simp [mine]

/-- The writes `ws` have taken effect, and nothing else. -/
structure ValuesWritten (s t : State) (q : Nat) (ws : List VWrite) : Prop where
  psqs : t.psqs = s.psqs
  value : ∀ n, n < 8 → t.vreg q n = (lastWrite ws n).getD (s.vreg q n)

/-- One write takes effect. -/
def writeValue (q : Nat) (s : State) (w : VWrite) : State := s.setRf (.psqV q w.reg) 15 0 w.val.toNat

theorem writeValue_vreg (s : State) (q n : Nat) (w : VWrite) :
    (writeValue q s w).vreg q n = if w.reg = n then w.val.toNat else s.vreg q n := by
  unfold State.vreg writeValue
  split
  · rename_i same
    rw [← same]
    exact setRf_rf_self (by decide) w.val.isLt
  · rename_i other
    have apart : (Reg.psqV q n).off ≠ (Reg.psqV q w.reg).off := by
      simp only [Reg.off]
      omega
    exact congrArg (fld · 15 0) (setReg_reg_other s _ apart)

theorem valuesWritten (s : State) (q : Nat) (ws : List VWrite) : ValuesWritten s (s.each ws (writeValue q)) q ws := by
  induction ws using List.reverseRecOn with
  | nil => exact ⟨rfl, fun _ _ => rfl⟩
  | append_singleton ws w ih =>
    have last : s.each (ws ++ [w]) (writeValue q) = writeValue q (s.each ws (writeValue q)) w := by
      unfold State.each
      rw [List.foldl_append]
      rfl
    rw [last]
    refine ⟨ih.psqs, fun n hn => ?_⟩
    rw [writeValue_vreg, lastWrite_append]
    split
    · rfl
    · exact ih.value n hn

/-- The writes of a cycle in the order of their sources. -/
def inOrder (ws : List VWrite) : List VWrite := (upto 4).flatMap fun p => ws.filter fun w => w.pri == p

theorem settleV_eq (s : State) (q : Nat) : s.settleV q =
    let u := s.each (inOrder (s.psq q).vq) (writeValue q)
    u.setPsq q { u.psq q with vq := [] } := by
  have ordered : s.each (upto 4) (fun u p => u.each ((s.psq q).vq.filter fun w => w.pri == p) (writeValue q)) =
      s.each (inOrder (s.psq q).vq) (writeValue q) := by
    unfold State.each inOrder
    rw [List.foldl_flatMap]
  dsimp only
  rw [← ordered]
  rfl

theorem inOrder_filter (ws : List VWrite) (n : Nat) : (inOrder ws).filter (fun w => w.reg == n) =
    (upto 4).flatMap fun p => ws.filter fun w => w.pri == p && w.reg == n := by
  unfold inOrder
  rw [List.filter_flatMap]
  refine congrArg (List.flatMap · (upto 4)) (funext fun p => ?_)
  rw [List.filter_filter]
  exact congrArg (List.filter · ws) (funext fun w => Bool.and_comm _ _)

theorem settleV_settles (s : State) (q n : Nat) (hn : n < 8) : (s.settleV q).vreg q n =
      (((((upto 4).flatMap fun p => (s.psq q).vq.filter fun w => w.pri == p && w.reg == n).getLast?).map fun w =>
    w.val.toNat).getD (s.vreg q n)) ∧
      (s.settleV q).psq q = { s.psq q with vq := [] } := by
  obtain ⟨psqs, value⟩ := valuesWritten s q (inOrder (s.psq q).vq)
  have psq : (s.each (inOrder (s.psq q).vq) (writeValue q)).psq q = s.psq q := by
    rw [State.psq, psqs]
    rfl
  rw [settleV_eq, ← inOrder_filter]
  refine ⟨value n hn, ?_⟩
  exact (setPsq_psq_self _ q _).trans (congrArg (fun p : Psq => { p with vq := [] }) psq)

end Sys2Proof.Proofs
end

section
/-! SUPPORT. The program memory of a sequencer (R273): its keys lie behind the Gleaner's shadow, so a word stored there is read back
there and nowhere else. -/
namespace Sys2Proof.Proofs
open Sys2Proof.Machine Sys2Proof.Laws

/-! ### Bytes behind the Gleaner's shadow -/

section
variable {s : State} (hw : WindowFits s) {k : Nat} (hk : 0x1020000 ≤ k)
include hw hk

theorem notInWindow : s.inWindow k = false := by
  have fits : s.gleanBase + 256 ≤ 0x1010000 := hw
  rw [State.inWindow, Bool.and_eq_false_iff]
  exact .inr (decide_eq_false (by omega))

theorem phys_behind : s.phys k = k := by
  rw [State.phys, notInWindow hw hk, if_neg fun h => Bool.false_ne_true h.2]

/-- No other access is served where a key behind the shadow is. -/
theorem phys_behind_iff (j : Nat) : s.phys j = k ↔ j = k := by
  have fits : s.gleanBase + 256 ≤ 0x1010000 := hw
  constructor
  · intro served
    by_cases behind : 0x1020000 ≤ j
    · rwa [phys_behind hw behind] at served
    · unfold State.phys State.inWindow gshadowKey at served
      simp only [Bool.and_eq_true, decide_eq_true_eq] at served
      split at served <;> omega
  · rintro rfl
    exact phys_behind hw hk

theorem putByte_behind (b : Byte) (j : Nat) : (s.putByte k b).byteAt j = if j = k then b else s.byteAt j := by
  unfold State.byteAt
  rw [phys_of_gleaner (putByte_gleaner s k b)]
  unfold State.putByte
  dsimp only
  rw [notInWindow hw hk, if_neg fun h => Bool.false_ne_true h.2, setCell_cell, phys_behind hw hk]
  exact if_congr (phys_behind_iff hw hk j) rfl rfl

end

theorem putByte_windowFits {s : State} (hw : WindowFits s) (k : Nat) (b : Byte) : WindowFits (s.putByte k b) :=
  windowFits_of_base (by simp only [State.gleanBase, putByte_gleaner]) hw

theorem putBytes_behind_outside {s : State} (hw : WindowFits s) {k j : Nat} (hk : 0x1020000 ≤ k) {bs : List Byte}
    (out : j < k ∨ k + bs.length ≤ j) : (s.putBytes k bs).byteAt j = s.byteAt j := by
  induction bs generalizing s k with
  | nil => rfl
  | cons b bs ih =>
    rw [List.length_cons] at out
    rw [State.putBytes, ih (putByte_windowFits hw k b) (by omega) (by omega), putByte_behind hw hk, if_neg (by omega)]

theorem putBytes_behind {s : State} (hw : WindowFits s) {k i : Nat} (hk : 0x1020000 ≤ k) {bs : List Byte} (hi : i < bs.length) :
    (s.putBytes k bs).byteAt (k + i) = bs.getD i 0 := by
  induction bs generalizing s k i with
  | nil => exact absurd hi (by simp)
  | cons b bs ih =>
    have fits := putByte_windowFits hw k b
    rw [State.putBytes]
    cases i with
    | zero => rw [putBytes_behind_outside fits (by omega) (by omega), putByte_behind hw hk, if_pos (Nat.add_zero k), List.getD_cons_zero]
    | succ i =>
      rw [List.length_cons] at hi
      rw [List.getD_cons_succ, ← ih fits (by omega : 0x1020000 ≤ k + 1) (by omega : i < bs.length), Nat.add_assoc, Nat.add_comm 1 i]

section
variable {s : State} (hw : WindowFits s) {k : Nat} (hk : 0x1020000 ≤ k) (w : Word)
include hw hk

theorem setWord_behind_outside {j : Nat} (out : j < k ∨ k + 4 ≤ j) : (s.setWord k w).byteAt j = s.byteAt j := by
  have same := marked_sameStore s k (toBytes 4 w.toNat).length
  have length : (toBytes 4 w.toNat).length = 4 := toBytes_length 4 w.toNat
  rw [State.setWord, State.memWrite, putBytes_behind_outside (windowFits_of_base same.base hw) hk (by omega), same.byteAt]

theorem setWord_behind : (s.setWord k w).word k = w := by
  have same := marked_sameStore s k (toBytes 4 w.toNat).length
  have bytes : (s.setWord k w).bytesAt k (toBytes 4 w.toNat).length = toBytes 4 w.toNat :=
    bytesAt_eq fun i hi => putBytes_behind (windowFits_of_base same.base hw) hk hi
  rw [toBytes_length] at bytes
  rw [State.word, bytes, ofBytes_toBytes]
  exact BitVec.eq_of_toNat_eq (by simp [Nat.mod_eq_of_lt w.isLt])

end

/-! ### PROGRAM_RAM_WRITE -/

section
variable {acc : Acc} {q : BitVec 6} {val : Word} {s : State}

theorem programRamWrite_eq (h : Open s acc) (q : BitVec 6) (val : Word) :
    exec (.programRamWrite acc q val) s = .next (s.writeProg acc q.toNat val).1 := by
  have inRange : (Reg.psqPdata q.toNat).inRange = true := decide_eq_true q.isLt
  refine congrArg Host.Outcome.next ((put_open h inRange (by simp only [Reg.off, psqBase]; omega) _).trans ?_)
  rw [writeReg_psqPdata, BitVec.ofNat_toNat, BitVec.setWidth_eq]

theorem stoppedFor_psqPdata (s : State) (q : Nat) :
    s.stoppedFor (.psqPdata q) = true ↔ s.mode = .configure ∨ (s.psq q).st = .stopped := by
  rw [State.stoppedFor, Bool.or_eq_true, beq_iff_eq, beq_iff_eq]

theorem programRamWrite_runs {a j : Nat} (h : Open s acc) (may : s.mode = .configure ∨ (s.psq q.toNat).st =
    .stopped) (fits : WindowFits s) (ha : a = s.rf (.psqPaddr q.toNat) 7 0) : Leads (.programRamWrite acc q val) s fun t =>
      t = { s with ram := t.ram, ecc := t.ecc, scrubs := t.scrubs, regs := t.regs, gleaner := t.gleaner } ∧ t.progWord q.toNat
    a = val ∧
      (j < 256 → j ≠ a → t.progWord q.toNat j = s.progWord q.toNat j) ∧ (j < 0x1020000 → t.byteAt j = s.byteAt j) ∧
      t.reg (.psqPaddr q.toNat) = BitVec.ofNat 32 ((a + 1) % 256) ∧ RegsBut (.psqPaddr q.toNat :: memRegs) s t := by
  have small : a < 256 := ha ▸ rf_lt s _ rfl
  have behind : 0x1020000 ≤ progKey q.toNat (4 * a) := by unfold progKey; omega
  have run := programRamWrite_eq h q val
  rw [State.writeProg, if_pos ((stoppedFor_psqPdata s q.toNat).mpr may), ← ha] at run
  have outside (i : Nat) (out : i < progKey q.toNat (4 * a) ∨ progKey q.toNat (4 * a) + 4 ≤ i) :=
    setWord_behind_outside fits behind val out
  have word := setWord_behind fits behind val
  obtain ⟨frame, regs, _⟩ := setWord_stored s (progKey q.toNat (4 * a)) val
  refine ⟨_, run, ?_⟩
  dsimp only
  generalize s.setWord (progKey q.toNat (4 * a)) val = u at *
  have same := setReg_sameStore u (.psqPaddr q.toNat) (BitVec.ofNat 32 ((a + 1) % 256))
  refine ⟨?_, ?_, fun hj other => ?_, fun hj => ?_, setReg_reg_self _ _ _, fun r hr => ?_⟩
  · obtain ⟨ram, ecc, scrubs, regs, gleaner, rfl⟩ := frame
    rfl
  · rw [State.progWord, Nat.mod_eq_of_lt small, same.word, word]
  · rw [State.progWord, State.progWord, Nat.mod_eq_of_lt hj, same.word]
    exact word_congr fun i hi => outside _ (by unfold progKey; omega)
  · rw [same.byteAt]
    exact outside j (.inl (by omega))
  · rw [List.map_cons, List.mem_cons, not_or] at hr
    exact (setReg_reg_other u _ hr.1).trans (regs r hr.2)

theorem programRamWrite_refused (h : Open s acc) (mode : s.mode ≠ .configure) (going : (s.psq q.toNat).st ≠ .stopped) :
    exec (.programRamWrite acc q val) s = .next
    { s with reports := s.reports ++ [⟨s.cycle + 1, 0x61, 3, q.toNat, BitVec.ofNat 32 (pathIdx acc.path), s.reg (.psqPaddr q.toNat), false⟩] } := by
  have bars : ¬ s.stoppedFor (.psqPdata q.toNat) = true := fun may => ((stoppedFor_psqPdata s q.toNat).mp may).elim mode going
  rw [programRamWrite_eq h, State.writeProg, if_neg bars, report_open h]

end

/-- Settles O54: each command by what its register, port or memory takes, each refusal by the report it makes. -/
theorem sequencerPortsAndCommandsAct : Obligations.SequencerPortsAndCommandsAct := by
  unfold Obligations.SequencerPortsAndCommandsAct
  exact ⟨fun acc q s => psqStart_runs, fun acc q s => psqStart_refused, fun acc q s => psqStop_runs, fun acc q s => psqStop_refused,
    fun acc q val a j s => programRamWrite_runs, fun acc q val s => programRamWrite_refused,
    fun acc q act s => actionOfferHost_refused, fun acc q act s => actionOfferHost_late, fun acc q act s => actionOfferHost_early,
    fun g q k val s => shiftRegisterWrite_out, fun g q k val s => shiftRegisterWrite_in, fun g q k s => shiftRegisterRead_clears,
    fun g q k s => shiftRegisterRead_idle, fun g q val s => valueSetPort_runs, fun g q val s => valueSetPort_refused,
    fun s q n hn _ => settleV_settles s q n hn, fun src q mask g s => triggerBitsSet_thread, fun src q mask acc s => triggerBitsSet_bus,
    fun g q k v w m s => ports_idle⟩

end Sys2Proof.Proofs
end
